-- ==== Sys2Proof/Word.lean ====
section
/-! DEFINITION. The plain word types of the Brinunte model: bytes, the manual's fixed-width words, and the sparse
tables that hold its large address-like spaces. Nothing here computes more than a name. -/

namespace Sys2Proof

/-- One byte of local or host memory. -/
abbrev Byte := BitVec 8
/-- A 16-bit value; every status of R15 is one. -/
abbrev W16 := BitVec 16
/-- A 32-bit value: an accumulator entry, a vector lane (R64, R102). -/
abbrev W32 := BitVec 32
/-- A 64-bit value: a register, a seed, an address with its node (R127, R284). -/
abbrev W64 := BitVec 64
/-- A program word of R118. -/
abbrev W128 := BitVec 128

/-- A status of R15: bits [15:12] the class, [11:0] the detail. -/
abbrev Status := BitVec 16

/-- A sparse table: keys strictly rising, no entry equal to the table's default. -/
abbrev Tab (α : Type) := List (Nat × α)

/-- Index of one of the 128 cores (R5). -/
abbrev CoreId := Fin 128
/-- Index of one of the 4,096 contexts (R6). -/
abbrev CtxId := Fin 4096
/-- Index of one of the 32,768 trays (R164). -/
abbrev TrayId := Fin 32768
/-- Index of one of the eight Saltpan ports (R269). -/
abbrev PortId := Fin 8
/-- Index of one of the eight rakes (R214). -/
abbrev RakeId := Fin 8

/-- The value an element decodes to (R32, R33): NaN, a signed infinity, or (−1)^neg × m × 2^e. INT8 and INT32 values
are `fin` values with `e = 0`. -/
inductive FVal
  | nan
  | inf (neg : Bool)
  | fin (neg : Bool) (m : Nat) (e : Int)
  deriving DecidableEq, Repr

end Sys2Proof
end

