-- ==== Sys2Proof/Payload.lean ====
section
/-! DEFINITION. The payloads that commands carry: Saltpan messages and control records, command headers, the content of
a stage image, update blocks, and what a start finds on the board. Plain data only. -/

namespace Sys2Proof

/-- Sparse memory contents that accompany a command: addresses and bytes. -/
abbrev Cells := List (Nat × Byte)

/-- A Saltpan message (Table 12-5) with its data words as bytes. `rsvd` is true when a reserved field is non-zero. -/
structure Msg where
  mtype : Nat := 0
  barrier : Bool := false
  poison : Bool := false
  len : Nat := 0
  transit : Bool := false
  data : Bool := false
  stream : Nat := 0
  tag : Nat := 0
  aop : Nat := 0
  dst : Nat := 0
  src : Nat := 0
  addr : Nat := 0
  status : Nat := 0
  ctx : Nat := 0
  slot : Nat := 0
  ukind : Nat := 0
  unit : Nat := 0
  win : Nat := 0
  arg : Nat := 0
  rsvd : Bool := false
  words : List Byte := []
  deriving DecidableEq, Repr

/-- The fields of a TRAIN control record (Table 12-4). -/
structure TrainRec where
  versions : Nat := 0
  port : Nat := 0
  node : Nat := 0xFFFF
  transit : Bool := false
  encrypt : Bool := false
  presets : Bool := false
  lanes : Nat := 0
  deriving DecidableEq, Repr

/-- What the training of a port finds (Table 12-2, R271): whether its lanes lock, whether a load of the stored presets passes steps 5 and
6 on every lane, the lanes that pass them at both ends after a full search, and the peer's TRAIN record. -/
structure TrainResult where
  locked : Bool := true
  presetOk : Bool := true
  lanesOk : Nat := 15
  peer : TrainRec := {}
  deriving DecidableEq, Repr

/-- A command header (Table 14-2) without its OPCODE, which the row fixes. `rsvd` is true when a reserved field is
non-zero. -/
structure CmdHdr where
  nparam : Nat := 0
  flags : Nat := 0
  cmdid : Nat := 0
  target : Nat := 0
  haddr : Nat := 0
  hlen : Nat := 0
  rsvd : Bool := false
  deriving DecidableEq, Repr

/-- A sweep descriptor (Table 9-1). -/
structure SweepDesc where
  kind : Nat := 1
  plotsz : Nat := 2
  id : Nat := 0
  intray : Nat := 0
  prog : Nat := 0
  pstride : Nat := 0
  rowBase : Nat := 0
  rowCount : Nat := 0
  stash : Nat := 0
  beats : Nat := 0
  trap : Nat := 0
  rsvd : Bool := false
  deriving DecidableEq, Repr

/-- A class of Table 15-1's CLASSTAB (R382). -/
structure ClassEnt where
  pkgmode : Nat := 0
  pkgsub : Nat := 0
  bankhalf : Nat := 0
  rsvd : Bool := false
  deriving DecidableEq, Repr

/-- A shard of a harvest plan (Table 16-1): KIND 1 beds, 2 preconditioner, 3 groups. -/
structure Shard where
  kind : Nat := 1
  addr : Nat := 0
  len : Nat := 0
  holders : Nat := 0
  off : Nat := 0
  deriving DecidableEq, Repr

/-- A harvest plan (Table 16-1): G, the node of each rank, HTIMEOUT in seconds and the shards. -/
structure Plan where
  g : Nat := 2
  nodes : List Nat := []
  htimeout : Nat := 600
  shards : List Shard := []
  deriving DecidableEq, Repr

/-- R304: one position's part of the chains that Aipel compiles into an image: the phase of Table 9-10 that releases it (3 reduce-scatter,
4 all-gather), the core and the mover ring that run it, the ring's base and LOG2N, the descriptors released, and the counting peg with its
threshold that the neighbour's data signals, if any. -/
structure Chain where
  phase : Nat := 3
  core : Nat := 0
  mover : Nat := 0
  ring : Nat := 0
  base : Nat := 0
  log2n : Nat := 3
  count : Nat := 1
  peg : Option (Nat × Nat) := none
  deriving DecidableEq, Repr

/-- A stage image as STAGE_LOAD reads it (R187, R193, R162, R365, R388). The spec gives the items and no byte layout
for the image file, so the items are the payload (log 10). -/
structure Image where
  fmtVer : Nat := 0x0402
  digestOk : Bool := true
  digest : List Byte := []
  m : Nat := 1
  window : Nat := 1
  depth : Nat := 0
  stashSlots : Nat := 1
  localBlocks : Nat := 1
  recent : Nat := 0
  chunk : Nat := 64
  vmax : Nat := 850
  slice : Nat := 4
  classtab : List ClassEnt := []
  sweeps : List SweepDesc := []
  tractModes : List (Nat × Nat) := []
  reserve : Bool := false
  split : Bool := false
  headsOnly : Bool := false
  /-- Training bed regions, each a base and a length in bytes (R158). -/
  beds : List (Nat × Nat) := []
  /-- The weight-gradient buffer: base and length (R214). -/
  wgrad : Nat × Nat := (0, 0)
  /-- Group table: base and number of records (R232). -/
  groupBase : Nat := 0
  groupCount : Nat := 0
  /-- Table 7-15: the bytes of each matrix region of inference heads, and the local KV pages of the image's serving contexts. -/
  heads : List Nat := []
  kvBytes : Nat := 0
  /-- R351: the bytes of the buffers that the image declares for each context that runs it. -/
  ctxBytes : Nat := 0
  /-- The bytes of the image's other heap regions: programs, tables. -/
  heapBytes : Nat := 0
  kvPage : Nat := 512
  pagesPerBlock : Nat := 1
  /-- R204: the KV format, a format descriptor of Table 2-3. -/
  kvFmt : Nat := 4
  /-- R304: the chains of the reduce-scatter and of the all-gather, compiled from the shard table. -/
  chains : List Chain := []
  /-- What the image places in local memory: heads, beds, programs and tables. -/
  content : Cells := []
  /-- R388: the harvest plan; an image without training beds may carry none. -/
  plan : Option Plan := none
  deriving DecidableEq, Repr

/-- One signed record of flash (Table 17-3) as the ROM finds it. -/
structure SignedRec where
  present : Bool := false
  magicOk : Bool := true
  sigOk : Bool := true
  kind : Nat := 1
  keyIndex : Nat := 0
  stepping : Nat := 0xB1
  version : Nat := 0
  dieId : Nat := 0
  journalVer : Nat := 1
  /-- FLOOR of the signing key (R456). -/
  floor : Nat := 0
  /-- R455: whether the key table in force stands (the ROM's digest of entry 0, and every certificate under it), how many certificates it
  has, and the KINDS of the signing key, bit n for KIND n. -/
  tableOk : Bool := true
  certs : Nat := 15
  kinds : Nat := 14
  /-- SHAKE256 of the header and body of an image, or of the body of another record, and of the key table (Table 19-5). -/
  digest : Nat := 0
  keyDigest : Nat := 0
  deriving DecidableEq, Repr

/-- The board configuration record body (Table 17-4). -/
structure BoardCfg where
  subsys : Nat := 0
  s256 : Nat := 0
  ideRequired : Bool := false
  currentUnit : Nat := 0
  hostLoss : Nat := 10
  rails : Nat := 0
  /-- CXL transmitter presets for lanes 0 to 15. -/
  presets : List Nat := []
  digest : Nat := 0
  deriving DecidableEq, Repr

/-- What a commit of the HDM decoder carries beside its base (R310, R323): its size in bytes, its ways and its granularity in bytes. -/
structure HdmSpan where
  size : Nat
  ways : Nat := 1
  gran : Nat := 256
  deriving DecidableEq, Repr

/-- A training record as a start reads it (R415): whether its digest passes, the die ID, the packages' identity mode registers, the data
rate in MT/s, the rail codes, and each package's temperature at training in 0.1 °C. -/
structure TrainingRec where
  digestOk : Bool := true
  dieId : Nat := 0
  regs : List Nat := []
  rate : Nat := 10667
  rails : Nat := 210 + 180 * 2 ^ 8 + 100 * 2 ^ 16
  temps : List Int := []
  deriving DecidableEq, Repr

/-- What a start finds on the board: straps, flash or mesh contents, training and test results. -/
structure StartInputs where
  pos : Nat := 0
  bootsrc : Bool := false
  uartv : Bool := false
  part : Nat := 0
  flashAnswers : Bool := true
  meshAnswers : Bool := true
  slot0 : SignedRec := {}
  slot1 : SignedRec := {}
  cfgRec : SignedRec := {}
  cfg : BoardCfg := {}
  repairRec : SignedRec := {}
  /-- R415: the stored training record, and the packages' identity mode registers and temperatures in 0.1 °C as they read now. -/
  training : Option TrainingRec := none
  pkgRegs : List Nat := []
  pkgTemps : List Int := []
  memTrains : Bool := true
  /-- Cores whose BIST finds a failure that cannot be repaired (R414), and whether a non-core array has one. -/
  badCores : List Nat := []
  badArray : Bool := false
  /-- PUF read-out: for each group of the ID region, how many of its nine reads gave 1 at each cell (R450); the key region's bits as the
  code-offset construction corrects them, and the check tag of the repair record (R451). -/
  pufId : List (List Nat) := []
  pufBits : List Byte := []
  tag : List Byte := []
  /-- Whether the regulator answers the first AVSBus write (R501). -/
  avsAnswers : Bool := true
  /-- The certificate chain that the repair record carries (R451, R460). -/
  chain : List Byte := []
  /-- What a position 0 holds for its secondaries: part number, die ID (0 for parts 1 and 4) and bytes (R421). -/
  parts : List (Nat × Nat × List Byte) := []
  /-- Training result of each Saltpan port. -/
  ports : List TrainResult := []
  /-- Journal copies at a warm start: header digests good, and entries uncorrectable in one copy and in both. -/
  hdrAOk : Bool := true
  hdrBOk : Bool := true
  badOne : List Nat := []
  badBoth : List Nat := []
  /-- Milliseconds taken to verification, to the end of the memory step and to READY. -/
  tVerified : Nat := 0
  tMemup : Nat := 0
  tReady : Nat := 0
  deriving DecidableEq, Repr

/-- The producer's fields of a packet entry (Table 8-1). `rsvd` is true when a reserved field is non-zero. -/
structure TrayEntry where
  tag : Nat := 0
  length : Nat := 0
  prio : Nat := 0
  endp : Bool := false
  fver : Nat := 1
  fmt : Nat := 0
  pseq : Nat := 1
  slot : Nat := 0
  crc : Nat := 0
  rsvd : Bool := false
  deriving DecidableEq, Repr

/-- The RING_ANCHOR payload (Table 14-1); `secured` says that it arrived inside a secured session. -/
structure Anchor where
  cmdLog2 : Nat := 6
  cmplLog2 : Nat := 6
  vector : Nat := 0
  cmdBase : Nat := 0
  cmplBase : Nat := 0
  rsvd : Bool := false
  secured : Bool := false
  deriving DecidableEq, Repr

/-- What RESTORE reads of its store beyond what the part knows: bytes of another node's store or of host memory; the spans, as offset in the
store, bytes and status, whose read fails in the verify pass; and the same for the load pass's second read, where it differs (R400, R402). -/
structure StoreReads where
  seen : Cells := []
  lost : List (Nat × Nat × Nat) := []
  again : Cells := []
  lostAgain : List (Nat × Nat × Nat) := []
  deriving DecidableEq, Repr

/-- What the Trellis measures at one tick (R368, R373, R377): core temperatures in 0.1 °C, sensors whose read failed, whether a voltage
write is acknowledged, and the voltage read back after it. -/
structure TickIn where
  temps : List (Nat × Int) := []
  failed : List Nat := []
  ack : Bool := true
  readback : Option Nat := none
  deriving DecidableEq, Repr

end Sys2Proof
end

