-- ==== Sys2Proof/Syntax.lean ====
section
/-! DEFINITION. The commands of the block: one constructor for each row of the opcode table, with the row's operands. -/

namespace Sys2Proof

/-- A command or event of the Brinunte (one constructor per row; the rule that gives it is cited). The words of a core
program carry the core and bits [127:8] of the word, since the row fixes OP; NOP carries the whole word and stands also
for the words whose OP is reserved (log 11). -/
inductive Instr
  /-- POWER_ON, R418. -/
  | powerOn (i : StartInputs)
  /-- PWROK_FALL, R493. -/
  | pwrokFall
  /-- BOARD_RESET, R494. -/
  | boardReset (railsHeld : Bool) (i : StartInputs)
  /-- WATCHDOG, R446. -/
  | watchdog (i : StartInputs)
  /-- FATAL_FAULT_RESET, R446. -/
  | fatalFaultReset (i : StartInputs)
  /-- CX_PERST, R420. -/
  | cxPerst (assert : Bool) (width rate : Nat) (flit256 : Bool)
  /-- HARDWARE_TRIP, R499. -/
  | hardwareTrip
  /-- BOOT_REQ, R421. -/
  | bootReq (p : PortId) (die : Nat) (pos parts : Nat)
  /-- BOOT_DATA, R421. -/
  | bootData (p : PortId) (part off : Nat) (bytes : List Byte)
  /-- BOOT_END, R422. -/
  | bootEnd (p : PortId) (part len : Nat) (digest : List Byte) (status : Nat)
  /-- TRAIN_PUT, R415. -/
  | trainPut (p : PortId) (die : Nat) (bytes : List Byte)
  /-- BOOT_RETRY, R422. -/
  | bootRetry
  /-- MESH_BOOT_RESTART, R422. -/
  | meshBootRestart
  /-- NOP, R118. -/
  | nop (c : CoreId) (w : W128)
  /-- END, R118. -/
  | endW (c : CoreId) (f : BitVec 120)
  /-- GATE, R119. -/
  | gate (c : CoreId) (f : BitVec 120)
  /-- GATE_RELEASE, R119. -/
  | gateRelease (c : CoreId)
  /-- LOOP, R121. -/
  | loop (c : CoreId) (f : BitVec 120)
  /-- SEED, R123. -/
  | seed (c : CoreId) (f : BitVec 120)
  /-- PROGRAM_COMPLETE, R118. -/
  | programComplete (c : CoreId)
  /-- ENGINE_WORD_COMPLETE, R116: the unit, how many of its words stand before the completed one, and the beats since the last
  completion in which its engine gave no result, by the causes (as counter offsets) that held at once. -/
  | engineWordComplete (c : CoreId) (u : Fin 11) (k : Nat) (waits : List (List Nat × Nat))
  /-- ASTAT, R56. -/
  | astat (c : CoreId) (f : BitVec 120)
  /-- AMUL, R65. -/
  | amul (c : CoreId) (f : BitVec 120)
  /-- DIST_SQ, R79. -/
  | distSq (c : CoreId) (f : BitVec 120)
  /-- DIST_ABS, R79. -/
  | distAbs (c : CoreId) (f : BitVec 120)
  /-- DIST_MAX, R79. -/
  | distMax (c : CoreId) (f : BitVec 120)
  /-- SEL_MAX, R86. -/
  | selMax (c : CoreId) (f : BitVec 120)
  /-- SEL_MIN, R86. -/
  | selMin (c : CoreId) (f : BitVec 120)
  /-- FOLD_MAX, R87. -/
  | foldMax (c : CoreId) (f : BitVec 120)
  /-- FOLD_MIN, R87. -/
  | foldMin (c : CoreId) (f : BitVec 120)
  /-- ADRAIN, R67. -/
  | adrain (c : CoreId) (f : BitVec 120)
  /-- ALOAD, R68. -/
  | aload (c : CoreId) (f : BitVec 120)
  /-- FRES, R96. -/
  | fres (c : CoreId) (f : BitVec 120)
  /-- FMUL, R97. -/
  | fmul (c : CoreId) (f : BitVec 120)
  /-- FDRAIN, R98. -/
  | fdrain (c : CoreId) (f : BitVec 120)
  /-- VADD, R104. -/
  | vadd (c : CoreId) (f : BitVec 120)
  /-- VSUB, R104. -/
  | vsub (c : CoreId) (f : BitVec 120)
  /-- VMUL, R104. -/
  | vmul (c : CoreId) (f : BitVec 120)
  /-- VFMA, R104. -/
  | vfma (c : CoreId) (f : BitVec 120)
  /-- VMIN, R104. -/
  | vmin (c : CoreId) (f : BitVec 120)
  /-- VMAX, R104. -/
  | vmax (c : CoreId) (f : BitVec 120)
  /-- VABS, R104. -/
  | vabs (c : CoreId) (f : BitVec 120)
  /-- VNEG, R104. -/
  | vneg (c : CoreId) (f : BitVec 120)
  /-- VCMPEQ, R104. -/
  | vcmpeq (c : CoreId) (f : BitVec 120)
  /-- VCMPLT, R104. -/
  | vcmplt (c : CoreId) (f : BitVec 120)
  /-- VCMPLE, R104. -/
  | vcmple (c : CoreId) (f : BitVec 120)
  /-- VSEL, R104. -/
  | vsel (c : CoreId) (f : BitVec 120)
  /-- VIADD, R104. -/
  | viadd (c : CoreId) (f : BitVec 120)
  /-- VISUB, R104. -/
  | visub (c : CoreId) (f : BitVec 120)
  /-- VIMUL, R104. -/
  | vimul (c : CoreId) (f : BitVec 120)
  /-- VAND, R104. -/
  | vand (c : CoreId) (f : BitVec 120)
  /-- VOR, R104. -/
  | vor (c : CoreId) (f : BitVec 120)
  /-- VXOR, R104. -/
  | vxor (c : CoreId) (f : BitVec 120)
  /-- VSHL, R104. -/
  | vshl (c : CoreId) (f : BitVec 120)
  /-- VSHR, R104. -/
  | vshr (c : CoreId) (f : BitVec 120)
  /-- VSRA, R104. -/
  | vsra (c : CoreId) (f : BitVec 120)
  /-- VFTOI, R104. -/
  | vftoi (c : CoreId) (f : BitVec 120)
  /-- VITOF, R104. -/
  | vitof (c : CoreId) (f : BitVec 120)
  /-- VDIV, R104. -/
  | vdiv (c : CoreId) (f : BitVec 120)
  /-- VSQRT, R104. -/
  | vsqrt (c : CoreId) (f : BitVec 120)
  /-- VRCP, R104. -/
  | vrcp (c : CoreId) (f : BitVec 120)
  /-- VRSQRT, R104. -/
  | vrsqrt (c : CoreId) (f : BitVec 120)
  /-- VEXP2, R104. -/
  | vexp2 (c : CoreId) (f : BitVec 120)
  /-- VLOG2, R104. -/
  | vlog2 (c : CoreId) (f : BitVec 120)
  /-- VEXP, R104. -/
  | vexp (c : CoreId) (f : BitVec 120)
  /-- VLOG, R104. -/
  | vlog (c : CoreId) (f : BitVec 120)
  /-- VTANH, R104. -/
  | vtanh (c : CoreId) (f : BitVec 120)
  /-- VSIGM, R104. -/
  | vsigm (c : CoreId) (f : BitVec 120)
  /-- VSIN, R104. -/
  | vsin (c : CoreId) (f : BitVec 120)
  /-- VCOS, R104. -/
  | vcos (c : CoreId) (f : BitVec 120)
  /-- VERF, R104. -/
  | verf (c : CoreId) (f : BitVec 120)
  /-- VRSUM, R106. -/
  | vrsum (c : CoreId) (f : BitVec 120)
  /-- VRMAX, R106. -/
  | vrmax (c : CoreId) (f : BitVec 120)
  /-- VRMIN, R106. -/
  | vrmin (c : CoreId) (f : BitVec 120)
  /-- VRARGMAX, R106. -/
  | vrargmax (c : CoreId) (f : BitVec 120)
  /-- VRARGMIN, R106. -/
  | vrargmin (c : CoreId) (f : BitVec 120)
  /-- VLD, R107. -/
  | vld (c : CoreId) (f : BitVec 120)
  /-- VST, R107. -/
  | vst (c : CoreId) (f : BitVec 120)
  /-- VGATHER, R108. -/
  | vgather (c : CoreId) (f : BitVec 120)
  /-- MRING, R294. -/
  | mring (c : CoreId) (m : Fin 2) (f : BitVec 120)
  /-- MKICK, R294. -/
  | mkick (c : CoreId) (m : Fin 2) (f : BitVec 120)
  /-- COPY, R296. -/
  | copy (c : CoreId) (m : Fin 2) (r : Fin 4)
  /-- ADD_COPY, R296. -/
  | addCopy (c : CoreId) (m : Fin 2) (r : Fin 4)
  /-- STREAM, R303. -/
  | stream (c : CoreId) (m : Fin 2) (r : Fin 4)
  /-- MOVER_ATOMIC, R296. -/
  | moverAtomic (c : CoreId) (m : Fin 2) (r : Fin 4)
  /-- MOVER_TRAY_PUT, R296. -/
  | moverTrayPut (c : CoreId) (m : Fin 2) (r : Fin 4)
  /-- MOVER_UPDATE, R296. -/
  | moverUpdate (c : CoreId) (m : Fin 2) (r : Fin 4)
  /-- DESCRIPTOR_COMPLETE, R297. -/
  | descriptorComplete (c : CoreId) (m : Fin 2) (r : Fin 4)
  /-- MESSAGE_RETRY, R299. -/
  | messageRetry (c : CoreId) (m : Fin 2) (r : Fin 4)
  /-- NO_CREDIT_RETRY, R299. -/
  | noCreditRetry (c : CoreId) (m : Fin 2) (r : Fin 4)
  /-- PSIG, R254. -/
  | psig (c : CoreId) (f : BitVec 120)
  /-- PWAIT, R245. -/
  | pwait (c : CoreId) (f : BitVec 120)
  /-- PARRIVE, R247. -/
  | parrive (c : CoreId) (f : BitVec 120)
  /-- PBWAIT, R254. -/
  | pbwait (c : CoreId) (f : BitVec 120)
  /-- PRESET, R248. -/
  | preset (c : CoreId) (f : BitVec 120)
  /-- PEG_APPLY, R245. -/
  | pegApply (c : CoreId)
  /-- PREEMPTION_POINT, R131. -/
  | preemptionPoint (c : CoreId) (nonpre : Bool)
  /-- SAVE_COMPLETE, R133. -/
  | saveComplete (c : CoreId)
  /-- RESUME_CONTEXT, R131. -/
  | resumeContext (u : Nat)
  /-- HANDSHAKE_TIMEOUT, R439. -/
  | handshakeTimeout (c : CoreId)
  /-- OPEN, R167. -/
  | openPkt (t : TrayId) (e : TrayEntry) (node : Nat) (own : Bool)
  /-- COMMIT, R167. -/
  | commit (t : TrayId) (slot pseq : Nat) (words : List Byte) (poison fabric : Bool)
  /-- COMMIT_POINT, R170. -/
  | commitPoint (t : TrayId)
  /-- OPEN_TIMEOUT, R171. -/
  | openTimeout (t : TrayId) (slot pseq : Nat)
  /-- CLAIM, R175. -/
  | claim (t : TrayId) (who : Option CoreId)
  /-- READ, R175. -/
  | read (t : TrayId) (who : Option CoreId)
  /-- READ_HOLD_EXPIRY, R175. -/
  | readHoldExpiry (t : TrayId) (seq : Nat)
  /-- UNCLAIM, R175. -/
  | unclaim (t : TrayId) (seq : Nat)
  /-- RETIRE, R175. -/
  | retire (t : TrayId) (seq : Nat)
  /-- CREDIT_UPDATE, R179. -/
  | creditUpdate (t : TrayId) (slot : Nat)
  /-- RD, R292. -/
  | rd (p : PortId) (m : Msg)
  /-- WR, R292. -/
  | wr (p : PortId) (m : Msg)
  /-- ATOMIC, R283. -/
  | atomic (p : PortId) (m : Msg)
  /-- SIGNAL, R256. -/
  | signal (p : PortId) (m : Msg)
  /-- TRAY_PUT, R282. -/
  | trayPut (p : PortId) (m : Msg)
  /-- UPDATE, R214. -/
  | update (p : PortId) (m : Msg)
  /-- CREDIT, R179. -/
  | credit (p : PortId) (m : Msg)
  /-- MGMT, R276. -/
  | mgmt (p : PortId) (m : Msg)
  /-- RDDATA, R280. -/
  | rddata (p : PortId) (m : Msg)
  /-- WRACK, R278. -/
  | wrack (p : PortId) (m : Msg)
  /-- ATOMRESP, R283. -/
  | atomresp (p : PortId) (m : Msg)
  /-- SIGACK, R279. -/
  | sigack (p : PortId) (m : Msg)
  /-- TRAY_ACK, R282. -/
  | trayAck (p : PortId) (m : Msg)
  /-- UPDACK, R279. -/
  | updack (p : PortId) (m : Msg)
  /-- RSP_TIMEOUT, R281. -/
  | rspTimeout (p : PortId) (tag : Nat)
  /-- FRAME_RECEIVE, R274. -/
  | frameReceive (p : PortId) (kind fseq fack : Nat) (crcOk : Bool) (fixed bad : Nat)
  /-- REPLAY, R274. -/
  | replay (p : PortId) (fseq : Nat)
  /-- LINK_CREDIT, R273. -/
  | linkCredit (p : PortId) (vc hdrs flits : Nat)
  /-- TRAIN, R270. -/
  | train (p : PortId) (r : TrainRec)
  /-- RETRAIN, R273. -/
  | retrain (p : PortId) (r : TrainResult)
  /-- TAG, R464. -/
  | tag (p : PortId) (epoch : Bool) (fseq : Nat) (ok : Bool)
  /-- TAG_TIMEOUT, R465. -/
  | tagTimeout (p : PortId)
  /-- LINK_TRAINING, R270. -/
  | linkTraining (p : PortId) (r : TrainResult)
  /-- PORT_RETRAIN, R275. -/
  | portRetrain (p : PortId) (r : TrainResult)
  /-- PORT_DOWN, R286. -/
  | portDown (p : PortId)
  /-- ROUTE_HOLD_RELEASE, R286. -/
  | routeHoldRelease (node : Nat)
  /-- RING_ANCHOR, R335. -/
  | ringAnchor (x : Anchor)
  /-- LINK_POLICY, R461. -/
  | linkPolicy (require allow : Nat) (rsvd secured : Bool)
  /-- GET_VERSION, R457. -/
  | getVersion (l : Fin 9)
  /-- GET_CAPABILITIES, R457. -/
  | getCapabilities (l : Fin 9)
  /-- NEGOTIATE_ALGORITHMS, R458. -/
  | negotiateAlgorithms (l : Fin 9) (acceptable : Bool)
  /-- GET_DIGESTS, R457. -/
  | getDigests (l : Fin 9)
  /-- GET_CERTIFICATE, R460. -/
  | getCertificate (l : Fin 9) (slot : Nat)
  /-- CHALLENGE, R459. -/
  | challenge (l : Fin 9) (slot : Nat)
  /-- GET_MEASUREMENTS, R462. -/
  | getMeasurements (l : Fin 9) (index : Nat)
  /-- KEY_EXCHANGE, R459. -/
  | keyExchange (l : Fin 9) (ek : List Byte) (authed : Bool)
  /-- FINISH, R459. -/
  | finish (l : Fin 9) (ok : Bool)
  /-- KEY_UPDATE, R466. -/
  | keyUpdate (l : Fin 9)
  /-- KEY_UPDATE_DUE, R466. -/
  | keyUpdateDue (p : PortId)
  /-- HEARTBEAT, R457. -/
  | heartbeat (l : Fin 9)
  /-- END_SESSION, R466. -/
  | endSession (l : Fin 9)
  /-- SET_CERTIFICATE, R460. -/
  | setCertificate (l : Fin 9) (slot : Nat) (chain : List Byte) (endsInKey : Bool)
  /-- DOE_DISCOVERY, R328. -/
  | doeDiscovery (mailbox : Fin 2) (index : Nat)
  /-- CDAT_READ, R328. -/
  | cdatRead (entry : Nat)
  /-- CMD_TAIL, R316. -/
  | cmdTail (c : CtxId) (tail : Nat) (data : Cells)
  /-- CMPL_HEAD, R338. -/
  | cmplHead (c : CtxId) (head : Nat)
  /-- EVR_HEAD, R258. -/
  | evrHead (c : CtxId) (head : Nat)
  /-- HTR_TAIL, R316. -/
  | htrTail (c : CtxId) (r : Fin 2) (tail : Nat) (data : Cells)
  /-- HTR_RESUME, R321. -/
  | htrResume (c : CtxId) (r : Fin 2)
  /-- SALT_NODE_WRITE, R272. -/
  | saltNodeWrite (v : BitVec 64)
  /-- SALT_CFG_WRITE, R306. -/
  | saltCfgWrite (v : BitVec 64)
  /-- FMT_SATCNT_READ, R51. -/
  | fmtSatcntRead (c : CoreId)
  /-- REGISTER_WRITE, R313. -/
  | registerWrite (off : Nat) (v : BitVec 64)
  /-- HDM_DECODER_COMMIT, R323. -/
  | hdmDecoderCommit (on : Bool) (base : Nat) (span : HdmSpan)
  /-- HOST_MEM_READ, R324. -/
  | hostMemRead (addr : Nat)
  /-- HOST_MEM_WRITE, R326. -/
  | hostMemWrite (addr : Nat) (bytes : List Byte) (poison : Bool)
  /-- BIRSP, R324. -/
  | birsp (line : Nat)
  /-- CXL_LINK_DOWN, R332. -/
  | cxlLinkDown
  /-- CXL_LINK_UP, R332. -/
  | cxlLinkUp (width rate : Nat) (flit256 : Bool)
  /-- HOST_LOSS, R445. -/
  | hostLoss
  /-- HOLDOFF_END, R322. -/
  | holdoffEnd (c : CtxId)
  /-- HTR_PUT, R319. -/
  | htrPut (c : CtxId) (r : Fin 2) (linkOk : Bool)
  /-- HTR_GET, R319. -/
  | htrGet (c : CtxId) (r : Fin 2) (linkOk : Bool)
  /-- HTR_DONE, R319. -/
  | htrDone (c : CtxId) (r : Fin 2) (linkOk : Bool)
  /-- HTR_UNCLAIM, R319. -/
  | htrUnclaim (c : CtxId) (r : Fin 2) (linkOk : Bool)
  /-- SESSION_OPEN, R344. -/
  | sessionOpen (c : CtxId) (h : CmdHdr) (par : List Byte)
  /-- SESSION_CLOSE, R346. -/
  | sessionClose (c : CtxId) (h : CmdHdr) (par : List Byte)
  /-- CTX_CREATE, R351. -/
  | ctxCreate (c : CtxId) (h : CmdHdr) (par : List Byte)
  /-- CTX_DESTROY, R350. -/
  | ctxDestroy (c : CtxId) (h : CmdHdr) (par : List Byte)
  /-- CTX_CONFIG, R352. -/
  | ctxConfig (c : CtxId) (h : CmdHdr) (par : List Byte)
  /-- STAGE_LOAD, R353. -/
  | stageLoad (c : CtxId) (h : CmdHdr) (par : List Byte) (img : Image)
  /-- STAGE_DRAIN, R353. -/
  | stageDrain (c : CtxId) (h : CmdHdr) (par : List Byte)
  /-- TRAY_CONFIG, R354. -/
  | trayConfig (c : CtxId) (h : CmdHdr) (par : List Byte)
  /-- TRAY_RELEASE, R354. -/
  | trayRelease (c : CtxId) (h : CmdHdr) (par : List Byte)
  /-- TRAY_FLUSH, R181. -/
  | trayFlush (c : CtxId) (h : CmdHdr) (par : List Byte)
  /-- SWEEP_RUN, R354. -/
  | sweepRun (c : CtxId) (h : CmdHdr) (par : List Byte)
  /-- SWEEP_RUN_STOP, R354. -/
  | sweepRunStop (c : CtxId) (h : CmdHdr) (par : List Byte)
  /-- SEQ_JOIN, R200. -/
  | seqJoin (c : CtxId) (h : CmdHdr) (par : List Byte)
  /-- SEQ_LEAVE, R200. -/
  | seqLeave (c : CtxId) (h : CmdHdr) (par : List Byte)
  /-- RAKE_PROGRAM, R230. -/
  | rakeProgram (c : CtxId) (h : CmdHdr) (par : List Byte)
  /-- RAKE_GROUP, R232. -/
  | rakeGroup (c : CtxId) (h : CmdHdr) (par : List Byte)
  /-- PEG_ALLOC, R262. -/
  | pegAlloc (c : CtxId) (h : CmdHdr) (par : List Byte)
  /-- PEG_FREE, R262. -/
  | pegFree (c : CtxId) (h : CmdHdr) (par : List Byte)
  /-- PEG_RESET, R262. -/
  | pegReset (c : CtxId) (h : CmdHdr) (par : List Byte)
  /-- PEG_SIGNAL, R263. -/
  | pegSignal (c : CtxId) (h : CmdHdr) (par : List Byte)
  /-- PEG_WAIT, R264. -/
  | pegWait (c : CtxId) (h : CmdHdr) (par : List Byte)
  /-- PEG_WAIT_TIMEOUT, R264. -/
  | pegWaitTimeout (c : CtxId) (aseq : Nat)
  /-- PEG_DUMP, R265. -/
  | pegDump (c : CtxId) (h : CmdHdr) (par : List Byte)
  /-- WINDOW_OPEN, R291. -/
  | windowOpen (c : CtxId) (h : CmdHdr) (par : List Byte)
  /-- WINDOW_CLOSE, R291. -/
  | windowClose (c : CtxId) (h : CmdHdr) (par : List Byte)
  /-- ROUTE_SET, R286. -/
  | routeSet (c : CtxId) (h : CmdHdr) (par : List Byte)
  /-- HARVEST, R395. -/
  | harvest (c : CtxId) (h : CmdHdr) (par : List Byte)
  /-- HARVEST_POLL, R395. -/
  | harvestPoll (c : CtxId) (seen : Cells)
  /-- HARVEST_TIMEOUT, R399. -/
  | harvestTimeout (c : CtxId)
  /-- RESTORE, R400. -/
  | restore (c : CtxId) (h : CmdHdr) (par : List Byte) (reads : StoreReads)
  /-- POWER_SET, R379. -/
  | powerSet (c : CtxId) (h : CmdHdr) (par : List Byte)
  /-- SELFTEST, R475. -/
  | selftest (c : CtxId) (h : CmdHdr) (par : List Byte)
  /-- SELFTEST_COMPLETE, R475. -/
  | selftestComplete (block index : Nat) (pass : Bool) (data : Nat)
  /-- DEBUG_READ, R357. -/
  | debugRead (c : CtxId) (h : CmdHdr) (par : List Byte)
  /-- ATTEST, R463. -/
  | attest (c : CtxId) (h : CmdHdr) (par : List Byte)
  /-- BED_PASS, R218. -/
  | bedPass (r : RakeId)
  /-- MOV, R231. -/
  | rkMov (r : RakeId) (d : Fin 16) (a b x : BitVec 5)
  /-- ADD, R231. -/
  | rkAdd (r : RakeId) (d : Fin 16) (a b x : BitVec 5)
  /-- SUB, R231. -/
  | rkSub (r : RakeId) (d : Fin 16) (a b x : BitVec 5)
  /-- MUL, R231. -/
  | rkMul (r : RakeId) (d : Fin 16) (a b x : BitVec 5)
  /-- FMA, R231. -/
  | rkFma (r : RakeId) (d : Fin 16) (a b x : BitVec 5)
  /-- FNMA, R231. -/
  | rkFnma (r : RakeId) (d : Fin 16) (a b x : BitVec 5)
  /-- MIN, R231. -/
  | rkMin (r : RakeId) (d : Fin 16) (a b x : BitVec 5)
  /-- MAX, R231. -/
  | rkMax (r : RakeId) (d : Fin 16) (a b x : BitVec 5)
  /-- ABS, R231. -/
  | rkAbs (r : RakeId) (d : Fin 16) (a b x : BitVec 5)
  /-- NEG, R231. -/
  | rkNeg (r : RakeId) (d : Fin 16) (a b x : BitVec 5)
  /-- DIV, R231. -/
  | rkDiv (r : RakeId) (d : Fin 16) (a b x : BitVec 5)
  /-- SQRT, R231. -/
  | rkSqrt (r : RakeId) (d : Fin 16) (a b x : BitVec 5)
  /-- RSQRT, R231. -/
  | rkRsqrt (r : RakeId) (d : Fin 16) (a b x : BitVec 5)
  /-- SIGN, R231. -/
  | rkSign (r : RakeId) (d : Fin 16) (a b x : BitVec 5)
  /-- SELGT, R231. -/
  | rkSelgt (r : RakeId) (d : Fin 16) (a b x : BitVec 5)
  /-- REFRESH, R236. -/
  | refresh (r : RakeId)
  /-- RAKE_PHASE_END, R225. -/
  | rakePhaseEnd
  /-- MISSING_BLOCK_TIMEOUT, R443. -/
  | missingBlockTimeout
  /-- STEP_FENCE, R195. -/
  | stepFence (c : CtxId)
  /-- PERIOD_END, R210. -/
  | periodEnd (c : CtxId)
  /-- PLOT_RECONFIG, R191. -/
  | plotReconfig
  /-- SLICE_END, R371. -/
  | sliceEnd (u : Nat)
  /-- TICK, R368. -/
  | tick (i : TickIn)
  /-- CURRENT_READ, R373. -/
  | currentRead (raw : Nat) (ack fault : Bool)
  /-- AVS_POLL, R377. -/
  | avsPoll (mv temp : Nat) (ack fault : Bool)
  /-- AVS_ALERT, R377. -/
  | avsAlert (ack fault : Bool)
  /-- SENSOR_FAIL_TIMEOUT, R385. -/
  | sensorFailTimeout (c : CoreId)
  /-- HEAT_RECORD, R384. -/
  | heatRecord
  /-- RATE_SAMPLE, R22. -/
  | rateSample (c : CoreId) (rate : Nat)
  /-- WEEDING, R145. -/
  | weeding (c : CoreId) (bank : Fin 16) (ce ue forced : Bool)
  /-- PATROL, R152. -/
  | patrol (ch : Fin 96) (line : Nat) (ce ue : Bool)
  /-- RING_RESTART, R437. -/
  | ringRestart
  /-- NEIGHBOUR_WAIT_TIMEOUT, R437. -/
  | neighbourWaitTimeout (u : Nat)
  /-- HELP, R472. -/
  | help
  /-- ID, R472. -/
  | idRecord
  /-- STATUS, R472. -/
  | status
  /-- AMON, R473. -/
  | amon (sel idx mv : Nat)
  /-- AMON_UPDATE, R473. -/
  | amonUpdate (mv : Nat)
  /-- TEST, R476. -/
  | test (block test index : Nat) (intrusive : Bool)
  /-- TEST_ALL, R472. -/
  | testAll
  /-- LOG, R472. -/
  | log (n : Nat)
  /-- PEGDUMP, R265. -/
  | pegdump (ctx : Option CtxId)
  /-- CONSOLE_READ, R472. -/
  | consoleRead (addr len : Nat)
  /-- BAUD, R470. -/
  | baud (rate : Nat)
  /-- UNLOCK, R472. -/
  | unlock
  /-- LOCK, R472. -/
  | lock
  /-- RESET_WARM, R446. -/
  | resetWarm (i : StartInputs)
  /-- RESET_COLD, R446. -/
  | resetCold (i : StartInputs)
  /-- RECOVER, R479. -/
  | recover (slot : Nat) (r : SignedRec) (i : StartInputs)
  /-- RMA, R481. -/
  | rma
  /-- SAVED_STATE_RESTORED, R136. -/
  | savedStateRestored (c : CoreId)
  /-- PARITY_FAULT, R439. -/
  | parityFault (c : CoreId)
  /-- RAKE_HARDWARE_FAULT, R443. -/
  | rakeHardwareFault (r : RakeId)
  /-- PERIOD_START, R208. -/
  | periodStart (c : CtxId)
  /-- IDE_KM, R329. -/
  | ideKm (stream : Nat)
  /-- PAYLOAD_COPIED, R175. -/
  | payloadCopied (t : TrayId) (seq : Nat)
  deriving DecidableEq, Repr

end Sys2Proof
end

