-- ==== Sys2Proof/WellFormed.lean ====
section
/-! DEFINITION. Which commands are well formed: the operand ranges that the interface itself imposes before the block
sees the command. A command outside them is no command of the table's row. -/

namespace Sys2Proof

/-- Bits [lo + len − 1 : lo] of a program word whose OP is not stored, by their place in the whole word. -/
def fieldOf (f : BitVec 120) (lo len : Nat) : Nat := (f.toNat >>> (lo - 8)) % 2 ^ len

/-- OP values that no row of the table names (Table 6-2, Table 5-8, R69, R99, R294, R254). -/
def opReserved (o : Nat) : Bool :=
  o == 0x00 || (0x05 ≤ o && o ≤ 0x0F) || (0x15 ≤ o && o ≤ 0x1F) || o == 0x20 || (0x24 ≤ o && o ≤ 0x2F)
    || o == 0x32 || o == 0x33 || o == 0x36 || o == 0x37 || (0x3D ≤ o && o ≤ 0x3F)
    || (0x4C ≤ o && o ≤ 0x4F) || (0x5B ≤ o && o ≤ 0x5F) || (0x6D ≤ o && o ≤ 0x6F) || (0x75 ≤ o && o ≤ 0x77)
    || (0x7B ≤ o)

/-- A message whose data words are whole 64 B words, whose length field agrees with them, and whose fields fit their
bits (Table 12-5). -/
def Msg.wf (m : Msg) : Bool :=
  m.words.length % 64 == 0 && (m.data == !m.words.isEmpty) && (!m.data || m.words.length == 64 * (m.len + 1))
    && m.len < 512 && m.tag < 4096 && m.dst < 65536 && m.src < 65536 && m.addr < 2 ^ 48 && m.arg < 2 ^ 64
    && m.ctx < 4096 && m.win < 16384 && m.slot < 16 && m.status < 65536

/-- A command header whose fields fit their bits (Table 14-2), with its parameter slots of 64 B. -/
def CmdHdr.wf (h : CmdHdr) (par : List Byte) : Bool :=
  h.nparam ≤ 15 && h.target < 4096 && h.cmdid < 2 ^ 32 && h.flags < 65536 && h.haddr < 2 ^ 64 && h.hlen < 2 ^ 32
    && par.length == 64 * h.nparam

/-- A packet entry whose fields fit their bits (Table 8-1). -/
def TrayEntry.wf (e : TrayEntry) : Bool :=
  e.tag < 2 ^ 32 && e.length < 256 && e.prio < 8 && e.fver < 4 && e.fmt < 32 && e.pseq < 2 ^ 32 && e.slot < 16
    && e.crc < 2 ^ 32

/-- The well-formed commands. -/
def Instr.wf : Instr → Bool
  | .nop _ w => w.toNat % 256 == 0x10 || opReserved (w.toNat % 256)
  | .amul _ f => fieldOf f 38 4 == 0 || fieldOf f 38 4 ≥ 8
  | .distSq _ f => fieldOf f 38 4 == 1
  | .distAbs _ f => fieldOf f 38 4 == 2
  | .distMax _ f => fieldOf f 38 4 == 3
  | .selMax _ f => fieldOf f 38 4 == 4
  | .selMin _ f => fieldOf f 38 4 == 5
  | .foldMax _ f => fieldOf f 38 4 == 6
  | .foldMin _ f => fieldOf f 38 4 == 7
  | .engineWordComplete _ u _ _ => u.val ≠ 0
  | .openPkt _ e node _ => e.wf && node < 65536
  | .commit _ slot pseq words _ _ => slot < 16 && pseq < 2 ^ 32 && words.length % 64 == 0
  | .openTimeout _ slot pseq => slot < 16 && pseq < 2 ^ 32
  | .readHoldExpiry _ seq | .unclaim _ seq | .retire _ seq | .payloadCopied _ seq => seq < 2 ^ 32
  | .creditUpdate _ slot => slot < 16
  | .rd _ m | .wr _ m | .atomic _ m | .signal _ m | .trayPut _ m | .update _ m | .credit _ m | .mgmt _ m
  | .rddata _ m | .wrack _ m | .atomresp _ m | .sigack _ m | .trayAck _ m | .updack _ m => m.wf
  | .rspTimeout _ x => x < 4096
  | .frameReceive _ kind fseq fack _ fixed _ => kind < 4 && fseq < 1024 && fack < 1024 && fixed ≤ 4
  | .replay _ fseq => fseq < 1024
  | .tag _ _ fseq _ => fseq < 1024
  | .linkCredit _ vc hdrs flits => vc < 4 && hdrs < 65536 && flits < 65536
  | .routeHoldRelease node => node < 65536
  | .cmdTail _ tail _ => tail < 2 ^ 32
  | .cmplHead _ head | .evrHead _ head => head < 2 ^ 32
  | .htrTail _ _ tail _ => tail < 65536
  | .hostMemWrite _ bytes _ => bytes.length ≤ 64
  | .sessionOpen _ h p | .sessionClose _ h p | .ctxCreate _ h p | .ctxDestroy _ h p | .ctxConfig _ h p
  | .stageLoad _ h p _ | .stageDrain _ h p | .trayConfig _ h p | .trayRelease _ h p | .trayFlush _ h p
  | .sweepRun _ h p | .sweepRunStop _ h p | .seqJoin _ h p | .seqLeave _ h p | .rakeProgram _ h p
  | .rakeGroup _ h p | .pegAlloc _ h p | .pegFree _ h p | .pegReset _ h p | .pegSignal _ h p | .pegWait _ h p
  | .pegDump _ h p | .windowOpen _ h p | .windowClose _ h p | .routeSet _ h p | .harvest _ h p
  | .restore _ h p _ | .powerSet _ h p | .selftest _ h p | .debugRead _ h p | .attest _ h p => h.wf p
  | .ringAnchor x => x.cmdBase < 2 ^ 64 && x.cmplBase < 2 ^ 64 && x.vector < 65536
  | .linkPolicy req allow _ _ => req < 256 && allow < 256
  | _ => true

end Sys2Proof
end

