-- ==== Sys2Proof/Decode.lean ====
section
/-! DEFINITION. The words that the table gives bits for (none), and the words of core programs: the 128-bit word of each program row
(R69, R99, R118, R254, R294, Table 5-8) and the row that a fetched word is. -/

namespace Sys2Proof

/-- Table words: no row of this hardware's table gives bits, so no table word spells a command. -/
def decodeTableWord (_nbits _w : Nat) : Option Instr := none

/-! ### Program words -/

/-- A program word from its OP in [7:0] and the bits above it. -/
def mkWord (op : BitVec 8) (f : BitVec 120) : W128 := f ++ op

/-- The bits above OP of an AMUL word with a comparison MODE in [41:38] (Table 3-4). -/
def modeBits (m : BitVec 4) (f : BitVec 120) : BitVec 120 := (f &&& ~~~ (0xF#120 <<< 30)) ||| (m.setWidth 120 <<< 30)

/-- OP of MRING and of MKICK by mover (R294). -/
def mringOp (m : Fin 2) : BitVec 8 := if m = 0 then 0x30 else 0x34
def mkickOp (m : Fin 2) : BitVec 8 := if m = 0 then 0x31 else 0x35

/-- The core and the word of a program row; none for the rows that are no program word. -/
def wordOf : Instr → Option (CoreId × W128)
  | .nop c w => some (c, w)
  | .endW c f => some (c, mkWord 0x14 f)
  | .gate c f => some (c, mkWord 0x11 f)
  | .loop c f => some (c, mkWord 0x12 f)
  | .seed c f => some (c, mkWord 0x13 f)
  | .astat c f => some (c, mkWord 0x01 f)
  | .amul c f => some (c, mkWord 0x02 f)
  | .distSq c f => some (c, mkWord 0x02 (modeBits 1 f))
  | .distAbs c f => some (c, mkWord 0x02 (modeBits 2 f))
  | .distMax c f => some (c, mkWord 0x02 (modeBits 3 f))
  | .selMax c f => some (c, mkWord 0x02 (modeBits 4 f))
  | .selMin c f => some (c, mkWord 0x02 (modeBits 5 f))
  | .foldMax c f => some (c, mkWord 0x02 (modeBits 6 f))
  | .foldMin c f => some (c, mkWord 0x02 (modeBits 7 f))
  | .adrain c f => some (c, mkWord 0x03 f)
  | .aload c f => some (c, mkWord 0x04 f)
  | .fres c f => some (c, mkWord 0x21 f)
  | .fmul c f => some (c, mkWord 0x22 f)
  | .fdrain c f => some (c, mkWord 0x23 f)
  | .vadd c f => some (c, mkWord 0x40 f)
  | .vsub c f => some (c, mkWord 0x41 f)
  | .vmul c f => some (c, mkWord 0x42 f)
  | .vfma c f => some (c, mkWord 0x43 f)
  | .vmin c f => some (c, mkWord 0x44 f)
  | .vmax c f => some (c, mkWord 0x45 f)
  | .vabs c f => some (c, mkWord 0x46 f)
  | .vneg c f => some (c, mkWord 0x47 f)
  | .vcmpeq c f => some (c, mkWord 0x48 f)
  | .vcmplt c f => some (c, mkWord 0x49 f)
  | .vcmple c f => some (c, mkWord 0x4A f)
  | .vsel c f => some (c, mkWord 0x4B f)
  | .viadd c f => some (c, mkWord 0x50 f)
  | .visub c f => some (c, mkWord 0x51 f)
  | .vimul c f => some (c, mkWord 0x52 f)
  | .vand c f => some (c, mkWord 0x53 f)
  | .vor c f => some (c, mkWord 0x54 f)
  | .vxor c f => some (c, mkWord 0x55 f)
  | .vshl c f => some (c, mkWord 0x56 f)
  | .vshr c f => some (c, mkWord 0x57 f)
  | .vsra c f => some (c, mkWord 0x58 f)
  | .vftoi c f => some (c, mkWord 0x59 f)
  | .vitof c f => some (c, mkWord 0x5A f)
  | .vdiv c f => some (c, mkWord 0x60 f)
  | .vsqrt c f => some (c, mkWord 0x61 f)
  | .vrcp c f => some (c, mkWord 0x62 f)
  | .vrsqrt c f => some (c, mkWord 0x63 f)
  | .vexp2 c f => some (c, mkWord 0x64 f)
  | .vlog2 c f => some (c, mkWord 0x65 f)
  | .vexp c f => some (c, mkWord 0x66 f)
  | .vlog c f => some (c, mkWord 0x67 f)
  | .vtanh c f => some (c, mkWord 0x68 f)
  | .vsigm c f => some (c, mkWord 0x69 f)
  | .vsin c f => some (c, mkWord 0x6A f)
  | .vcos c f => some (c, mkWord 0x6B f)
  | .verf c f => some (c, mkWord 0x6C f)
  | .vrsum c f => some (c, mkWord 0x70 f)
  | .vrmax c f => some (c, mkWord 0x71 f)
  | .vrmin c f => some (c, mkWord 0x72 f)
  | .vrargmax c f => some (c, mkWord 0x73 f)
  | .vrargmin c f => some (c, mkWord 0x74 f)
  | .vld c f => some (c, mkWord 0x78 f)
  | .vst c f => some (c, mkWord 0x79 f)
  | .vgather c f => some (c, mkWord 0x7A f)
  | .psig c f => some (c, mkWord 0x38 f)
  | .pwait c f => some (c, mkWord 0x39 f)
  | .parrive c f => some (c, mkWord 0x3A f)
  | .pbwait c f => some (c, mkWord 0x3B f)
  | .preset c f => some (c, mkWord 0x3C f)
  | .mring c m f => some (c, mkWord (mringOp m) f)
  | .mkick c m f => some (c, mkWord (mkickOp m) f)
  | _ => none

/-- The row of an AMUL word by its MODE (Table 4-1). -/
def amulRow (c : CoreId) (f : BitVec 120) : Instr :=
  match (f.extractLsb' 30 4).toNat with
  | 1 => .distSq c f
  | 2 => .distAbs c f
  | 3 => .distMax c f
  | 4 => .selMax c f
  | 5 => .selMin c f
  | 6 => .foldMax c f
  | 7 => .foldMin c f
  | _ => .amul c f

/-- The row that a word fetched by a core is; NOP stands for the reserved OP values too (log 11). -/
def instrOfWord (c : CoreId) (w : W128) : Instr :=
  let f := w.extractLsb' 8 120
  match (w.extractLsb' 0 8).toNat with
  | 0x02 => amulRow c f
  | 0x01 => .astat c f
  | 0x03 => .adrain c f
  | 0x04 => .aload c f
  | 0x11 => .gate c f
  | 0x12 => .loop c f
  | 0x13 => .seed c f
  | 0x14 => .endW c f
  | 0x21 => .fres c f
  | 0x22 => .fmul c f
  | 0x23 => .fdrain c f
  | 0x38 => .psig c f
  | 0x39 => .pwait c f
  | 0x3A => .parrive c f
  | 0x3B => .pbwait c f
  | 0x3C => .preset c f
  | 0x40 => .vadd c f
  | 0x41 => .vsub c f
  | 0x42 => .vmul c f
  | 0x43 => .vfma c f
  | 0x44 => .vmin c f
  | 0x45 => .vmax c f
  | 0x46 => .vabs c f
  | 0x47 => .vneg c f
  | 0x48 => .vcmpeq c f
  | 0x49 => .vcmplt c f
  | 0x4A => .vcmple c f
  | 0x4B => .vsel c f
  | 0x50 => .viadd c f
  | 0x51 => .visub c f
  | 0x52 => .vimul c f
  | 0x53 => .vand c f
  | 0x54 => .vor c f
  | 0x55 => .vxor c f
  | 0x56 => .vshl c f
  | 0x57 => .vshr c f
  | 0x58 => .vsra c f
  | 0x59 => .vftoi c f
  | 0x5A => .vitof c f
  | 0x60 => .vdiv c f
  | 0x61 => .vsqrt c f
  | 0x62 => .vrcp c f
  | 0x63 => .vrsqrt c f
  | 0x64 => .vexp2 c f
  | 0x65 => .vlog2 c f
  | 0x66 => .vexp c f
  | 0x67 => .vlog c f
  | 0x68 => .vtanh c f
  | 0x69 => .vsigm c f
  | 0x6A => .vsin c f
  | 0x6B => .vcos c f
  | 0x6C => .verf c f
  | 0x70 => .vrsum c f
  | 0x71 => .vrmax c f
  | 0x72 => .vrmin c f
  | 0x73 => .vrargmax c f
  | 0x74 => .vrargmin c f
  | 0x78 => .vld c f
  | 0x79 => .vst c f
  | 0x7A => .vgather c f
  | 0x30 => .mring c 0 f
  | 0x31 => .mkick c 0 f
  | 0x34 => .mring c 1 f
  | 0x35 => .mkick c 1 f
  | _ => .nop c w

end Sys2Proof
end

