-- ==== Sys2Proof/Machine/Table.lean ====
section
/-! DEFINITION. Sparse tables (ascending keys, no entry at the default) and the byte and bit-field helpers that every
later file of the machine uses. -/

namespace Sys2Proof.Machine

/-- The entry of key `k`, or the default `d` where the table lists none. -/
def tget {α : Type} (d : α) : Tab α → Nat → α
  | [], _ => d
  | (k', v) :: t, k => if k' = k then v else tget d t k

/-- The table with no entry for key `k`. -/
def terase {α : Type} : Tab α → Nat → Tab α
  | [], _ => []
  | (k', v) :: t, k => if k' = k then t else (k', v) :: terase t k

/-- The table with `v` for key `k`, keeping the keys ascending. -/
def tset {α : Type} : Tab α → Nat → α → Tab α
  | [], k, v => [(k, v)]
  | (k', v') :: t, k, v =>
    if k < k' then (k, v) :: (k', v') :: t else if k' = k then (k, v) :: t else (k', v') :: tset t k v

/-- The table with `v` for key `k`, where writing the default removes the entry. -/
def tput {α : Type} [DecidableEq α] (d : α) (t : Tab α) (k : Nat) (v : α) : Tab α :=
  if v = d then terase t k else tset t k v

/-- The table with key `k`'s entry changed by `f`. -/
def tmod {α : Type} [DecidableEq α] (d : α) (t : Tab α) (k : Nat) (f : α → α) : Tab α := tput d t k (f (tget d t k))

/-- Keys strictly rising. -/
def tabSorted {α : Type} : Tab α → Bool
  | [] => true
  | [_] => true
  | (k, _) :: (k', v') :: t => decide (k < k') && tabSorted ((k', v') :: t)

/-- The canonical form of a table whose default is `d`. -/
def tabWf {α : Type} [DecidableEq α] (d : α) (t : Tab α) : Bool := tabSorted t && t.all (fun e => decide (e.2 ≠ d))

/-- Insert into an ascending list of distinct numbers. -/
def ninsert : List Nat → Nat → List Nat
  | [], k => [k]
  | a :: t, k => if k < a then k :: a :: t else if a = k then a :: t else a :: ninsert t k

/-- The numbers `start`, `start + 1`, … of which there are `n`. -/
def countFrom (start n : Nat) : List Nat := (List.range n).map (start + ·)

/-- Little-endian value of a byte string (R34, R118). -/
def leNat : List Byte → Nat
  | [] => 0
  | b :: t => b.toNat + 256 * leNat t

/-- The `n` little-endian bytes of a number. -/
def leBytes : Nat → Nat → List Byte
  | 0, _ => []
  | n + 1, x => BitVec.ofNat 8 x :: leBytes n (x / 256)

/-- `n` copies of a byte. -/
def fillBytes (n : Nat) (b : Byte) : List Byte := List.replicate n b

/-- Bits [lo + len − 1 : lo] of a number. -/
def bitsAt (x lo len : Nat) : Nat := (x >>> lo) % 2 ^ len

/-- `b` as a number. -/
def b2n (b : Bool) : Nat := if b then 1 else 0

/-- Round up to a multiple of `m`. -/
def roundUp (x m : Nat) : Nat := (x + m - 1) / m * m

/-- Quotient rounded up. -/
def ceilDiv (x m : Nat) : Nat := (x + m - 1) / m

/-- A counter that stops at `top`. -/
def satAdd (top a b : Nat) : Nat := min top (a + b)

/-- A two's complement reading of the low `w` bits. -/
def toSigned (w x : Nat) : Int := if x % 2 ^ w < 2 ^ (w - 1) then (x % 2 ^ w : Nat) else (x % 2 ^ w : Nat) - (2 ^ w : Nat)

/-- The `w`-bit two's complement encoding of an integer. -/
def ofSigned (w : Nat) (i : Int) : Nat := (i % (2 ^ w : Nat)).toNat

/-- Replace bits [lo + len − 1 : lo]. -/
def setBits (x lo len v : Nat) : Nat := x - bitsAt x lo len * 2 ^ lo + (v % 2 ^ len) * 2 ^ lo

/-- The pieces of a list, `n` elements each (the last may be shorter); `fuel` bounds the pieces. -/
def chunks {α : Type} (n : Nat) : Nat → List α → List (List α)
  | 0, _ => []
  | fuel + 1, l => match l with
    | [] => []
    | _ => l.take n :: chunks n fuel (l.drop n)

/-- Split a span of bytes at every multiple of `unit`, beginning at byte `at0` of the span's own counting. -/
def splitSpan (unit : Nat) : Nat → Nat → Nat → List (Nat × Nat)
  | 0, _, _ => []
  | fuel + 1, start, len =>
    if len = 0 then [] else
      let n := min len (unit - start % unit)
      (start, n) :: splitSpan unit fuel (start + n) (len - n)

/-- Update the first element that satisfies `p`. -/
def modFirst {α : Type} (p : α → Bool) (f : α → α) : List α → List α
  | [] => []
  | a :: t => if p a then f a :: t else a :: modFirst p f t

/-- Remove the first element that satisfies `p`. -/
def delFirst {α : Type} (p : α → Bool) : List α → List α
  | [] => []
  | a :: t => if p a then t else a :: delFirst p t

/-- Update position `i` of a list. -/
def modAt {α : Type} : List α → Nat → (α → α) → List α
  | [], _, _ => []
  | a :: t, 0, f => f a :: t
  | a :: t, i + 1, f => a :: modAt t i f

end Sys2Proof.Machine
end

