-- ==== Sys2Proof/Machine/Records.lean ====
section
/-! DEFINITION. The signed records of the board's flash (R411 to R414, R417, R450, R451, R455, R456, R489): the die they are for, which
of them count, and the configuration in force. -/

namespace Sys2Proof

/-- R450: bit i of the die ID is the majority over group i of cells, each the majority of its nine reads. -/
def dieIdOf : List (List Nat) → Nat
  | [] => 0
  | g :: l => (if g.length < 2 * (g.filter fun k => 5 ≤ k).length then 1 else 0) + 2 * dieIdOf l

/-- The die ID that a start derives. -/
def StartInputs.dieId (i : StartInputs) : Nat := dieIdOf (i.pufId.take 128)

end Sys2Proof

namespace Sys2Proof.Machine

/-- R411, R455, R456: a signed record of a kind that counts as present on a die. -/
def recOk (r : SignedRec) (kind die floor : Nat) : Bool :=
  r.present && r.magicOk && r.sigOk && r.kind == kind && r.tableOk && decide (r.keyIndex ≤ r.certs) && r.kinds.testBit kind && r.stepping == 0x00B1
    && (r.dieId == 0 || r.dieId == die) && decide (max floor r.floor ≤ r.version)

/-- R412: the slot and the image that the ROM chooses. -/
def chooseImage (i : StartInputs) : Option (Nat × SignedRec) :=
  let ok (r : SignedRec) : Bool := recOk r 1 i.dieId 0x01000000
  if ok i.slot0 && (!ok i.slot1 || decide (i.slot1.version ≤ i.slot0.version)) then some (0, i.slot0)
  else if ok i.slot1 then some (1, i.slot1) else none

/-- R489: the rail codes of a configuration record, in mV/5. -/
def railsOk (r : Nat) : Bool :=
  let mv (k : Nat) : Nat := bitsAt r (8 * k) 8 * 5
  decide (1010 ≤ mv 0) && decide (mv 0 ≤ 1120) && decide (870 ≤ mv 1) && decide (mv 1 ≤ 970) && decide (470 ≤ mv 2) && decide (mv 2 ≤ 570)

/-- R413, R489: the configuration record in force, absent when it does not qualify. -/
def configOf (i : StartInputs) : Option BoardCfg :=
  if recOk i.cfgRec 2 i.dieId 0 && railsOk i.cfg.rails && decide (i.cfg.s256 ≤ 2048) then some i.cfg else none

/-- Table 17-4: the defaults. -/
def config (i : StartInputs) : BoardCfg := (configOf i).getD { rails := 210 + 180 * 2 ^ 8 + 100 * 2 ^ 16 }

/-- R414: the repair record of the die. -/
def repairOk (i : StartInputs) : Bool := recOk i.repairRec 3 i.dieId 0

/-- R412: the image's journal layout version, and R417: S in bytes. -/
def sBytes (i : StartInputs) : Nat := (config i).s256 * 0x10000000

end Sys2Proof.Machine
end

