-- ==== Sys2Proof/Config.lean ====
section
/-! DEFINITION. What the spec leaves open and the model leaves open with it: every constant here is OPAQUE, so no
proof can depend on its value. -/

namespace Sys2Proof.Config

/-- UNVERIFIED, log 3. Which of the values within the error bound of R104 and R105 an operation gives, by its code in Table 5-8 and its
operand: the manual fixes the bound and leaves the exact function open. -/
opaque ulpPick (op : Nat) (x : BitVec 32) : Nat

/-- UNVERIFIED, log 4. A free 64-bit value, one for each reading of the state's counter `freeCtr`. -/
opaque freeValue : Nat → BitVec 64

/-- UNVERIFIED, log 4. A free byte string of the given length (a signature, a key exchange value, a certificate that
the manual names without giving a way to compute it). -/
opaque freeBytes (n : Nat) (len : Nat) : List (BitVec 8)

/-- UNVERIFIED, log 4. SHAKE256 of the mask ROM (measurement 1 of Table 19-5). -/
opaque romDigest : List (BitVec 8)

/-- UNVERIFIED, log 4. The attestation public key that FIPS 205 generates from the attestation key (R452). -/
opaque publicKey (key : List (BitVec 8)) : List (BitVec 8)

/-- UNVERIFIED, log 4. The 96-bit tag of an encrypted group by its counter (R464, the key is secret). -/
opaque gcmTag (group : Nat) : List (BitVec 8)

/-- UNVERIFIED, log 5. A byte of memory whose content the manual leaves open, by a reading of `freeCtr` and an address:
host-managed device memory after a cold start (R327) and what a destructive self-test leaves (Table 20-3). -/
opaque openByte (n addr : Nat) : BitVec 8

/-- UNVERIFIED, log 8. The bytes of the telemetry packets whose content the manual names and whose layout it does not
give: 1 a PSETTLE copy (R433), 2 a skipped row (R198), 3 a deferred join (R200), 4 a ring halt (R300). -/
opaque telemetry (kind : Nat) (fields : List Nat) : List (BitVec 8)

/-- UNVERIFIED, log 14. The bytes over which the plan digest is taken (R391 names the fields and no widths): G, NSHARD and
the KIND, ADDR, LENGTH and OFFSET of each shard. -/
opaque planBytes (fields : List Nat) : List (BitVec 8)

/-- UNVERIFIED, log 4. The ROM's preset table for CXL lanes 0 to 15 (R413, R420). -/
opaque romPresets : List Nat

/-- UNVERIFIED, log 4. Ialuward's assigned PCIe Vendor ID (R312), which the manual names without its value. -/
opaque vendorId : BitVec 16

end Sys2Proof.Config
end

