-- ==== Sys2Proof/Machine/Num.lean ====
section
/-! DEFINITION. Exact arithmetic over decoded values and the rounding of R40 to R49: decode (R32, R33), exact product
and sum (R40, R41), rounding to a float grid in each rounding mode, IEEE 754 order (R82), division and root. -/

namespace Sys2Proof.Machine

/-! ### Exception flags of R51, in the bit positions of FMT_FLAGS -/

def fINVALID : BitVec 7 := 0x01
def fNANIN : BitVec 7 := 0x02
def fOVERFLOW : BitVec 7 := 0x04
def fCONVSAT : BitVec 7 := 0x08
def fCONVNAN : BitVec 7 := 0x10
def fINTSAT : BitVec 7 := 0x20
def fUNDERFLOW : BitVec 7 := 0x40

/-- The parameters of one floating-point layout (R32, Table 2-2): `kind` 0 has no infinity or NaN, 1 has both as IEEE
754 does, 2 is FP8 E4M3 with NaN alone. -/
structure FParam where
  eb : Nat
  mb : Nat
  bias : Nat
  kind : Nat
  deriving DecidableEq, Repr

def pFP32 : FParam := ⟨8, 23, 127, 1⟩
def pBF16 : FParam := ⟨8, 7, 127, 1⟩
def pFP16 : FParam := ⟨5, 10, 15, 1⟩
def pE5M2 : FParam := ⟨5, 2, 15, 1⟩
def pE4M3 : FParam := ⟨4, 3, 7, 2⟩
def pE3M2 : FParam := ⟨3, 2, 3, 0⟩
def pE2M3 : FParam := ⟨2, 3, 1, 0⟩
def pE2M1 : FParam := ⟨2, 1, 1, 0⟩

/-- R32, R33: the value of a bit pattern. -/
def decFloat (p : FParam) (x : Nat) : FVal :=
  let s := (bitsAt x (p.eb + p.mb) 1) == 1
  let e := bitsAt x p.mb p.eb
  let m := bitsAt x 0 p.mb
  if p.kind = 1 ∧ e = 2 ^ p.eb - 1 then (if m = 0 then .inf s else .nan)
  else if p.kind = 2 ∧ e = 2 ^ p.eb - 1 ∧ m = 2 ^ p.mb - 1 then .nan
  else if e = 0 then .fin s m (1 - (p.bias : Int) - p.mb)
  else .fin s (2 ^ p.mb + m) ((e : Int) - p.bias - p.mb)

/-- The magnitude bits of the largest finite value. -/
def maxFinite (p : FParam) : Nat :=
  if p.kind = 1 then (2 ^ p.eb - 1) * 2 ^ p.mb - 1
  else if p.kind = 2 then 2 ^ (p.eb + p.mb) - 2
  else 2 ^ (p.eb + p.mb) - 1

/-- The sign bit of a pattern. -/
def signBit (p : FParam) (s : Bool) : Nat := if s then 2 ^ (p.eb + p.mb) else 0

/-- The canonical NaN of R33. -/
def canonNaN (p : FParam) : Nat := if p.kind = 2 then 2 ^ (p.eb + p.mb) - 1 else (2 ^ p.eb - 1) * 2 ^ p.mb + 2 ^ (p.mb - 1)

/-- The pattern of an infinity. -/
def infBits (p : FParam) (s : Bool) : Nat := signBit p s + (2 ^ p.eb - 1) * 2 ^ p.mb

/-- How a conversion rounds (R44): to nearest with ties to even, toward zero, or stochastically with the 16-bit random
number of R50. -/
inductive RMode
  | rne
  | rtz
  | stoch (r : Nat)
  deriving DecidableEq, Repr

/-- m × 2^e as an integer multiple of 2^q, rounded (R46, R49). -/
def roundQ (mode : RMode) (m : Nat) (e q : Int) : Nat :=
  if q ≤ e then m <<< (e - q).toNat
  else
    let sh := (q - e).toNat
    let k := m >>> sh
    let rem := m - k <<< sh
    match mode with
    | .rtz => k
    | .rne =>
      if 2 * rem > 1 <<< sh then k + 1
      else if 2 * rem = 1 <<< sh then k + k % 2
      else k
    | .stoch r => if (rem <<< 16) >>> sh + r ≥ 0x10000 then k + 1 else k

/-- floor(log2 (m × 2^e)) of a non-zero magnitude. -/
def flog2 (m : Nat) (e : Int) : Int := (Nat.log2 m : Int) + e

/-- The magnitude bits of m × 2^e rounded on the layout's grid, subnormals included (R46); above `maxFinite` it has
overflowed. -/
def roundMag (p : FParam) (mode : RMode) (m : Nat) (e : Int) : Nat :=
  if m = 0 then 0 else
    let emin : Int := 1 - (p.bias : Int) - p.mb
    let q := max (flog2 m e - p.mb) emin
    let k := roundQ mode m e q
    (q - emin).toNat * 2 ^ p.mb + k

/-- Round an exact value to FP32, to nearest with ties to even (R40); the Bool says that a finite value overflowed. -/
def toF32 (v : FVal) : W32 × Bool :=
  match v with
  | .nan => (BitVec.ofNat 32 (canonNaN pFP32), false)
  | .inf s => (BitVec.ofNat 32 (infBits pFP32 s), false)
  | .fin s m e =>
    let b := roundMag pFP32 .rne m e
    if b > maxFinite pFP32 then (BitVec.ofNat 32 (infBits pFP32 s), true)
    else (BitVec.ofNat 32 (signBit pFP32 s + b), false)

/-- The value of an FP32 pattern. -/
def ofF32 (w : W32) : FVal := decFloat pFP32 w.toNat

/-- The canonical FP32 NaN. -/
def nan32 : W32 := 0x7FC00000#32

/-- The value of an integer. -/
def ofInt (i : Int) : FVal := .fin (decide (i < 0)) i.natAbs 0

def fvNan : FVal → Bool
  | .nan => true
  | _ => false

def fvInf : FVal → Bool
  | .inf _ => true
  | _ => false

/-- A finite zero of either sign. -/
def fvZero : FVal → Bool
  | .fin _ m _ => m == 0
  | _ => false

def fvNeg : FVal → FVal
  | .nan => .nan
  | .inf s => .inf (!s)
  | .fin s m e => .fin (!s) m e

def fvAbs : FVal → FVal
  | .nan => .nan
  | .inf _ => .inf false
  | .fin _ m e => .fin false m e

/-- The value times 2^k (R38). -/
def fvScale (v : FVal) (k : Int) : FVal :=
  match v with
  | .fin s m e => .fin s m (e + k)
  | v => v

/-- Signed mantissa at exponent `q`, which is no higher than the value's own. -/
def signedAt (q : Int) : FVal → Int
  | .fin s m e => let k : Nat := m <<< (e - q).toNat; if s then -(k : Int) else k
  | _ => 0

/-- The exact product (R40, R41), with INVALID for infinity times zero and NAN_IN for a NaN operand. -/
def mulF (a b : FVal) : FVal × BitVec 7 :=
  match a, b with
  | .nan, _ => (.nan, fNANIN)
  | _, .nan => (.nan, fNANIN)
  | .inf s, .inf t => (.inf (s ^^ t), 0)
  | .inf s, .fin t m _ => if m = 0 then (.nan, fINVALID) else (.inf (s ^^ t), 0)
  | .fin t m _, .inf s => if m = 0 then (.nan, fINVALID) else (.inf (s ^^ t), 0)
  | .fin s m e, .fin t n f => (.fin (s ^^ t) (m * n) (e + f), 0)

/-- The exponent of a finite value. -/
def expOf : FVal → Option Int
  | .fin _ m e => if m = 0 then none else some e
  | _ => none

/-- The lowest exponent among non-zero values. -/
def minExp : List FVal → Option Int
  | [] => none
  | v :: t => match expOf v, minExp t with
    | none, r => r
    | some e, none => some e
    | some e, some f => some (min e f)

/-- The sign of a value. -/
def fvSign : FVal → Bool
  | .fin s _ _ => s
  | .inf s => s
  | .nan => false

/-- The exact sum of R40 and R41: NaN where a term is NaN or the terms hold both infinities (INVALID), an infinity
where one does, and −0 only where every term is −0. -/
def sumF (l : List FVal) : FVal × BitVec 7 :=
  if l.any fvNan then (.nan, 0)
  else if l.any (fun v => v == .inf false) then
    (if l.any (fun v => v == .inf true) then (.nan, fINVALID) else (.inf false, 0))
  else if l.any (fun v => v == .inf true) then (.inf true, 0)
  else
    match minExp l with
    | none => (.fin (!l.isEmpty && l.all fvSign) 0 0, 0)
    | some q =>
      let t := l.foldl (fun acc v => acc + signedAt q v) 0
      (.fin (decide (t < 0)) t.natAbs q, 0)

/-- The exact sum of two values, with NAN_IN for a NaN operand. -/
def addF (a b : FVal) : FVal × BitVec 7 :=
  if fvNan a || fvNan b then (.nan, fNANIN) else sumF [a, b]

/-- The number `a` as an integer that has the same order as the FP32 value (R82): −0 just below +0. NaN is not
ordered here. -/
def cmpKey (a : FVal) (b : FVal) : Int :=
  match a, b with
  | .nan, _ => 0
  | _, .nan => 0
  | .inf s, .inf t => if s == t then 0 else if s then -1 else 1
  | .inf s, .fin .. => if s then -1 else 1
  | .fin .., .inf t => if t then 1 else -1
  | .fin s m e, .fin t n f =>
    let q := min e f
    let d := signedAt q (.fin s m e) - signedAt q (.fin t n f)
    if d < 0 then -1 else if d > 0 then 1
    else if m = 0 ∧ n = 0 then (if s == t then 0 else if s then -1 else 1) else 0

/-- R82: `a` is above `b` in the total order. -/
def gtF (a b : FVal) : Bool := decide (0 < cmpKey a b)

/-- The value equality of IEEE 754, where −0 = +0. -/
def eqF (a b : FVal) : Bool :=
  match a, b with
  | .nan, _ => false
  | _, .nan => false
  | a, b => decide (cmpKey a b = 0) || (fvZero a && fvZero b)

/-- The quotient of two finite values, second non-zero, as a value that rounds as the exact quotient does (guard bits
and a sticky bit below them). -/
def divFin (s : Bool) (m : Nat) (e : Int) (n : Nat) (f : Int) : FVal :=
  let k := Nat.log2 n + 64
  let num := m <<< k
  let q := num / n
  let sticky := if num % n = 0 then 0 else 1
  .fin s (2 * q + sticky) (e - f - k - 1)

/-- Integer square root by bits: the result so far, its remainder test by squaring. -/
def isqrtBits (x : Nat) : Nat → Nat → Nat
  | 0, r => r
  | b + 1, r => let r' := r + 2 ^ b; if r' * r' ≤ x then isqrtBits x b r' else isqrtBits x b r

/-- floor(sqrt x). -/
def isqrt (x : Nat) : Nat := isqrtBits x (Nat.log2 x / 2 + 1) 0

/-- The root of m × 2^e as a value that rounds as the exact root does. -/
def sqrtFin (m : Nat) (e : Int) : FVal :=
  if m = 0 then .fin false 0 0 else
    let m1 := if e % 2 = 0 then m else 2 * m
    let e1 : Int := if e % 2 = 0 then e else e - 1
    let big := m1 <<< 128
    let r := isqrt big
    let sticky := if r * r = big then 0 else 1
    .fin false (2 * r + sticky) (e1 / 2 - 64 - 1)

/-- R105 division: 0/0 and ∞/∞ are invalid, a finite non-zero value over zero overflows to an infinity. -/
def divF (a b : FVal) : FVal × BitVec 7 :=
  match a, b with
  | .nan, _ => (.nan, fNANIN)
  | _, .nan => (.nan, fNANIN)
  | .inf _, .inf _ => (.nan, fINVALID)
  | .inf s, .fin t _ _ => (.inf (s ^^ t), 0)
  | .fin s _ _, .inf t => (.fin (s ^^ t) 0 0, 0)
  | .fin s m e, .fin t n f =>
    if n = 0 then (if m = 0 then (.nan, fINVALID) else (.inf (s ^^ t), fOVERFLOW))
    else if m = 0 then (.fin (s ^^ t) 0 0, 0)
    else (divFin (s ^^ t) m e n f, 0)

/-- R105 root: a negative non-zero value is invalid and the root of −0 is −0. -/
def sqrtF (a : FVal) : FVal × BitVec 7 :=
  match a with
  | .nan => (.nan, fNANIN)
  | .inf true => (.nan, fINVALID)
  | .inf false => (.inf false, 0)
  | .fin s m e => if m = 0 then (.fin s 0 0, 0) else if s then (.nan, fINVALID) else (sqrtFin m e, 0)

/-- A result rounded to FP32 with the OVERFLOW flag of Table 2-8. -/
def roundRes (r : FVal × BitVec 7) : W32 × BitVec 7 :=
  let (w, o) := toF32 r.1
  (w, if o then r.2 ||| fOVERFLOW else r.2)

/-- The pattern next to an FP32 pattern, one unit further from (`up`) or closer to zero. -/
def ulpStep (w : W32) (up : Bool) : W32 := if up then w + 1 else w - 1

/-- Whether `v` lies within one unit in the last place `u` of the exact value whose product with `x` (or whose square
times `x`) is 1. -/
def within1 (root : Bool) (x v u : FVal) : Bool :=
  let side (d : FVal) : FVal := let s := (sumF [v, d]).1; (mulF (if root then (mulF s s).1 else s) x).1
  let one : FVal := .fin false 1 0
  let lo := side (fvNeg u)
  let hi := side u
  let loNeg := fvSign (sumF [v, fvNeg u]).1 && root
  (loNeg || !(gtF (fvAbs lo) one)) && !(gtF one (fvAbs hi))

/-- The FP32 values within 1 ulp of the exact reciprocal (or reciprocal root) of `x`, for a positive `x` (R104). -/
def near1 (root : Bool) (x : FVal) (w : W32) : List W32 :=
  let uExp : Int := max ((w.toNat / 2 ^ 23 : Nat) : Int) 1 - 150
  let u : FVal := .fin false 1 uExp
  [w, ulpStep w true, ulpStep w false].filter (fun c => c == w || (c.toNat < 0x7F800000 && within1 root x (ofF32 c) u))

/-- R50: the 16-bit random number for the element at linear index `n`. -/
def rand16 (seed : W64) (n : Nat) : Nat :=
  let z0 : W64 := seed + BitVec.ofNat 64 (n + 1) * 0x9E3779B97F4A7C15#64
  let z1 := (z0 ^^^ (z0 >>> 30)) * 0xBF58476D1CE4E5B9#64
  let z2 := (z1 ^^^ (z1 >>> 27)) * 0x94D049BB133111EB#64
  let z3 := z2 ^^^ (z2 >>> 31)
  (z3 >>> 48).toNat

end Sys2Proof.Machine
end

