-- ==== Sys2Proof/Machine/Operands.lean ====
section
/-! DEFINITION. The operand forms: format descriptors and packed elements (R31 to R38), tile geometry (Table 3-1), the
fields of the program words (Tables 3-3 to 3-6, 5-2 to 5-4, 5-7, 6-3 to 6-5, and the mover and peg words), and the rows
each word touches. -/

namespace Sys2Proof.Machine

/-! ### Format descriptors -/

/-- The pairing classes of Table 2-1. -/
inductive PClass
  | f8 | f4 | i8 | f16 | f32
  deriving DecidableEq, Repr

/-- Table 2-3: the CODE field. -/
def fdCode (d : Nat) : Nat := bitsAt d 0 4
/-- Table 2-3: the SCALED field. -/
def fdScaled (d : Nat) : Bool := bitsAt d 4 1 == 1

/-- R35: a descriptor whose code is listed and whose SCALED bit the code allows. -/
def fdValid (d : Nat) : Bool :=
  let c := fdCode d
  let s := fdScaled d
  if c ≤ 2 || c == 8 then !s
  else if c == 3 || c == 4 then true
  else if c == 5 || c == 6 || c == 7 || c == 9 then s
  else false

/-- Table 2-1: the pairing class of a code. -/
def classOf (c : Nat) : PClass :=
  if c = 0 then .f32 else if c = 1 ∨ c = 2 then .f16 else if c = 8 then .i8 else if c = 7 ∨ c = 9 then .f4 else .f8

/-- Table 2-1: bits of one element. -/
def elemBits (c : Nat) : Nat :=
  if c = 0 then 32 else if c = 1 ∨ c = 2 then 16 else if c = 5 ∨ c = 6 then 6 else if c = 7 ∨ c = 9 then 4 else 8

/-- Table 3-1: the depth of a class. -/
def depthOf : PClass → Nat
  | .f8 => 128
  | .f4 => 256
  | .i8 => 128
  | .f16 => 64
  | .f32 => 32

/-- Table 2-2: the layout of a floating-point code. -/
def paramOf (c : Nat) : FParam :=
  if c = 0 then pFP32 else if c = 1 then pBF16 else if c = 2 then pFP16 else if c = 3 then pE5M2
  else if c = 4 then pE4M3 else if c = 5 then pE3M2 else if c = 6 then pE2M3 else pE2M1

/-- Table 2-2: emax of an element format. -/
def emaxOf (c : Nat) : Int := if c = 3 then 15 else if c = 4 then 8 else if c = 5 then 4 else 2

/-- R36: scale bytes of one block of 32 elements. -/
def scaleBytesPerBlock (d : Nat) : Nat := if !fdScaled d then 0 else if fdCode d = 9 then 2 else 1

/-- Bytes of `n` elements. -/
def planeBytes (c n : Nat) : Nat := n * elemBits c / 8

/-- Table 3-1: the element bytes of one vector of the descriptor's depth. -/
def vecElemBytes (d : Nat) : Nat := planeBytes (fdCode d) (depthOf (classOf (fdCode d)))
/-- Table 3-1: the scale bytes of one vector. -/
def vecScaleBytes (d : Nat) : Nat := depthOf (classOf (fdCode d)) / 32 * scaleBytesPerBlock d

/-- The element plane's rows of a tile of `t` tokens. -/
def tileRows (d t : Nat) : Nat := ceilDiv (t * vecElemBytes d) 512
/-- The scale plane's rows of a tile of `t` tokens. -/
def tileScaleRows (d t : Nat) : Nat := ceilDiv (t * vecScaleBytes d) 512

/-- R39: a stationary and a weight descriptor of one pairing class. -/
def pairOk (a b : Nat) : Bool := decide (classOf (fdCode a) = classOf (fdCode b))

/-! ### Packed elements -/

def unpack16 : List Byte → List Nat
  | a :: b :: t => (a.toNat + 256 * b.toNat) :: unpack16 t
  | _ => []

def unpack32 : List Byte → List Nat
  | a :: b :: c :: d :: t => (a.toNat + 256 * b.toNat + 65536 * c.toNat + 16777216 * d.toNat) :: unpack32 t
  | _ => []

def unpack4 : List Byte → List Nat
  | [] => []
  | a :: t => (a.toNat % 16) :: (a.toNat / 16) :: unpack4 t

def unpack6 : List Byte → List Nat
  | a :: b :: c :: t =>
    let x := a.toNat + 256 * b.toNat + 65536 * c.toNat
    bitsAt x 0 6 :: bitsAt x 6 6 :: bitsAt x 12 6 :: bitsAt x 18 6 :: unpack6 t
  | _ => []

/-- R34: the element patterns of a plane. -/
def unpack (c : Nat) (l : List Byte) : List Nat :=
  match elemBits c with
  | 32 => unpack32 l
  | 16 => unpack16 l
  | 6 => unpack6 l
  | 4 => unpack4 l
  | _ => l.map (·.toNat)

def pack4 : List Nat → List Byte
  | a :: b :: t => BitVec.ofNat 8 (a % 16 + 16 * b) :: pack4 t
  | [a] => [BitVec.ofNat 8 (a % 16)]
  | [] => []

def pack6 : List Nat → List Byte
  | a :: b :: c :: d :: t => leBytes 3 (a + 64 * b + 4096 * c + 262144 * d) ++ pack6 t
  | _ => []

/-- R34: the bytes of element patterns. -/
def pack (c : Nat) (l : List Nat) : List Byte :=
  match elemBits c with
  | 32 => l.flatMap (leBytes 4)
  | 16 => l.flatMap (leBytes 2)
  | 6 => pack6 l
  | 4 => pack4 l
  | _ => l.map (BitVec.ofNat 8)

/-- R32: the value of one element pattern, before any block scale. -/
def decElem (c x : Nat) : FVal := if c = 8 then ofInt (toSigned 8 x) else decFloat (paramOf c) x

/-- R37, R38: the exponent that element `i` of a plane takes from its scale plane; `none` for the scale 0xFF. -/
def scaleExp (d : Nat) (scales : List Byte) (i : Nat) : Option Int :=
  if !fdScaled d then some 0
  else
    let blk := i / 32
    let step := scaleBytesPerBlock d
    let s := (scales.getD (blk * step) 0).toNat
    let t := if fdCode d = 9 then bitsAt (scales.getD (blk * step + 1) 0).toNat (2 * (i % 32 / 8)) 2 else 0
    if s = 0xFF then none else some ((s : Int) - 127 - t)

/-- The decoded value of one element (R38); an element of a block whose scale is 0xFF is NaN (R37). -/
def decScaled (d : Nat) (scales : List Byte) (i x : Nat) : FVal :=
  match scaleExp d scales i with
  | none => .nan
  | some k => fvScale (decElem (fdCode d) x) k

/-- The decoded values of consecutive elements, the first of which has index `i` for the scales. -/
def decPlane (d : Nat) (scales : List Byte) : Nat → List Nat → List FVal
  | _, [] => []
  | i, x :: t => decScaled d scales i x :: decPlane d scales (i + 1) t

/-- One vector as it lies in multicast order: its element bytes and then its scale bytes (R59, R157). -/
def decVec (d : Nat) (bytes : List Byte) : List FVal :=
  let ve := vecElemBytes d
  decPlane d (bytes.drop ve) 0 (unpack (fdCode d) (bytes.take ve))

/-! ### Fields of program words -/

/-- Bits [7:0] of a program word (R118). -/
def wOp (w : W128) : Nat := bitsAt w.toNat 0 8
/-- A field of a program word. -/
def wf (w : W128) (lo len : Nat) : Nat := bitsAt w.toNat lo len
/-- A program word with one field replaced. -/
def wset (w : W128) (lo len v : Nat) : W128 := BitVec.ofNat 128 (setBits w.toNat lo len v)

/-- A seed operand selector (Table 3-5, Table 5-4, Table 5-7), for the words that carry one. -/
def seedSel (w : W128) : Option Nat :=
  if wOp w = 0x03 ∨ wOp w = 0x23 then some (wf w 80 8) else if wOp w = 0x79 then some (wf w 88 8) else none

/-- Conversion control field (Table 2-5). -/
structure Conv where
  tfmt : Nat
  rmode : Nat
  sat : Bool
  given : Bool
  rsvd : Nat
  deriving DecidableEq, Repr

/-- Table 2-5. -/
def convOf (x : Nat) : Conv := ⟨bitsAt x 0 5, bitsAt x 5 2, bitsAt x 7 1 == 1, bitsAt x 8 1 == 1, bitsAt x 9 7⟩

/-- R44, R35: a control field that names a valid target, a listed rounding mode and no scale operand for an unscaled
target. DEDUCED, log 83: a non-zero reserved bit [15:9] makes the field invalid like the others, a format fault. -/
def convValid (c : Conv) : Bool :=
  fdValid c.tfmt && c.rmode != 3 && (fdScaled c.tfmt || !c.given) && c.rsvd == 0

/-- The unit that executes a word (Table 6-1, Table 6-2); 0 for the words of the issue unit. A word with a reserved OP
belongs to the unit that raises its fault: the array, the furrow, the mover, the peg unit or the vector unit. -/
def unitOf (w : W128) : Nat :=
  let o := wOp w
  if o = 0x01 ∨ o = 0x04 then 1 else if o = 0x03 then 3 else if o < 0x10 then 2
  else if o < 0x20 then 0
  else if o = 0x21 then 4 else if o = 0x23 then 6 else if o < 0x30 then 5
  else if o < 0x34 then 8 else if o < 0x38 then 9 else if o < 0x40 then 10 else if o < 0x80 then 7 else 0

/-- Table 6-1: the units whose words share a queue with unit `u`. -/
def queueOf (u : Nat) : List Nat :=
  if 1 ≤ u ∧ u ≤ 3 then [1, 2, 3] else if 4 ≤ u ∧ u ≤ 6 then [4, 5, 6] else [u]

/-- Table 6-1: the depth of the queue that unit `u` takes words from. -/
def queueCap (u : Nat) : Nat := if u = 7 then 16 else 8

/-- R121: the place of field `f` in a word, as its low bit and width; `none` where the word lacks it. -/
def strideField (w : W128) (f : Nat) : Option (Nat × Nat) :=
  match wOp w, f with
  | 0x01, 0 => some (16, 16)
  | 0x01, 1 => some (32, 16)
  | 0x02, 0 => some (48, 16)
  | 0x02, 1 => some (64, 16)
  | 0x02, 2 => some (19, 9)
  | 0x03, 0 => some (32, 16)
  | 0x03, 1 => some (48, 16)
  | 0x03, 2 => some (10, 9)
  | 0x04, 0 => some (32, 16)
  | 0x04, 2 => some (10, 9)
  | 0x21, 0 => some (16, 16)
  | 0x21, 1 => some (32, 16)
  | 0x22, 0 => some (48, 16)
  | 0x22, 1 => some (64, 16)
  | 0x22, 2 => some (17, 10)
  | 0x23, 0 => some (32, 16)
  | 0x23, 1 => some (48, 16)
  | 0x23, 2 => some (8, 10)
  | 0x78, 0 => some (48, 16)
  | 0x78, 1 => some (64, 16)
  | 0x79, 0 => some (48, 16)
  | 0x79, 1 => some (64, 16)
  | 0x79, 3 => some (96, 32)
  | 0x7A, 0 => some (48, 16)
  | _, _ => none

/-- Byte size of 512 elements of a code (R107). -/
def vecPlane (c : Nat) : Nat := planeBytes c 512

/-- R107: the highest SLOT of a format. -/
def maxSlot (c : Nat) : Nat := if elemBits c = 4 then 1 else if elemBits c = 6 then 3 else 0

/-- Rows of a byte span that begins `off` bytes after the start of row `r`. -/
def rowsOfSpan (r off len : Nat) : List Nat :=
  if len = 0 then [] else countFrom (r + off / 512) ((off + len - 1) / 512 - off / 512 + 1)

/-- R107: the scale bytes of a 512-element access. -/
def vecScaleLen (d : Nat) : Nat := 16 * scaleBytesPerBlock d

/-- The relative rows a word reads (R124); an unscaled operand's scale field is ignored. `fmtOf b` is the SFMT of the
word's own operands where the word needs no other word. -/
def readRows (w : W128) : List Nat :=
  match wOp w with
  | 0x01 =>
    let d := wf w 10 5
    countFrom (wf w 16 16) (tileRows d 256) ++ (if fdScaled d then countFrom (wf w 32 16) (tileScaleRows d 256) else [])
  | 0x02 =>
    if wf w 16 1 = 0 then [] else
      let d := wf w 10 5
      countFrom (wf w 48 16) (ceilDiv (wf w 28 10 * vecElemBytes d) 512)
        ++ (if fdScaled d then countFrom (wf w 64 16) (ceilDiv (wf w 28 10 * vecScaleBytes d) 512) else [])
  | 0x03 =>
    let cv := convOf (wf w 64 16)
    if cv.given then
      countFrom (wf w 48 16) (wf w 19 10 / depthOf (classOf (fdCode cv.tfmt)) * tileScaleRows cv.tfmt 256)
    else []
  | 0x04 => countFrom (wf w 32 16) (wf w 19 10 / 32 * 64)
  | 0x21 =>
    let d := wf w 10 5
    countFrom (wf w 16 16) (tileRows d (wf w 48 5)) ++ (if fdScaled d then countFrom (wf w 32 16) (tileScaleRows d (wf w 48 5)) else [])
  | 0x22 =>
    if wf w 15 2 ≠ 2 then [] else
      let d := wf w 10 5
      countFrom (wf w 48 16) (ceilDiv (wf w 27 11 * vecElemBytes d) 512)
        ++ (if fdScaled d then countFrom (wf w 64 16) (ceilDiv (wf w 27 11 * vecScaleBytes d) 512) else [])
  | 0x23 =>
    let cv := convOf (wf w 64 16)
    if cv.given then countFrom (wf w 48 16) (wf w 18 11 / depthOf (classOf (fdCode cv.tfmt))) else []
  | 0x78 =>
    let d := wf w 32 5
    let s := vecPlane (fdCode d)
    rowsOfSpan (wf w 48 16) (wf w 85 2 * s) s
      ++ (if fdScaled d then rowsOfSpan (wf w 64 16) (wf w 80 5 * 16) (vecScaleLen d) else [])
  | 0x79 =>
    let cv := convOf (wf w 32 16)
    if cv.given then rowsOfSpan (wf w 64 16) (wf w 80 5 * 16) (vecScaleLen cv.tfmt) else []
  | _ => []

/-- The relative rows a word writes. -/
def writeRows (w : W128) : List Nat :=
  match wOp w with
  | 0x03 =>
    let cv := convOf (wf w 64 16)
    let n := wf w 19 10 / depthOf (classOf (fdCode cv.tfmt))
    countFrom (wf w 32 16) (n * tileRows cv.tfmt 256)
      ++ (if fdScaled cv.tfmt && !cv.given then countFrom (wf w 48 16) (n * tileScaleRows cv.tfmt 256) else [])
  | 0x23 =>
    let cv := convOf (wf w 64 16)
    let n := wf w 18 11 / depthOf (classOf (fdCode cv.tfmt))
    countFrom (wf w 32 16) (n * tileRows cv.tfmt 16)
      ++ (if fdScaled cv.tfmt && !cv.given then countFrom (wf w 48 16) n else [])
  | 0x79 =>
    let cv := convOf (wf w 32 16)
    let s := vecPlane (fdCode cv.tfmt)
    rowsOfSpan (wf w 48 16) (wf w 85 2 * s) s
      ++ (if fdScaled cv.tfmt && !cv.given then rowsOfSpan (wf w 64 16) (wf w 80 5 * 16) (vecScaleLen cv.tfmt) else [])
  | _ => []

/-- The lowest relative row that a word touches at or beyond the window of `count` rows (R124). The rows of a VGATHER
depend on its lanes and are checked when it executes. -/
def rowFaultAt (w : W128) (count : Nat) : Option Nat :=
  match (readRows w ++ writeRows w).filter (fun r => count ≤ r) with
  | [] => none
  | a :: t => some (t.foldl min a)

end Sys2Proof.Machine
end

