-- ==== Sys2Proof/Machine/Flags.lean ====
section
/-! DEFINITION. Every flag computation: the conversions of R44 to R50 with the outcomes and flags of Table 2-6, the
block scales of R47, and the block sums and accumulator steps of R40 to R42 with their flags. -/

namespace Sys2Proof.Machine

/-- What a conversion gives: the element pattern, the flags of Table 2-8, and whether it set CONV_SAT (R51). -/
structure CvOut where
  bits : Nat
  flags : BitVec 7
  deriving DecidableEq, Repr

/-- Table 2-6, target INT8: limits −128 and 127, no UNDERFLOW. -/
def cvInt8 (mode : RMode) (v : FVal) : CvOut :=
  match v with
  | .nan => ⟨0, fCONVNAN ||| fNANIN⟩
  | .inf s => ⟨if s then 0x80 else 0x7F, fCONVSAT ||| fCONVNAN⟩
  | .fin s m e =>
    let k := roundQ mode m e 0
    if s then (if k > 128 then ⟨0x80, fCONVSAT⟩ else ⟨(256 - k) % 256, 0⟩)
    else (if k > 127 then ⟨0x7F, fCONVSAT⟩ else ⟨k, 0⟩)

/-- Table 2-6, an unscaled floating-point target: with infinity (SAT chooses), or FP8 E4M3, which always saturates. -/
def cvFloat (c : Nat) (mode : RMode) (sat : Bool) (v : FVal) : CvOut :=
  let p := paramOf c
  match v with
  | .nan => ⟨canonNaN p, fNANIN⟩
  | .inf s => if p.kind = 1 ∧ !sat then ⟨infBits p s, 0⟩ else ⟨signBit p s + maxFinite p, fCONVSAT⟩
  | .fin s m e =>
    let b := roundMag p mode m e
    if b > maxFinite p then (if p.kind = 1 ∧ !sat then ⟨infBits p s, fCONVSAT⟩ else ⟨signBit p s + maxFinite p, fCONVSAT⟩)
    else if b = 0 ∧ m ≠ 0 then ⟨signBit p s, fUNDERFLOW⟩
    else ⟨signBit p s + b, 0⟩

/-- Table 2-6, one element of a scaled target, `k` being the exponent its scale and sub-shift give. -/
def cvScaledElem (c : Nat) (mode : RMode) (k : Int) (v : FVal) : CvOut :=
  let p := paramOf c
  match v with
  | .fin s m e =>
    let b := roundMag p mode m (e - k)
    if b > maxFinite p then ⟨signBit p s + maxFinite p, fCONVSAT⟩
    else if b = 0 ∧ m ≠ 0 then ⟨signBit p s, fUNDERFLOW⟩
    else ⟨signBit p s + b, 0⟩
  | _ => ⟨0, 0⟩

/-- The largest floor(log2 |x|) among non-zero values. -/
def maxLog : List FVal → Option Int
  | [] => none
  | .fin _ m e :: t =>
    if m = 0 then maxLog t else
      match maxLog t with
      | none => some (flog2 m e)
      | some l => some (max (flog2 m e) l)
  | _ :: t => maxLog t

/-- R47: the scale exponent of a block, `none` where every value is zero. -/
def scaleE (c : Nat) (vals : List FVal) : Option Int := (maxLog vals).map (fun l => max (l - emaxOf c) (-127))

/-- R47: the sub-shift byte of a YF4 block, for the scale exponent `e`. -/
def subShifts (e : Int) (vals : List FVal) : Nat :=
  let t (j : Nat) : Nat := match maxLog ((vals.drop (8 * j)).take 8) with
    | none => 3
    | some l => (min 3 (e - (l - 2))).toNat
  t 0 + 4 * t 1 + 16 * t 2 + 64 * t 3

/-- What a block of 32 converts to. -/
structure BlkOut where
  elems : List Nat
  scales : List Byte
  flags : BitVec 7
  satN : Nat
  deriving DecidableEq, Repr

/-- Collect element outcomes. -/
def gather (l : List CvOut) : List Nat × BitVec 7 × Nat :=
  (l.map CvOut.bits, l.foldl (fun f o => f ||| o.flags) 0, (l.filter (fun o => o.flags &&& fCONVSAT != 0)).length)

/-- The rounding mode of element index `n` (R44, R49, R50). -/
def modeAt (rmode : Nat) (seed : W64) (n : Nat) : RMode :=
  if rmode = 0 then .rne else if rmode = 1 then .rtz else .stoch (rand16 seed n)

/-- R46: a block that carries 0xFF instead of elements. `pad` is the open value of the sub-shift byte, which the
manual does not state for such a YF4 block (log 6). -/
def blkNonFinite (d : Nat) (vals : List FVal) (extra : BitVec 7) (pad : Byte) : BlkOut :=
  { elems := vals.map (fun _ => 0)
    scales := if fdCode d = 9 then [0xFF, pad] else [0xFF]
    flags := fCONVNAN ||| extra ||| (if vals.any fvNan then fNANIN else 0)
    satN := 0 }

/-- R44 to R49: convert a block of up to 32 values whose output indices are `idx`. `given` holds the block's given
scale bytes where SCALE_GIVEN = 1. DEDUCED, log 83: a given scale of 0xFF sets CONV_NAN as a NaN source does, with INVALID
by Table 2-8; and a non-finite source under SCALE_GIVEN = 1 writes zero elements and leaves the given scale, since no scale
plane is written then. -/
def cvBlock (cv : Conv) (seed : W64) (pad : Byte) (given : List Byte) (idx : List Nat) (vals : List FVal) : BlkOut :=
  let c := fdCode cv.tfmt
  if !fdScaled cv.tfmt then
    let outs := (idx.zip vals).map fun (n, v) =>
      let m := modeAt cv.rmode seed n
      if c = 8 then cvInt8 m v else cvFloat c m cv.sat v
    let (el, fl, n) := gather outs
    ⟨el, [], fl, n⟩
  else if cv.given && (given.getD 0 0).toNat == 0xFF then { blkNonFinite cv.tfmt vals fINVALID pad with scales := given }
  else if vals.any (fun v => fvNan v || fvInf v) then
    let b := blkNonFinite cv.tfmt vals 0 pad
    if cv.given then { b with scales := given } else b
  else
    let e? := scaleE c vals
    let scales : List Byte :=
      if cv.given then given
      else match e? with
        | none => if c = 9 then [0x00, 0xFF] else [0x00]
        | some e => BitVec.ofNat 8 (e + 127).toNat :: (if c = 9 then [BitVec.ofNat 8 (subShifts e vals)] else [])
    let outs := ((List.range vals.length).zip (idx.zip vals)).map fun (i, n, v) =>
      match scaleExp cv.tfmt scales i with
      | none => (⟨0, 0⟩ : CvOut)
      | some k => cvScaledElem c (modeAt cv.rmode seed n) k v
    let (el, fl, n) := gather outs
    ⟨el, scales, fl, n⟩

/-- R45: the value of an accumulator entry, by its tag. -/
def accVal (int : Bool) (w : W32) : FVal := if int then ofInt w.toInt else ofF32 w

/-- R45: an INT32 value goes to FP32 by round to nearest whatever RMODE says. -/
def cvFor (cv : Conv) (int : Bool) : Conv := if int && fdCode cv.tfmt = 0 then { cv with rmode := 0 } else cv

/-! ### Array arithmetic -/

/-- R40, R41: one block's sum of products, rounded once to FP32. -/
def blockSum (terms : List (FVal × BitVec 7)) : W32 × BitVec 7 :=
  let fl := terms.foldl (fun f t => f ||| t.2) 0
  let r := sumF (terms.map Prod.fst)
  let (w, f) := roundRes r
  (w, f ||| fl)

/-- R41: the addition of a block sum into a value, as IEEE 754 addition. A NaN term was flagged where it arose. DEDUCED,
log 84: an entry that holds a NaN already (loaded by ALOAD, for example) is no operand in the sense of NAN_IN. -/
def accAdd (a b : W32) : W32 × BitVec 7 :=
  let x := ofF32 a
  let y := ofF32 b
  if fvNan x || fvNan y then (nan32, 0) else roundRes (sumF [x, y])

/-- R42: saturating INT32 addition. -/
def intSat (a : Int) : W32 × BitVec 7 :=
  if a > 2147483647 then (0x7FFFFFFF#32, fINTSAT)
  else if a < -2147483648 then (0x80000000#32, fINTSAT)
  else (BitVec.ofInt 32 a, 0)

/-- The integer of a decoded INT8 element. -/
def intOf : FVal → Int
  | .fin s m _ => if s then -(m : Int) else m
  | _ => 0

end Sys2Proof.Machine
end

