-- ==== Sys2Proof/Machine/Digest.lean ====
section
/-! DEFINITION. CRC-32C as R167 gives it, and SHAKE256 (R390; the permutation is FIPS 202's, PRESUMED, log 12). -/

namespace Sys2Proof.Machine

/-- One bit step of the reflected Castagnoli polynomial. -/
def crcBits : Nat → BitVec 32 → BitVec 32
  | 0, c => c
  | n + 1, c => crcBits n (if c.getLsbD 0 then (c >>> 1) ^^^ 0x82F63B78#32 else c >>> 1)

/-- R167: CRC-32C over bytes in ascending order. -/
def crc32c (l : List Byte) : BitVec 32 :=
  (l.foldl (fun c b => crcBits 8 (c ^^^ b.setWidth 32)) 0xFFFFFFFF#32) ^^^ 0xFFFFFFFF#32

/-! ### Keccak-f[1600]: 25 lanes, row after row of five -/

/-- One step of the shift register of the round constants: x^8 + x^6 + x^5 + x^4 + 1. -/
def kShift (r : Nat) : Nat := if r < 128 then 2 * r else (2 * r) ^^^ 0x171

/-- Seven steps of the register give a round constant: bit 2^j − 1 is the register's low bit at step j. -/
def kConstant (r : Nat) : Nat × W64 :=
  (List.range 7).foldl (fun st j => (kShift st.1, if st.1 % 2 = 1 then st.2 ||| (1 <<< (2 ^ j - 1)) else st.2)) (r, 0)

/-- The rows of the lanes. -/
def kRows (a : List W64) : List (List W64) := chunks 5 5 a

/-- Each lane with the parities of the columns beside its own. -/
def kTheta (a : List W64) : List W64 :=
  let parity := (kRows a).foldl (List.zipWith (· ^^^ ·)) (List.replicate 5 0)
  let mix := List.zipWith (fun left right => left ^^^ BitVec.rotateLeft right 1) (parity.rotateLeft 4) (parity.rotateLeft 1)
  (kRows a).flatMap (List.zipWith (· ^^^ ·) mix)

/-- The walk of the 24 lanes outside the origin: lane (x, y) goes to (y, 2x + 3y), and the t-th lane of the walk turns by
the t-th triangular number. `out` is built as a table of lanes. -/
def kWalk (a : List W64) : Nat → Nat → Nat → Tab W64 → Tab W64
  | 0, _, _, out => out
  | n + 1, lane, t, out =>
    let dest := lane / 5 + 5 * ((2 * (lane % 5) + 3 * (lane / 5)) % 5)
    kWalk a n dest (t + 1) (tset out dest ((a.getD lane 0).rotateLeft (t * (t + 1) / 2 % 64)))

/-- A row's lanes, each with its two followers. -/
def kChi (row : List W64) : List W64 :=
  List.zipWith (fun x yz => x ^^^ (~~~yz.1 &&& yz.2)) row ((row.rotateLeft 1).zip (row.rotateLeft 2))

/-- One round; the register of the constants goes with the lanes. -/
def kRound (st : Nat × List W64) : Nat × List W64 :=
  let a := kTheta st.2
  let moved := (kWalk a 24 1 1 [(0, a.headD 0)]).map Prod.snd
  let rc := kConstant st.1
  match (kRows moved).flatMap kChi with
  | [] => (rc.1, [])
  | origin :: rest => (rc.1, (origin ^^^ rc.2) :: rest)

/-- The 24 rounds. -/
def keccakF (a : List W64) : List W64 := ((List.range 24).foldl (fun st _ => kRound st) (1, a)).2

/-- Absorb one block of 136 bytes. -/
def kAbsorb (a : List W64) (blk : List Byte) : List W64 :=
  keccakF ((List.range 25).map fun i =>
    let w : W64 := if i < 17 then BitVec.ofNat 64 (leNat ((blk.drop (8 * i)).take 8)) else 0
    a.getD i 0 ^^^ w)

/-- SHAKE256 with an output of at most 136 bytes. -/
def shake256 (msg : List Byte) (len : Nat) : List Byte :=
  let pad := 136 - msg.length % 136
  let padded := if pad = 1 then msg ++ [0x9F] else msg ++ [0x1F] ++ fillBytes (pad - 2) 0 ++ [0x80]
  let fin := (chunks 136 (padded.length / 136) padded).foldl kAbsorb (List.replicate 25 0)
  (fin.flatMap fun w => leBytes 8 w.toNat).take len

end Sys2Proof.Machine
end

