-- ==== Sys2Proof/Machine/Engine.lean ====
section
/-! DEFINITION. The compute engines' state of one core (R51, R55, R61, R63, R64, R84, R86, R92, R102) as plain data,
and the view of a core's scratchpad through which the engines read rows. -/

namespace Sys2Proof.Machine

/-- One item of a weight intake or direct queue (R61, R62): a vector as delivered, its element bytes and then its
scale bytes, with the poison mark of R77, or the end marker of a segment. -/
inductive InItem
  | vec (bytes : List Byte) (poison : Bool)
  | mark
  deriving DecidableEq, Repr

/-- A stationary or resident buffer (R55, R92): its tile as decoded values, one list for each enabled token, the
enabled depth in blocks, and the dead cells of R86 as token × 256 + position. -/
structure SBuf where
  full : Bool := false
  fmt : Nat := 0
  tokens : Nat := 0
  blocks : Nat := 0
  cols : List (List FVal) := []
  dead : List Nat := []
  /-- The element and scale bytes that it was loaded from, as a save keeps them (Tables 3-12, 5-12). -/
  elem : List Byte := []
  scale : List Byte := []
  deriving DecidableEq, Repr

/-- An accumulator entry (R64, R92): its type tag (`int` for INT32) and its non-zero values by column or resident
position. `bad` marks an entry whose storage reads uncorrectable (R77); no row of the table brings that error about (log 27). -/
structure AccEnt where
  int : Bool := false
  bad : Bool := false
  v : Tab W32 := []
  deriving DecidableEq, Repr

/-- The engine state of one core that R126 sets at a program start and pre-emption saves (Tables 3-12, 5-12, 6-14). -/
structure Engine where
  /-- R51: FMT_FLAGS, FMT_TRAP and FMT_SATCNT. -/
  flags : BitVec 7 := 0
  trap : BitVec 7 := 0
  satcnt : Nat := 0
  /-- R55: stationary buffers 0 and 1; R70: the SFMT of the most recent ASTAT dispatched into each. -/
  sb0 : SBuf := {}
  sb1 : SBuf := {}
  last0 : Option Nat := none
  last1 : Option Nat := none
  /-- R64: accumulator entries, key bank × 512 + entry. -/
  acc : Tab AccEnt := []
  /-- R84: the pass counters of bank pairs 0/1 and 2/3. -/
  pass01 : Nat := 0
  pass23 : Nat := 0
  /-- R61: the weight intake queue. -/
  intake : List InItem := []
  /-- R92: resident buffers 0 and 1, the SFMT of the most recent FRES dispatched into each, RVEC of the last FRES
  dispatched (R98), and the accumulator file. -/
  rb0 : SBuf := {}
  rb1 : SBuf := {}
  rlast0 : Option Nat := none
  rlast1 : Option Nat := none
  rvec : Nat := 0
  facc : Tab AccEnt := []
  /-- R94: the direct queue. -/
  direct : List InItem := []
  /-- R102: vector registers, key register × 512 + lane, and mask registers, key register × 512 + lane. -/
  vreg : Tab W32 := []
  mreg : Tab Bool := []
  /-- The counters of Tables 3-8, 5-10 and 6-6 and SP_CE and SP_UE of R147, by register offset. -/
  ctr : Tab Nat := []
  deriving DecidableEq, Repr

/-- What an engine sees of scratchpad: the core, its row window, the memory, the poisoned rows as
core × 49,152 + row, and the position of the free-value stream. -/
structure View where
  core : Nat
  base : Nat
  count : Nat
  mem : Tab Byte
  bad : List Nat
  free : Nat

/-- Local address of absolute row `r` of core `n` (R138). -/
def rowAddr (n r : Nat) : Nat := 0x010000000000 + n * 0x01800000 + r * 512

/-- What executing a word on an engine gives. -/
inductive UOut
  /-- Executed: the engine state and the scratchpad writes, each a byte offset from the window's start and its bytes. -/
  | ok (e : Engine) (wr : List (Nat × List Byte))
  /-- A program fault of Table 6-9 with its FAULT_DATA. -/
  | fault (e : Engine) (cause : Nat) (data : W64)
  /-- An uncorrectable read of R77 or R114; the absolute rows that were read uncorrectable. -/
  | uncorr (e : Engine) (rows : List Nat)

/-- Bytes of memory from an address on (unlisted bytes read as zero, log 7). -/
def bytesAt (m : Tab Byte) (a n : Nat) : List Byte := (countFrom a n).map (tget 0 m)

/-- Bytes of the window: `n` bytes from byte `off` after the start of relative row `r`. -/
def View.bytes (v : View) (r off n : Nat) : List Byte := bytesAt v.mem (rowAddr v.core (v.base + r) + off) n

/-- Whether relative row `r` is poisoned. -/
def View.isBad (v : View) (r : Nat) : Bool := v.bad.contains (v.core * 49152 + v.base + r)

/-- The relative rows of a list that are poisoned. -/
def View.badOf (v : View) (rows : List Nat) : List Nat := rows.filter v.isBad

/-- Add to the 64-bit counter at a register offset, which stops at its highest value (R28). -/
def Engine.count (e : Engine) (off n : Nat) : Engine :=
  { e with ctr := tput 0 e.ctr off (satAdd 0xFFFFFFFFFFFFFFFF (tget 0 e.ctr off) n) }

/-- Where the counters of a core keep the energy of its engines' work by Table 15-3, in fJ at 0.75 V; no register shows it. -/
def ctrEnergy : Nat := 0x10000

def Engine.buf (e : Engine) (b : Nat) : SBuf := if b = 0 then e.sb0 else e.sb1
def Engine.setBuf (e : Engine) (b : Nat) (s : SBuf) : Engine := if b = 0 then { e with sb0 := s } else { e with sb1 := s }
def Engine.rbuf (e : Engine) (b : Nat) : SBuf := if b = 0 then e.rb0 else e.rb1
def Engine.setRbuf (e : Engine) (b : Nat) (s : SBuf) : Engine := if b = 0 then { e with rb0 := s } else { e with rb1 := s }
def Engine.last (e : Engine) (b : Nat) : Option Nat := if b = 0 then e.last0 else e.last1
def Engine.rlast (e : Engine) (b : Nat) : Option Nat := if b = 0 then e.rlast0 else e.rlast1

/-- R51, R52: finish an instruction that raised `fl` and `n` CONV_SAT elements: a trapped flag faults it and nothing of
it is written; otherwise the flags are set and the count advances. `before` is the state without the instruction. -/
def finish (before e : Engine) (fl : BitVec 7) (n : Nat) (wr : List (Nat × List Byte)) : UOut :=
  if fl &&& before.trap != 0 then .fault before 0x02 (BitVec.ofNat 64 fl.toNat)
  else .ok { e with flags := e.flags ||| fl, satcnt := satAdd 0xFFFFFFFF e.satcnt n } wr

end Sys2Proof.Machine
end

