-- ==== Sys2Proof/Machine/State.lean ====
section
/-! DEFINITION. The machine's state as plain data, group by group, with the reset value of every field as its default;
State.reset; the fault and the refusals. -/

namespace Sys2Proof.Machine

/-! ### Cores (chapter 6) -/

/-- CORE_STATE.STATE (Table 6-7). -/
inductive CoreMode
  | idle | running | stopping | saving | restoring | tearing | fenced
  deriving DecidableEq, Repr

/-- A word that has been dispatched and not yet retired. A GATE keeps the units it waits on with their counts N, none once it
is satisfied; an AMUL or FMUL over a stream keeps the vectors taken; an MKICK keeps its ring and the release count it waits for.
A drain keeps its seed, and an FDRAIN the RVEC it cuts at, as they stood when it was dispatched. -/
structure QWord where
  unit : Nat := 0
  word : W128 := 0
  pc : Nat := 0
  seed : W64 := 0
  rvec : Nat := 0
  gate : Option (List (Nat × Nat)) := none
  /-- Executed: the word waits for its completion event. -/
  done : Bool := false
  /-- Completed, behind an earlier word of its unit that is not (R116). -/
  fin : Bool := false
  taken : List (List Byte) := []
  kick : Option (Nat × Nat) := none
  deriving DecidableEq, Repr

/-- One level of a running LOOP (Table 6-14, R121): positions are indices into the fetched words kept. -/
structure LoopSt where
  start : Nat := 0
  body : Nat := 0
  iter : Nat := 0
  count : Nat := 0
  strides : List (Nat × Nat × Int) := []
  deriving DecidableEq, Repr

/-- A message of a descriptor that is not sent yet: its header (data words are read when it is sent), the local address
that its data comes from or goes to, its bytes, its piece, the attempts made, whether it waits for its back-off, and
whether it waits for credit (R299). -/
structure PendMsg where
  msg : Msg := {}
  loc : Nat := 0
  len : Nat := 0
  piece : Nat := 0
  attempt : Nat := 1
  backoff : Bool := false
  credit : Bool := false
  deriving DecidableEq, Repr

/-- A descriptor in progress on a ring (R295 to R301): its index since MRING, the context that it runs for, its 64 bytes as read, the messages not
sent, the messages that await a response, and the outcome so far. -/
structure Desc where
  idx : Nat := 0
  ctx : Nat := 0
  /-- Its address, its place in the order in which its mover started descriptors, and whether its ring has been bound anew since
  (R294, R300). -/
  addr : Nat := 0
  order : Nat := 0
  old : Bool := false
  bytes : List Byte := []
  pend : List PendMsg := []
  out : Nat := 0
  attempts : Nat := 1
  /-- R301: poisoned words were met. -/
  ue : Bool := false
  /-- R300: the failing status, and the attempts of the failing message. -/
  cause : Nat := 0
  failAttempts : Nat := 0
  signalled : Bool := false
  /-- Vectors of a STREAM delivered, and whether its end marker is placed (R297, R303). -/
  vpos : Nat := 0
  streaming : Bool := false
  deriving DecidableEq, Repr

/-- A descriptor ring of a mover (R294). The counts run freely since MRING. -/
structure Ring where
  bound : Bool := false
  /-- Dister has bound it for itself (R294, R304). -/
  dister : Bool := false
  base : Nat := 0
  log2n : Nat := 0
  retry : Nat := 0
  released : Nat := 0
  started : Nat := 0
  next : Nat := 0
  halted : Bool := false
  /-- Time of the first halt of the wait of R437, and the failed descriptors that a restart runs afresh. -/
  haltAt : Option Nat := none
  failed : List Nat := []
  live : List Desc := []
  deriving DecidableEq, Repr

/-- A mover (R308): its four rings, MOV_HALT and its counters. -/
structure Mover where
  rings : List Ring := [{}, {}, {}, {}]
  /-- Descriptors started so far. -/
  starts : Nat := 0
  haltCause : Nat := 0
  haltIndex : Nat := 0
  haltRing : Nat := 0
  bytes : Nat := 0
  retries : Nat := 0
  nocredit : Nat := 0
  halts : Nat := 0
  deriving DecidableEq, Repr

/-- A phase slot of a peg unit (R254). -/
structure PhaseSlot where
  vpid : Nat := 0
  sense : Bool := false
  phases : Nat := 0
  deriving DecidableEq, Repr

/-- The peg unit of a core (R267): the pending wait, the phase slots and PEG_LASTREF. -/
structure PegUnit where
  state : Nat := 0
  vpid : Nat := 0
  thresh : Nat := 0
  slots : List (Option PhaseSlot) := [none, none, none, none]
  /-- The PHASES value that a PARRIVE with WAIT = 1 is held on. -/
  hold : Nat := 0
  refStatus : Nat := 0
  refNode : Nat := 0
  refVpid : Nat := 0
  deriving DecidableEq, Repr

/-- What a program start sets and a save keeps of a core (R126, R134): the issue unit, the engines, the movers and the
peg unit. -/
structure Run where
  progPc : Nat := 0
  rowBase : Nat := 0
  rowCount : Nat := 0
  /-- Fetched words with their addresses, from the oldest that a loop may replay. -/
  prog : List (Nat × W128) := []
  /-- The next word to dispatch, and the first word never dispatched. -/
  pos : Nat := 0
  hi : Nat := 0
  loops : List LoopSt := []
  ended : Bool := false
  q : List QWord := []
  issued : Tab Nat := []
  done : Tab Nat := []
  seeds : Tab W64 := []
  eng : Engine := {}
  mov0 : Mover := {}
  mov1 : Mover := {}
  peg : PegUnit := {}
  deriving DecidableEq, Repr

/-- FAULT_INFO, FAULT_PC, FAULT_WORD and FAULT_DATA (Table 6-8). -/
structure FaultRegs where
  cause : Nat := 0
  unit : Nat := 0
  multi : Bool := false
  ctx : Nat := 0
  valid : Bool := false
  pc : Nat := 0
  word : W128 := 0
  data : W64 := 0
  deriving DecidableEq, Repr

/-- A core (R127, R147, R267, R308, R386). -/
structure Core where
  ctx : Nat := 0
  mode : CoreMode := .idle
  resFull : Bool := false
  resCtx : Nat := 0
  run : Run := {}
  fault : FaultRegs := {}
  /-- PREEMPT_LAST and the time of the request in force. -/
  stopNs : Nat := 0
  saveNs : Nat := 0
  saveTarget : Bool := false
  nonpre : Bool := false
  reqAt : Option Nat := none
  pointAt : Nat := 0
  /-- A pre-emption request held during a restore (R136). -/
  reqHeld : Bool := false
  /-- R473, R386: the temperature sensor in 0.1 °C, FAIL, and the time of the first failed read. -/
  temp : Int := 0
  tempFail : Bool := false
  failAt : Option Nat := none
  /-- R22: ARR_RATE. -/
  rate : Nat := 0
  /-- R145, R147: weeding positions by bank (next bank row), rewrite queues as absolute rows, SP_WEED, SP_UE_LAST. -/
  weedPos : Tab Nat := []
  rewrite : List Nat := []
  weedPasses : Nat := 0
  weedForced : Nat := 0
  weedBanks : List Nat := []
  ueRow : Nat := 0
  ueControl : Bool := false
  ueWeed : Bool := false
  ueValid : Bool := false
  spCe : Nat := 0
  spUe : Nat := 0
  /-- A self-test holds the core fenced (R477). -/
  testing : Bool := false
  deriving DecidableEq, Repr

/-- A saved state (R133, R134): its context, core, place, plot configuration, time and content. -/
structure Saved where
  ctx : Nat := 0
  core : Nat := 0
  inReserve : Bool := true
  plotsz : Nat := 2
  at0 : Nat := 0
  unit : Nat := 0
  run : Run := {}
  deriving DecidableEq, Repr

/-! ### Pegs (chapter 11) -/

/-- Who holds a wait on a peg (Table 11-1). -/
inductive Waiter
  | core (n : Nat)
  | rake (r : Nat)
  | host (ctx aseq : Nat)
  deriving DecidableEq, Repr

/-- A wait (R245, R247): threshold, whether it consumes, and the PHASES value a barrier wait was held on. -/
structure Wait where
  who : Waiter
  k : Nat := 1
  consume : Bool := false
  phases : Nat := 0
  deriving DecidableEq, Repr

/-- A peg record (Table 11-1). The waits in order of arrival stand for WAIT_CORES, WAIT_RAKES and WAIT_HOST. -/
structure Peg where
  value : Nat := 0
  mode : Nat := 0
  overflow : Bool := false
  doubled : Bool := false
  poisoned : Bool := false
  remote : Bool := false
  periodic : Bool := false
  freeing : Bool := false
  owner : Nat := 0
  vpid : Nat := 0
  parties : Nat := 0
  arrived : Nat := 0
  sense : Bool := false
  phases : Nat := 0
  lastTs : Nat := 0
  lastNode : Nat := 0
  lastKind : Nat := 0
  lastUnit : Nat := 0
  nodeLo : Nat := 0
  nodeHi : Nat := 0
  init : Nat := 0
  waits : List Wait := []
  deriving DecidableEq, Repr

/-- What a core's peg word asks of a home peg unit (R254). -/
inductive PegOp
  | signal (n : Nat)
  | wait (k : Nat) (consume : Bool)
  | arrive (hold : Bool) (slot : Nat)
  | slotWait (slot : Nat)
  | preset (v : Nat)
  deriving DecidableEq, Repr

/-- A request in flight to a home peg unit. -/
structure PegReq where
  core : Nat := 0
  ctx : Nat := 0
  vpid : Nat := 0
  phys : Nat := 0
  op : PegOp := .signal 1
  /-- R251: the peg has been freed since the request left. -/
  dead : Bool := false
  deriving DecidableEq, Repr

/-! ### Trays (chapter 8) -/

/-- Table 8-2; `held` is a packet that a READ took and whose space it still holds, `gone` a packet whose space waits
for older packets (R173). -/
inductive PState
  | open | ready | claimed | held | gone
  deriving DecidableEq, Repr

/-- Who is answered when a packet commits or is refused (R167, R319, R282). -/
inductive Replier
  | none
  | port (p : Nat) (req : Msg)
  | mover (core mover ring idx : Nat)
  | host (ctx ring idx : Nat)
  deriving DecidableEq, Repr

/-- A packet (Table 8-1, Table 8-2): entry fields, place in the ring, and what its commit still waits for. -/
structure Packet where
  st : PState := .open
  tag : Nat := 0
  length : Nat := 0
  prio : Nat := 0
  endp : Bool := false
  fver : Nat := 1
  fmt : Nat := 0
  seq : Nat := 0
  pseq : Nat := 0
  slot : Nat := 0
  node : Nat := 0
  crc : Nat := 0
  /-- First ring word of the payload. -/
  pos : Nat := 0
  openedAt : Nat := 0
  /-- COMMIT arrived, its CRC passed, and the commit waits for earlier PSEQs of the slot (R170). -/
  commitOk : Bool := false
  reply : Replier := .none
  /-- Context, or host context + 4,096, that claimed the packet, and the core whose program did. -/
  claimer : Nat := 0
  byCore : Option Nat := none
  started : Bool := false
  heldAt : Nat := 0
  /-- Its credit has returned already (R169). -/
  credited : Bool := false
  /-- Order of COMMITs, and then of commit points, on the tray. -/
  order : Nat := 0
  /-- Its entry is uncorrectable (R184), and an uncorrectable word of its on-die entry that the tray unit has not met yet. -/
  bad : Bool := false
  ecc : Bool := false
  /-- R174: its place in the entry spill area, where its entry lies there. -/
  spill : Option Nat := none
  deriving DecidableEq, Repr

/-- A producer slot (R170, R178). -/
structure Slot where
  enabled : Bool := false
  pktAvail : Nat := 0
  wordAvail : Nat := 0
  pktLimit : Nat := 0
  wordLimit : Nat := 0
  node : Nat := 0
  last : Nat := 0
  committed : Bool := false
  /-- Credit returned since the last update, and when the first of it returned (R179). -/
  retPkts : Nat := 0
  retWords : Nat := 0
  retAt : Option Nat := none
  /-- The producers of the packets whose credit that was. -/
  retNodes : List Nat := []
  deriving DecidableEq, Repr

/-- A reader that waits under R177. -/
inductive TrayWaiter
  | trellis
  | prog (core : Nat)
  | host (ctx ring idx : Nat)
  deriving DecidableEq, Repr

/-- A tray (R186). Packets are in the order of OPEN (R173). -/
structure Tray where
  kind : Nat := 0
  readmode : Bool := false
  fmtver : Nat := 2
  pmin : Nat := 0
  pmax : Nat := 7
  periodic : Bool := false
  ctx : Nat := 0
  maxpkt : Nat := 0
  timeout : Nat := 0x3E8
  base : Nat := 0
  mib : Nat := 0
  ringWords : Nat := 0
  nextWord : Nat := 0
  nextSeq : Nat := 1
  nextOrder : Nat := 0
  packets : List Packet := []
  slots : Tab Slot := []
  waiters : List TrayWaiter := []
  broken : Bool := false
  /-- R168: open packets that a period reset discarded and whose COMMIT has not come, by SLOT and PSEQ. -/
  expired : List (Nat × Nat) := []
  /-- R184: words of the on-die store of this tray, beside entries, that hold a correctable error, and an uncorrectable one in its pointers
  or its credit state, not met yet. -/
  soft : Nat := 0
  ptrBad : Bool := false
  commits : Nat := 0
  lost : Nat := 0
  rewound : Nat := 0
  nocredit : Nat := 0
  deriving DecidableEq, Repr

/-! ### Contexts and commands (chapters 13 and 14) -/

/-- An accepted command that has no disposition yet: its opcode, header and parameter bytes, whether it has started,
and what it has gathered so far (`mark`). -/
structure Cmd where
  aseq : Nat := 0
  op : Nat := 0
  hdr : CmdHdr := {}
  par : List Byte := []
  started : Bool := false
  at0 : Nat := 0
  mark : Nat := 0
  /-- R360: the period the command belongs to. -/
  period : Option Nat := none
  /-- R358: a refused serial command settles with this status at its serial turn. -/
  why : Option Nat := none
  /-- The image that a STAGE_LOAD reads, and what a RESTORE finds in its store. -/
  img : Option Image := none
  reads : StoreReads := {}
  deriving DecidableEq, Repr

/-- A host region or HDM grant (Table 14-9). -/
structure Region where
  base : Nat := 0
  size : Nat := 0
  read : Bool := false
  write : Bool := false
  deriving DecidableEq, Repr

/-- A host tray descriptor in progress (R320). -/
structure HtrLive where
  idx : Nat := 0
  op : Nat := 0
  tray : Nat := 0
  slot : Nat := 0
  irq : Bool := false
  buf : Nat := 0
  bufWords : Nat := 0
  seq : Nat := 0
  wait : Bool := false
  counted : Bool := false
  res : Option (Nat × Nat × Bool) := none
  deriving DecidableEq, Repr

/-- A host tray ring (R318). -/
structure HtRing where
  base : Nat := 0
  log2n : Nat := 0
  tail : Nat := 0
  started : Nat := 0
  head : Nat := 0
  halted : Bool := false
  live : List HtrLive := []
  deriving DecidableEq, Repr

/-- A KV block of a sequence (R205): its number; the local address of its first page and the place of its pages in the sequence's local
part, where they have one; 0 local, 1 being copied to the far pool, 2 copied, 3 far; the global addresses of its far pages; the pieces
not sent yet, each a local address, bytes, global address and window; the messages that await a response, and whether one has failed. -/
structure KvBlock where
  j : Nat := 0
  addr : Nat := 0
  slot : Option Nat := none
  st : Nat := 0
  far : List Nat := []
  todo : List (Nat × Nat × Nat × Nat) := []
  out : Nat := 0
  bad : Bool := false
  deriving DecidableEq, Repr

/-- A sequence (Table 9-7). -/
structure Seqn where
  id : Nat := 0
  /-- 1 waiting, 2 deferred, 3 running, 4 leaving. -/
  st : Nat := 1
  status : Nat := 0
  maxlen : Nat := 0
  l : Nat := 0
  locB : Nat := 0
  farB : Nat := 0
  at0 : Nat := 0
  joinAseq : Nat := 0
  leaveAseq : Option Nat := none
  /-- Its place among the context's sequence entries. -/
  entry : Option Nat := none
  /-- The first byte of its local part, and its first page of the far pool. -/
  base : Nat := 0
  farAt : Nat := 0
  /-- Addresses of the page table and of the centroid array, and the blocks in order. -/
  tableAt : Nat := 0
  centAt : Nat := 0
  blocks : List KvBlock := []
  deriving DecidableEq, Repr

/-- A running SWEEP_RUN (R192 to R211, R354). -/
structure Sweep where
  aseq : Nat := 0
  serving : Bool := false
  tele : Nat := 0
  rseed : W64 := 0
  first : Nat := 0
  nsteps : Nat := 0
  m : Nat := 0
  fwd : Nat := 0
  igr : Nat := 0
  wgr : Nat := 0
  sched : Nat := 0
  nseg : Nat := 0
  shard : Nat := 0
  nshard : Nat := 0
  step : Nat := 0
  doneSteps : Nat := 0
  flags : BitVec 7 := 0
  rakeFlags : Nat := 0
  worst : Nat := 0
  stop : Bool := false
  /-- R437, R440, R442: claims no further units and settles FAULTED with this status when its units end. -/
  failing : Option Nat := none
  cancelling : Bool := false
  /-- Forward units completed and input-gradient indices completed in the step (training); units started and
  descriptors completed in the serving step. -/
  fwdDone : Nat := 0
  igrDone : List Nat := []
  wgrDone : Nat := 0
  /-- 1 units, 3 reduce-scatter and rakes, 4 all-gather (Table 9-10). -/
  phase : Nat := 1
  phaseAt : Nat := 0
  deriving DecidableEq, Repr

/-- A harvest (R392 to R399): its parameters; whether it has begun; HSEQ and generation once the store has been read;
the last STATE written into its rank record (3 for rank 0 after the election), 6 once the
manifest and 7 once the commit record is written; the shards won; the store as this chip
has read and written it; the writes not sent yet; whether it holds back the next rake phase (R394). -/
structure Harvest where
  aseq : Nat := 0
  step : Nat := 0
  manver : Nat := 2
  win : Nat := 0
  store : Nat := 0
  begun : Bool := false
  at0 : Nat := 0
  hseq : Nat := 0
  gen : Nat := 0
  st : Nat := 0
  won : List Nat := []
  electedAt : Nat := 0
  hold : Bool := false
  view : Tab Byte := []
  out : List (Nat × List Byte) := []
  failed : Option Nat := none
  deriving DecidableEq, Repr

/-- R381: a completed unit: when, its running and solo beats, its time from readiness to completion and its running
time. -/
structure UnitRec where
  at0 : Nat := 0
  beats : Nat := 0
  solo : Nat := 0
  queue : Nat := 0
  run : Nat := 0
  deriving DecidableEq, Repr

/-- A context (R334, R351, R352, R364, R387, R212). -/
structure Ctx where
  live : Bool := false
  faulted : Bool := false
  /-- The context outlives its session and waits to be adopted (R337, R346). -/
  orphan : Bool := false
  /-- Adopted, and no doorbell yet in the new session (R352, section 6). -/
  fresh : Bool := false
  prio : Nat := 0
  cls : Nat := 0
  pegQuota : Nat := 0
  vector : Nat := 0
  memQuota : Nat := 0
  cores : List Nat := []
  /-- R135: the address of the save slot in LPDDR5X of each of these cores, in the same order. -/
  slots : List Nat := []
  deadline : Bool := false
  period : Nat := 0
  pstart : Nat := 0
  cmdBase : Nat := 0
  cmdLog2 : Nat := 6
  cmplBase : Nat := 0
  cmplLog2 : Nat := 6
  cmdTail : Nat := 0
  cmdRead : Nat := 0
  aseq : Nat := 0
  cmplIdx : Nat := 0
  cmplHead : Nat := 0
  /-- Commands accepted on this ring since its indices restarted. -/
  accepted : Nat := 0
  cmds : List Cmd := []
  /-- Announced headers whose OPCODE is not in Table 14-7, by ring index. -/
  badOps : List (Nat × CmdHdr) := []
  regions : Tab Region := []
  grants : Tab Region := []
  kvLocal : Nat := 0
  /-- Where the context's sequence entries lie, the pieces of its local KV pool, and the sequence entries written (R203). -/
  kvAt : Nat := 0
  kvSegs : List (Nat × Nat) := []
  ents : List Nat := []
  /-- Far pool ranges: global address, window and bytes. -/
  kvFar : List (Nat × Nat × Nat) := []
  hpegBase : Nat := 0
  hpegCount : Nat := 0
  evrBase : Nat := 0
  evrLog2 : Nat := 4
  evSeq : Nat := 0
  evrHead : Nat := 0
  htr0 : HtRing := {}
  htr1 : HtRing := {}
  holdoff : Nat := 0
  lastIrq : Option Nat := none
  irqHeld : Bool := false
  dbbad : Bool := false
  /-- R249: the translation table, VPID to physical peg. -/
  vpids : Tab Nat := []
  periodNo : Nat := 0
  tend : Nat := 0
  inPeriod : Bool := false
  /-- R191: its period has ended, and the next one waits for the gap's change of plot configuration. -/
  gapWait : Bool := false
  seqs : List Seqn := []
  expired : Nat := 0
  defers : Nat := 0
  steps : Nat := 0
  sweep : Option Sweep := none
  harvest : Option Harvest := none
  lastStep : Option Nat := none
  /-- R402: the step of a RESTORE whose hold no SWEEP_RUN has lifted. -/
  restored : Option Nat := none
  /-- R387. -/
  slowdown : Nat := 0x100
  queue : Nat := 0x100
  unitsWin : Nat := 0
  rateC : Nat := 0
  vcommit : Nat := 0
  overcommit : Bool := false
  broken : Bool := false
  carry : Nat := 0
  overTotal : Nat := 0
  beats : Nat := 0
  stallW : Nat := 0
  stallStash : Nat := 0
  stallStat : Nat := 0
  preempts : Nat := 0
  /-- R195: the step fence is closed: the last window of a step has ended and its all-gather has not. -/
  fenceClosed : Bool := false
  /-- R195, R304: the chains of the phase in force that Dister has not released yet, by index. -/
  chains : List Nat := []
  /-- R381: the units completed lately. -/
  window : List UnitRec := []
  /-- R380: the time of the period that serving units have. -/
  tav : Nat := 0
  /-- R384: BEATS and STALL_W at the last heat record. -/
  hrBeats : Nat := 0
  hrStall : Nat := 0
  deriving DecidableEq, Repr

/-! ### Units of work and the Trellis (chapters 9 and 15) -/

/-- A unit of work (R188, R189, R366). -/
structure WUnit where
  id : Nat := 0
  ctx : Nat := 0
  desc : Nat := 0
  kind : Nat := 1
  /-- The unit's index within the step, and the step. -/
  index : Nat := 0
  step : Nat := 0
  packets : List (Nat × Nat) := []
  /-- 0 gathering, 1 ready, 2 running, 3 being pre-empted, 4 saved, 5 restoring, 6 abandoned and not claimed again,
  7 claimed whole and without a resource of R193. -/
  st : Nat := 0
  /-- The producer slot whose packets form the unit (R188). -/
  slot : Nat := 0
  plot : Nat := 0
  cores : List Nat := []
  coresDone : List Nat := []
  flags : BitVec 7 := 0
  tReady : Nat := 0
  tStart : Nat := 0
  /-- The slice in force: its start and its length (R371, R372). -/
  sliceAt : Nat := 0
  sliceLen : Nat := 0
  resumedAt : Nat := 0
  /-- Running time before the last resume. -/
  ranNs : Nat := 0
  /-- Counters of each core when last charged, and what each has counted since the start: array beats, weight, stash and
  stationary stalls, furrow beats. -/
  ctr0 : List (Nat × List Nat) := []
  tot : List (Nat × List Nat) := []
  /-- R365: nothing else has run meanwhile. -/
  soloRun : Bool := false
  /-- R374: energy so far. -/
  energy : Nat := 0
  passed : Nat := 0
  passedAt : Option Nat := none
  drained : Bool := false
  /-- R440: abandoned, and not started again yet. -/
  replay : Bool := false
  waitRing : Bool := false
  /-- R198: the sequence rows that a serving unit computes, each a SEQID, POS + NTOK and the address of its record. -/
  rows : List (Nat × Nat × Nat) := []
  deriving DecidableEq, Repr

/-- A stash slot: context, step and micro-batch (R193). -/
structure StashSlot where
  ctx : Nat := 0
  step : Nat := 0
  mb : Nat := 0
  deriving DecidableEq, Repr

/-- A solo estimate of a sweep descriptor (R365): units measured, sums and maxima of A, S and E. -/
structure Solo where
  n : Nat := 0
  a : Nat := 0
  s : Nat := 0
  e : Nat := 0
  maxA : Nat := 0
  maxS : Nat := 0
  deriving DecidableEq, Repr

/-- What the Trellis keeps of a tick (R374, R375): the modelled core-rail energy and the package energy in nJ, and the weight-intake stall,
busy and reference beats of the running cores. -/
structure TickRec where
  rail : Nat := 0
  pkg : Nat := 0
  stall : Nat := 0
  busy : Nat := 0
  beats : Nat := 0
  deriving DecidableEq, Repr

/-- The Trellis registers (R386). Temperatures in °C, voltages in mV, power in W. -/
structure Trellis where
  heat : Nat := 1
  ramping : Bool := false
  avserr : Bool := false
  vtarget : Nat := 0x2EE
  /-- The last acknowledged target (R378). -/
  vacked : Nat := 0x2EE
  vmeas : Nat := 0
  vplan : Option Nat := none
  tmax : Int := 0
  /-- P_avg in mW (R375). -/
  pavg : Nat := 0
  plimit : Nat := 1200
  vfloor : Nat := 0x226
  vceil : Nat := 0x352
  tjmax : Nat := 0x69
  floorEff : Nat := 0x226
  ceilEff : Nat := 0x352
  imeas : Nat := 0
  /-- The current readings of the last 1 ms, in A, the newest first (R374). -/
  amps : List Nat := []
  /-- The ticks of the last 1 ms, the newest first. -/
  ticks : List TickRec := []
  /-- The wavefronts and the weight-intake stall beats charged to units so far. -/
  waves : Nat := 0
  stalls : Nat := 0
  /-- At the last tick: the energy of Table 15-3 at 0.75 V in fJ, the LPDDR5X bytes, and the two counts above. -/
  lastFj : Nat := 0
  lastBytes : Nat := 0
  lastWaves : Nat := 0
  lastStalls : Nat := 0
  tavs : Nat := 0
  curFail : Bool := false
  /-- Package energy in nJ (TR_ENERGY shows µJ). -/
  energy : Nat := 0
  vsteps : Nat := 0
  ticksHot : Nat := 0
  crit : Nat := 0
  overs : Nat := 0
  preempt : Nat := 0
  heatskip : Nat := 0
  avserrs : Nat := 0
  cal : Nat := 0x100
  /-- A POWER_SET that waits for the next tick (R379): context-0 ASEQ, PLIMIT, VFLOOR, VCEIL, TJMAX. -/
  pendSet : Option (Nat × Nat × Nat × Nat × Nat) := none
  deriving DecidableEq, Repr

/-! ### Rakes (chapter 10) -/

/-- An accepted update block (R214) with who gets its UPDACK. -/
structure Blk where
  step : Nat := 0
  ctx : Nat := 0
  gfmt : Bool := false
  bed : Nat := 0
  own : Nat := 0
  lpeg : Nat := 0
  lval : Nat := 0
  grads : List W32 := []
  /-- The peg wait of R217 is satisfied. -/
  pegOk : Bool := false
  waiting : Bool := false
  deriving DecidableEq, Repr

/-- A Gram slot (R235): the group, the block, the blocks taken, and the exact sums as FP value sums by cell. -/
structure Gram where
  group : Nat := 0
  block : Nat := 0
  taken : Nat := 0
  sums : List FVal := []
  deriving DecidableEq, Repr

/-- A rake (R241): queue, Gram slots, status, counters by offset, programs, element registers by register × 256 + lane,
active lanes, the group scalars S0 to S7, C1, C2 and T in force, and refreshes queued. -/
structure Rake where
  queue : List Blk := []
  gram : List Gram := []
  halted : Bool := false
  ctr : Tab Nat := []
  e : Tab W32 := []
  active : List Nat := []
  scal : List W32 := []
  refresh : List (Nat × Nat × Nat) := []
  deriving DecidableEq, Repr

/-- The rake phase in force (R216, R225, R240): context, step, time of start, the bed groups the SWEEP_RUN's shard table expects
and the telemetry tray it names, bed groups resolved, rejected groups, constants by group, and the step record's sums. -/
structure RakePhase where
  active : Bool := false
  ctx : Nat := 0
  step : Nat := 0
  at0 : Nat := 0
  /-- RSEED of the SWEEP_RUN (R221), and whether the COUNTs of R225 have been set. -/
  rseed : W64 := 0
  counted : Bool := false
  want : List Nat := []
  tele : Nat := 0
  resolved : List Nat := []
  rejected : List Nat := []
  /-- Group, C1, C2, T and the scheduled scalars S0 to S7. -/
  consts : List (Nat × List W32) := []
  applied : Nat := 0
  dups : Nat := 0
  bedmis : Nat := 0
  nonfinite : Nat := 0
  refreshes : Nat := 0
  fallbacks : Nat := 0
  ue : Nat := 0
  stale : Bool := false
  baddesc : Bool := false
  deriving DecidableEq, Repr

/-! ### Saltpan (chapter 12) -/

/-- What sent a request that awaits its response. -/
inductive ReqSrc
  | mover (core mover ring idx loc piece : Nat)
  | psig (core : Nat)
  /-- A store write of a context's harvest (R395). -/
  | store (ctx : Nat)
  /-- A copy of a block of a sequence to the far pool (R205). -/
  | kv (ctx id j : Nat)
  | other
  deriving DecidableEq, Repr

/-- An outstanding request (R277, R281). -/
structure OutReq where
  port : Nat := 0
  tag : Nat := 0
  at0 : Nat := 0
  msg : Msg := {}
  attempt : Nat := 1
  src : ReqSrc := .other
  /-- Data words of an RD that have come. -/
  got : Nat := 0
  deriving DecidableEq, Repr

/-- What a transmitted frame carries (Table 12-3): a message header, a data flit, or a control record. -/
inductive TxBody
  | hdr (m : Msg)
  | data (stream : Nat)
  | replay (fseq : Nat)
  | credit (vc hdrs flits : Nat)
  | train (r : TrainRec)
  | retrain
  | tag (epoch : Bool) (fseq : Nat) (t : List Byte)
  deriving DecidableEq, Repr

/-- A frame kept until FACK covers it (R274). -/
structure TxFrame where
  fseq : Nat := 0
  /-- The FSEQ of the last frame received in order when it was last sent. -/
  fack : Nat := 0
  body : TxBody := .retrain
  replays : Nat := 0
  deriving DecidableEq, Repr

/-- A Saltpan port (R269 to R275, R307, R464). -/
structure Port where
  /-- 0 down, 1 training, 2 up, 3 DEGRADED. -/
  state : Nat := 0
  version : Nat := 0
  lanes : Nat := 0
  encrypt : Bool := false
  transit : Bool := false
  peer : Nat := 0xFFFF
  peerEnc : Bool := false
  presets : Bool := false
  fec : Nat := 0
  replayCtr : Nat := 0
  retrainCtr : Nat := 0
  txb : Nat := 0
  rxb : Nat := 0
  crcCtr : Nat := 0
  txSeq : Nat := 0
  rxSeq : Nat := 0
  txq : List TxFrame := []
  /-- R274: bodies that wait while 1,023 frames are not acknowledged. -/
  outq : List TxBody := []
  /-- R273: the STREAM that the next message with data takes on this hop. -/
  stream : Nat := 0
  /-- R216: credit for update blocks that the port withholds: header slots and data flits. -/
  oweHdr : Nat := 0
  oweData : Nat := 0
  /-- Messages that wait for link credit, in order. -/
  waitq : List Msg := []
  /-- Times of the replays of the last 1 ms (R275). -/
  replayAt : List Nat := []
  crHdr : Tab Nat := []
  crData : Tab Nat := []
  /-- The FSEQ of the first frame of an encrypted group that awaits its tag, and the frames since its last (R464). -/
  groupSeq : Nat := 0
  groupAge : Nat := 0
  groupsTx : Nat := 0
  groupsRx : Nat := 0
  epochTx : Bool := false
  epochRx : Bool := false
  keyedAt : Nat := 0
  /-- A REPLAY has been sent and the expected frame has not come yet. -/
  asked : Bool := false
  /-- Frames of an encrypted group that await its tag. -/
  groupN : Nat := 0
  authFail : Nat := 0
  deriving DecidableEq, Repr

/-- A routing entry (Table 12-8). -/
structure Route where
  port : Nat := 0
  valid : Bool := false
  alt : Nat := 0
  altValid : Bool := false
  self : Bool := false
  transitOk : Bool := false
  hops : Nat := 0
  deriving DecidableEq, Repr

/-- A window (Table 12-9). -/
structure Window where
  base : Nat := 0
  size : Nat := 0
  read : Bool := false
  write : Bool := false
  atom : Bool := false
  v1ok : Bool := false
  owner : Nat := 0
  rctx : Nat := 0
  anyctx : Bool := false
  valid : Bool := false
  nodeLo : Nat := 0
  nodeHi : Nat := 0
  deriving DecidableEq, Repr

/-- The Saltpan interface (R306). -/
structure Salt where
  node : Nat := 0xFFFF
  rspTimeout : Nat := 0x3E8
  routeEpoch : Bool := false
  winEpoch : Bool := false
  late : Nat := 0
  noroute : Nat := 0
  winref : Nat := 0
  swaps : Nat := 0
  badmsg : Nat := 0
  routes : Tab Route := []
  windows : Tab Window := []
  outs : List OutReq := []
  /-- R286: nodes whose VC0 messages are held, and those messages in order with who sent them. -/
  heldNodes : List Nat := []
  held : List (Msg × ReqSrc × Nat) := []
  nextTag : Nat := 0
  /-- Accesses from Saltpan that have passed their checks and wait for a back-invalidate response, in order, with their ports (R324) and the
  count of table swaps at their arrival (R305). -/
  snoopHeld : List (Nat × Msg × Nat) := []
  /-- R278: signals that wait for earlier data of their source, with their ports. -/
  sigHeld : List (Nat × Msg) := []
  /-- Available credit of remote tray slots as the last CREDIT message gave it: node, tray, slot, packets, words. -/
  creditSeen : List (Nat × Nat × Nat × Nat × Nat) := []
  deriving DecidableEq, Repr

/-! ### Host port (chapter 13) -/

/-- Something bound for host memory that is held while the link is down (R332), in order: bytes at an address, and
whether the context's vector follows. -/
structure HeldRec where
  addr : Nat := 0
  bytes : List Byte := []
  irq : Option Nat := none
  /-- The completion record it is: context and record index. -/
  jr : Option (Nat × Nat) := none
  /-- A poisoned line. -/
  bad : Bool := false
  deriving DecidableEq, Repr

/-- The CXL port and the host registers (R313 to R332). -/
structure Cxl where
  ready : Bool := false
  warm : Bool := false
  memActive : Bool := false
  linkloss : Bool := false
  ideReq : Bool := false
  width : Nat := 0
  rate : Nat := 0
  flit256 : Bool := false
  winsel : Nat := 0
  wdrop : Nat := 0
  dbbad : Nat := 0
  htrwait : Nat := 0
  bisnp : Nat := 0
  heldCtr : Nat := 0
  up : Bool := false
  downAt : Option Nat := none
  held : List HeldRec := []
  /-- Host peg sums pending over link loss: the word's address and the sum. -/
  pendSums : List (Nat × Nat) := []
  /-- MSI-X: messages sent by vector, masked vectors, pending bits. -/
  msix : Tab Nat := []
  masked : List Nat := []
  pba : List Nat := []
  hdmBase : Nat := 0
  hdmSize : Nat := 0
  hdmCommitted : Bool := false
  /-- R310: the ways of the decoder's interleave, 1, 2, 4 or 8, and its granularity in bytes. -/
  hdmWays : Nat := 1
  hdmGran : Nat := 256
  /-- R310: the lines of host memory that the device cache owns, oldest first. -/
  dcache : List Nat := []
  /-- R313: the component registers that the host has written, by 8-byte word. -/
  comp : Tab Nat := []
  /-- Snoop filter: 64 B line numbers the host may hold, oldest first, and lines whose BISnp awaits a BIRsp. -/
  snoop : List Nat := []
  snooping : List Nat := []
  /-- R420: the transmitter presets with which the link trained. -/
  txPresets : List Nat := []
  ideStreams : Nat := 1
  ideActive : Nat := 0
  correctable : Bool := false
  uncorrectable : Bool := false
  /-- The MSI-X table by 8-byte word, and the answer to the last CXL.mem request: 0 data, 1 data poison, 2 error. -/
  msixTab : Tab Nat := []
  memRsp : Nat := 0
  deriving DecidableEq, Repr

/-- The session (R337, R344). -/
structure Session where
  opened : Bool := false
  version : Nat := 0
  number : Nat := 0
  anchored : Bool := false
  deriving DecidableEq, Repr

/-! ### Journal, faults, start, identity, service (chapters 17 to 20) -/

/-- A journal entry (Table 18-2). -/
structure JEntry where
  jseq : Nat := 0
  type : Nat := 0
  disp : Nat := 0
  status : Nat := 0
  ctx : Nat := 0
  tray : Nat := 0
  seq : Nat := 0
  idx : Nat := 0
  result : Nat := 0
  ts : Nat := 0
  cmdid : Nat := 0
  op : Nat := 0
  deriving DecidableEq, Repr

/-- A fault record (Table 18-9). -/
structure FRec where
  ts : Nat := 0
  status : Nat := 0
  source : Nat := 0
  action : Nat := 0
  index : Nat := 0
  ctx : Nat := 0
  addr : Nat := 0
  detail : Nat := 0
  seq : Nat := 0
  deriving DecidableEq, Repr

/-- The journal and the fault registers (R448). -/
structure Faults where
  fenceNew : Bool := false
  ueNew : Bool := false
  hwfNew : Bool := false
  jlost : Bool := false
  hostlost : Bool := false
  nwait : Bool := false
  lastCause : Nat := 0
  fenced : List Nat := []
  log : List FRec := []
  lastSeq : Nat := 0
  recCtr : Nat := 0
  jrn : List JEntry := []
  jnext : Nat := 0
  jfull : Nat := 0
  jpaused : Bool := false
  jrepair : Nat := 0
  quiesced : Bool := false
  /-- Table 18-4: JSEQ of the log end at the last start, and the timestamp of the reset request. -/
  startJseq : Nat := 0
  resetAt : Nat := 0
  deriving DecidableEq, Repr

/-- The journal header (Table 17-5) of both copies. -/
structure JHeader where
  valid : Bool := false
  dieId : Nat := 0
  stepping : Nat := 0xB1
  pos : Nat := 0
  bootsrc : Bool := false
  uartv : Bool := false
  node : Nat := 0xFFFF
  starts : Nat := 0
  imgver : Nat := 0
  journalVer : Nat := 0
  s : Nat := 0
  ts : Nat := 0
  cfgDigest : Nat := 0
  deriving DecidableEq, Repr

/-- A measurement (R462): value, change count, time of the last change. -/
structure Meas where
  value : List Byte := []
  changes : Nat := 0
  ts : Nat := 0
  deriving DecidableEq, Repr

/-- The start registers and straps (R408, R424). -/
structure Start where
  warm : Bool := false
  cause : Nat := 0
  phase : Nat := 0
  slot : Nat := 0
  mesh : Bool := false
  nocfg : Bool := false
  selfrepair : Bool := false
  retrained : Bool := false
  waitmesh : Bool := false
  recovery : Bool := false
  stopped : Bool := false
  failst : Nat := 0
  imgver : Nat := 0
  tVerified : Nat := 0
  tMemup : Nat := 0
  tReady : Nat := 0
  pos : Nat := 0
  bootsrc : Bool := false
  uartv : Bool := false
  pwrok : Bool := false
  tripped : Bool := false
  /-- Dister runs: step 4 of Table 17-6, or step 3 of Table 17-7, has passed control to it. -/
  dister : Bool := false
  /-- The last start's inputs: what the flash and the array of the part hold. -/
  inputs : StartInputs := {}
  hdr : JHeader := {}
  /-- Mesh boot of a secondary: the part in transfer, its words so far, and the attempts made (R422). -/
  meshPart : Nat := 0
  meshData : List Byte := []
  meshTries : Nat := 0
  meshDone : List Nat := []
  /-- Position 0: parts it holds by number and die ID, and training records stored by TRAIN_PUT. -/
  parts : List (Nat × Nat × List Byte) := []
  trainPut : Option (Nat × List Byte) := none
  deriving DecidableEq, Repr

/-- An SPDM responder on one link (R457 to R466): 0 to 7 the ports, 8 DOE 0, and for its answers 9 DOE 1. `st`: 0 none, 1 version, 2 capabilities,
3 algorithms, 4 key exchange done, 5 session. -/
structure Spdm where
  st : Nat := 0
  authed : Bool := false
  epoch : Bool := false
  /-- The last response: its code (SPDM's, 0x7F for ERROR) and its content. -/
  rsp : Nat := 0
  data : List Byte := []
  deriving DecidableEq, Repr

/-- Identity and signing (R450 to R466). -/
structure Ident where
  dieId : Nat := 0
  valid : Bool := false
  highPower : Bool := false
  /-- R452: the attestation key, SK.seed, SK.prf and PK.seed. -/
  attKey : List Byte := []
  require : Nat := 0
  allow : Nat := 0
  chains : Tab (List Byte) := []
  meas : Tab Meas := []
  links : Tab Spdm := []
  deriving DecidableEq, Repr

/-- A running self-test (R475). -/
structure Test where
  block : Nat := 0
  test : Nat := 0
  index : Nat := 0
  intrusive : Bool := false
  console : Bool := false
  aseq : Option Nat := none
  /-- R478: the target raised a hardware fault meanwhile. -/
  doomed : Bool := false
  deriving DecidableEq, Repr

/-- The maintenance block (R470 to R480). -/
structure Service where
  locked : Bool := true
  baud : Nat := 115200
  amonSel : Nat := 2
  amonIdx : Nat := 0
  amonOut : Nat := 0
  testok : Bool := false
  running : List Test := []
  lastBlock : Nat := 0
  lastTest : Nat := 0
  lastIndex : Nat := 0
  lastStatus : Nat := 0
  lastConsole : Bool := false
  /-- The block of the last completed test where it failed, else 0 (AMON 0x30). -/
  failBlock : Nat := 0
  data : Nat := 0
  passes : Nat := 0
  fails : Nat := 0
  /-- Lock the console when the running console test ends (R478). -/
  lockAfter : Bool := false
  /-- What the last console command printed: its values in order, and its final status once it has ended (R471). -/
  out : List Nat := []
  final : Option Nat := none
  /-- TEST ALL in progress: whether every test so far passed, and the blocks and indices left. -/
  allPass : Option Bool := none
  allLeft : List (Nat × Nat) := []
  deriving DecidableEq, Repr

/-! ### The whole machine -/

/-- The state of one Brinunte: everything the spec gives the part, plain data throughout. -/
structure State where
  /-- Commands that wait, first in, first out. -/
  pending : List Instr := []
  /-- Timestamp counter in ns (R23). -/
  now : Nat := 0
  /-- Position in the stream of free values (log 4); the model's own field. -/
  freeCtr : Nat := 0
  /-- Local memory, LPDDR5X and the scratchpad aperture, by local address; an unlisted byte reads as zero (log 7). -/
  mem : Tab Byte := []
  /-- Host memory as the port has seen it, by host address. -/
  hostMem : Tab Byte := []
  /-- Poisoned aligned 64 B of LPDDR5X by number, poisoned scratchpad rows as core × 49,152 + row, and poisoned 64 B of
  host memory. -/
  poison : List Nat := []
  badRows : List Nat := []
  hostPoison : List Nat := []
  /-- R144, R152: 64 B of LPDDR5X and scratchpad rows that hold a word with a correctable error, numbered alike. -/
  soft64 : List Nat := []
  softRows : List Nat := []
  /-- R156: channel error counters, packed as Table 7-9, tract modes, and the memory counters. -/
  chanEcc : Tab Nat := []
  tractModes : Tab Nat := []
  wbytes : Nat := 0
  obytes : Nat := 0
  /-- Scratchpad rows accessed (Table 15-3). -/
  rowAcc : Nat := 0
  spSplit : Bool := false
  spReserve : Bool := false
  /-- R60, R212: plot configuration in force, the one waited for, and the count of changes. -/
  plotsz : Nat := 2
  plotNext : Nat := 2
  plotWait : Bool := false
  reconf : Nat := 0
  cores : Tab Core := []
  saved : List Saved := []
  /-- R133: the cores that move a saved state to or from LPDDR5X, or wait to, in order. -/
  moveQ : List Nat := []
  pegs : Tab Peg := []
  pegReqs : List PegReq := []
  pegEpoch : Bool := false
  /-- Counters of Table 11-11 by offset. -/
  pegCtr : Tab Nat := []
  trays : Tab Tray := []
  trayCe : Nat := 0
  trayUe : Nat := 0
  trayUeNew : Bool := false
  nRes : Nat := 16
  /-- Size of host-managed device memory in bytes (R323). -/
  hdmBytes : Nat := 0
  ctxs : Tab Ctx := []
  image : Option Image := none
  draining : Option Nat := none
  units : List WUnit := []
  nextUnit : Nat := 0
  stash : List StashSlot := []
  affinity : List (Nat × Nat × Nat × Nat) := []
  solo : Tab Solo := []
  schedStep : Nat := 0
  schedPhase : Nat := 0
  trellis : Trellis := {}
  rakes : Tab Rake := []
  rakeProgs : Tab (List Nat) := []
  rphase : RakePhase := {}
  /-- The last rake phase ended, as context and step, and RAKE_LASTREC. -/
  lastPhase : Option (Nat × Nat) := none
  lastRec : List Byte := []
  /-- RAKE_GROUP and RAKE_PROGRAM commands held to the end of a phase (R233). -/
  rakeHeld : List (Nat × Nat) := []
  salt : Salt := {}
  ports : Tab Port := []
  cxl : Cxl := {}
  sess : Session := {}
  faults : Faults := {}
  start : Start := {}
  ident : Ident := {}
  svc : Service := {}
  /-- Answers to tray producers on their way: who, status, DUP and SEQ (R168); readers that a flush released with an
  idle packet (R177). -/
  acks : List (Replier × Nat × Bool × Nat) := []
  idles : List (Nat × TrayWaiter) := []
  /-- What the last CLAIM or READ returned to its reader: the entry and the first payload word (R175). -/
  readOut : List Byte := []
  deriving DecidableEq, Repr

/-- The machine right after its reset, before any start: every register at the Reset value of its table, memory with
nothing listed, the queue empty. The events of a start set READY from here (R418, R419). -/
def State.reset : State := {}

/-- Faults: where a command ends because the spec gives the machine no behaviour. -/
inductive Fault
  /-- R493: SYS_RST_N is asserted while the board does not hold the LPDDR5X rails, and the start that follows is
  undefined. Raised by BOARD_RESET. Safe. -/
  | undefinedStart
  deriving DecidableEq, Repr

/-- Refusals. -/
inductive Refusal
  /-- A command whose meaning the model does not give yet; no arm answers it (safe). -/
  | notModelled (mnemonic : String)
  deriving DecidableEq, Repr

end Sys2Proof.Machine
end

