-- ==== Sys2Proof/Machine/Ops.lean ====
section
/-! DEFINITION. The shared operations: reading and updating the parts of the state, local and host memory with poison,
interrupts, the journal, fault records, and the settling of commands. -/

namespace Sys2Proof.Machine

/-! ### Status codes of Table 14-4 -/

def stOK : Nat := 0x0000
def stEXPIRED : Nat := 0x1001
def stCANCELLED : Nat := 0x1002
def stOWNERLOST : Nat := 0x1003
def stBADPARAM : Nat := 0x2001
def stVERSION : Nat := 0x2002
def stPROGFAULT : Nat := 0x2003
def stBADOP : Nat := 0x2004
def stNOMEM : Nat := 0x3001
def stNOCREDIT : Nat := 0x3002
def stNOPEG : Nat := 0x3003
def stNOWIN : Nat := 0x3004
def stNOCTX : Nat := 0x3005
def stBUSY : Nat := 0x4001
def stWRONG : Nat := 0x4002
def stDIGEST : Nat := 0x5001
def stSTEP : Nat := 0x5002
def stUNCORR : Nat := 0x5003
def stLINK : Nat := 0x6001
def stDMAHALT : Nat := 0x6002
def stWINDOW : Nat := 0x6003
def stNOROUTE : Nat := 0x6004
def stAUTH : Nat := 0x7001
def stNOTPERM : Nat := 0x7002
def stHWFAULT : Nat := 0x8001

/-- R341: the dispositions as Table 14-3 codes them. -/
def dDONE : Nat := 0
def dEXPIRED : Nat := 1
def dCANCELLED : Nat := 2
def dFAULTED : Nat := 3

/-- R343: the worse of two statuses. -/
def worse (a b : Nat) : Nat := if a / 4096 < b / 4096 ∨ (a / 4096 = b / 4096 ∧ a % 4096 < b % 4096) then b else a

/-! ### Parts of the state -/

def State.core (s : State) (n : Nat) : Core := tget {} s.cores n
def State.setCore (s : State) (n : Nat) (c : Core) : State := { s with cores := tput {} s.cores n c }
def State.modCore (s : State) (n : Nat) (f : Core → Core) : State := s.setCore n (f (s.core n))
def State.ctx (s : State) (n : Nat) : Ctx := tget {} s.ctxs n
def State.setCtx (s : State) (n : Nat) (c : Ctx) : State := { s with ctxs := tput {} s.ctxs n c }
def State.modCtx (s : State) (n : Nat) (f : Ctx → Ctx) : State := s.setCtx n (f (s.ctx n))
def State.tray (s : State) (n : Nat) : Tray := tget {} s.trays n
def State.setTray (s : State) (n : Nat) (t : Tray) : State := { s with trays := tput {} s.trays n t }
def State.modTray (s : State) (n : Nat) (f : Tray → Tray) : State := s.setTray n (f (s.tray n))
def State.peg (s : State) (n : Nat) : Peg := tget {} s.pegs n
def State.setPeg (s : State) (n : Nat) (p : Peg) : State := { s with pegs := tput {} s.pegs n p }
def State.rake (s : State) (n : Nat) : Rake := tget {} s.rakes n
def State.setRake (s : State) (n : Nat) (r : Rake) : State := { s with rakes := tput {} s.rakes n r }
def State.modRake (s : State) (n : Nat) (f : Rake → Rake) : State := s.setRake n (f (s.rake n))
def State.port (s : State) (n : Nat) : Port := tget {} s.ports n
def State.setPort (s : State) (n : Nat) (p : Port) : State := { s with ports := tput {} s.ports n p }
def State.modPort (s : State) (n : Nat) (f : Port → Port) : State := s.setPort n (f (s.port n))
def State.modCxl (s : State) (f : Cxl → Cxl) : State := { s with cxl := f s.cxl }
def State.modFaults (s : State) (f : Faults → Faults) : State := { s with faults := f s.faults }
def State.modSalt (s : State) (f : Salt → Salt) : State := { s with salt := f s.salt }
def State.modStart (s : State) (f : Start → Start) : State := { s with start := f s.start }
def State.modSvc (s : State) (f : Service → Service) : State := { s with svc := f s.svc }
def State.modIdent (s : State) (f : Ident → Ident) : State := { s with ident := f s.ident }
def State.modTrellis (s : State) (f : Trellis → Trellis) : State := { s with trellis := f s.trellis }
/-- Change the run of a core. -/
def State.modRun (s : State) (n : Nat) (f : Run → Run) : State := s.modCore n fun c => { c with run := f c.run }
/-- Change the engines of a core. -/
def State.modEng (s : State) (n : Nat) (f : Engine → Engine) : State := s.modRun n fun r => { r with eng := f r.eng }

/-- The live contexts in ascending order. -/
def liveCtxs (s : State) : List Nat := (s.ctxs.filter (fun e => e.2.live)).map (·.1)

/-- Time moves on to a deadline that has passed. -/
def reach (s : State) (t : Nat) : State := { s with now := max s.now t }

/-- A fresh position in the stream of free values. -/
def takeFree (s : State) (n : Nat) : State := { s with freeCtr := s.freeCtr + n }

/-! ### Local memory -/

/-- The canonical form of a memory: addresses strictly rising, no entry at the value an unlisted byte reads as. -/
def Memory.wf (m : Tab Byte) : Bool := tabWf 0 m

/-- Write bytes at consecutive addresses. -/
def Memory.write (m : Tab Byte) (a : Nat) : List Byte → Tab Byte
  | [] => m
  | b :: t => Memory.write (tput 0 m a b) (a + 1) t

/-- R153: the LPDDR5X range. -/
def inLp (a n : Nat) : Bool := a + n ≤ 0x00C000000000
/-- R153: the scratchpad aperture. -/
def inAperture (a n : Nat) : Bool := 0x010000000000 ≤ a && a + n ≤ 0x0100C0000000
/-- The core and the absolute row of an aperture address. -/
def apCore (a : Nat) : Nat := (a - 0x010000000000) / 0x01800000
def apRow (a : Nat) : Nat := (a - 0x010000000000) % 0x01800000 / 512
/-- A poisoned row's number. -/
def rowKey (n r : Nat) : Nat := n * 49152 + r

/-- The pieces of a span that poison tracks: 64 B lines of LPDDR5X, rows of scratchpad. -/
def spanLines (unit a n : Nat) : List Nat := if n = 0 then [] else countFrom (a / unit) ((a + n - 1) / unit - a / unit + 1)

/-- The scratchpad rows of an aperture span, as poison keys. -/
def spanRows (a n : Nat) : List Nat := (spanLines 512 (a - 0x010000000000) n)

/-- R144, R152: whether a read of the span finds poison. Rows of the aperture are numbered core × 49,152 + row. -/
def isPoisoned (s : State) (a n : Nat) : Bool :=
  if inLp a n then (spanLines 64 a n).any s.poison.contains
  else if inAperture a n then (spanRows a n).any s.badRows.contains else false

/-- Bytes of local memory. -/
def readMem (s : State) (a n : Nat) : List Byte := bytesAt s.mem a n

/-- The whole units of a span. -/
def wholeLines (unit a n : Nat) : List Nat := (spanLines unit a n).filter (fun l => a ≤ l * unit && (l + 1) * unit ≤ a + n)

/-- R156: bytes of a transfer that the LPDDR5X controllers carry. -/
def lpCount (a n : Nat) : Nat := if inLp a n then n else 0

/-- Table 15-3: scratchpad rows that an access touches. -/
def rowCountOf (a n : Nat) : Nat := if inAperture a n then (spanRows a n).length else 0

/-- Count a read of local memory in MEM_OBYTES (log 42) or among the row accesses. -/
def noteRead (s : State) (a n : Nat) : State := { s with obytes := s.obytes + lpCount a n, rowAcc := s.rowAcc + rowCountOf a n }

/-- Write local memory: a whole 64 B of LPDDR5X, or a whole row, takes the poison mark of the write; a part of a
poisoned 64 B leaves it poisoned (R151, R152), and a part written poisoned poisons it. -/
def writeMem (s : State) (a : Nat) (l : List Byte) (bad : Bool := false) : State :=
  let s1 := { s with mem := Memory.write s.mem a l, obytes := s.obytes + lpCount a l.length, rowAcc := s.rowAcc + rowCountOf a l.length }
  if inLp a l.length then
    if bad then { s1 with poison := (spanLines 64 a l.length).foldl ninsert s.poison }
    else { s1 with poison := s.poison.filter (fun x => !(wholeLines 64 a l.length).contains x)
                   soft64 := s.soft64.filter (fun x => !(wholeLines 64 a l.length).contains x) }
  else if inAperture a l.length then
    let rows := wholeLines 512 (a - 0x010000000000) l.length
    if bad then { s1 with badRows := rows.foldl ninsert s.badRows }
    else { s1 with badRows := s.badRows.filter (fun x => !rows.contains x), softRows := s.softRows.filter (fun x => !rows.contains x) }
  else s1

/-- Write a whole range of local memory given by pieces, as offset and bytes: every other byte of it is zero. -/
def writeSparse (s : State) (a n : Nat) (l : List (Nat × List Byte)) : State :=
  let whole (unit base : Nat) (x : Nat) : Bool := decide (a ≤ base + x * unit) && decide (base + (x + 1) * unit ≤ a + n)
  { s with
    mem := l.foldl (fun m e => Memory.write m (a + e.1) e.2) (s.mem.filter fun e => decide (e.1 < a) || decide (a + n ≤ e.1))
    obytes := s.obytes + lpCount a n
    poison := s.poison.filter fun x => !whole 64 0 x
    soft64 := s.soft64.filter fun x => !whole 64 0 x
    softRows := s.softRows.filter fun x => !whole 512 0x010000000000 x
    badRows := s.badRows.filter fun x => !whole 512 0x010000000000 x }

/-- Little-endian reads of local memory. -/
def readLE (s : State) (a n : Nat) : Nat := leNat (readMem s a n)
/-- Little-endian write. -/
def writeLE (s : State) (a n v : Nat) : State := writeMem s a (leBytes n v)

/-- Several pieces written to LPDDR5X as one write: a 64 B that they cover together is written whole (R151, R223). -/
def writePieces (s : State) (l : List (Nat × List Byte)) : State :=
  let whole (x : Nat) : Bool := (countFrom (x * 64) 64).all fun a => l.any fun e => decide (e.1 ≤ a) && decide (a < e.1 + e.2.length)
  { s with
    mem := l.foldl (fun m e => Memory.write m e.1 e.2) s.mem
    obytes := s.obytes + (l.map fun e => e.2.length).foldl (· + ·) 0
    poison := s.poison.filter fun x => !whole x
    soft64 := s.soft64.filter fun x => !whole x }

/-- R138, R143: the absolute row of a bank's row, and the bank of an absolute row. -/
def bankRow (split : Bool) (bank k : Nat) : Nat :=
  if split then (if bank < 8 then 8 * k + bank else 24576 + 8 * k + (bank - 8)) else 16 * k + bank
def rowBank (split : Bool) (row : Nat) : Nat := if split then (if row < 24576 then row % 8 else 8 + row % 8) else row % 16

/-- R144: a corrected word of a row: counted, and the row enters the rewrite queue of its bank, which holds 4. -/
def correctRow (s : State) (k : Nat) : State :=
  let row := k % 49152
  s.modCore (k / 49152) fun c =>
    let full := decide (4 ≤ (c.rewrite.filter fun r => rowBank s.spSplit r == rowBank s.spSplit row).length)
    { c with spCe := satAdd 0xFFFFFFFFFFFFFFFF c.spCe 1, rewrite := if full || c.rewrite.contains row then c.rewrite else c.rewrite ++ [row] }

/-- R154: first address of the stage heap, and of host-managed device memory. -/
def heapStart (s : State) : Nat := (5 + s.nRes) * 0x30000000
def hdmStart (s : State) : Nat := 0x00C000000000 - s.hdmBytes
/-- R154: the reservoir pool in MiB, from tract 5. -/
def poolStart : Nat := 5 * 0x30000000

/-- A read of LPDDR5X that finds an uncorrectable 64 B counts it in its channel (R152, Table 7-6). -/
def chanOf (s : State) (a : Nat) : Nat :=
  let t := a / 0x30000000
  let off := a % 0x30000000
  let mode := tget 0 s.tractModes t
  let g := if mode = 0 then 12 else if mode = 1 then 6 else if mode = 2 then 4 else if mode = 3 then 3
    else if mode = 4 then 2 else 1
  let j := off / (g * 0x4000000)
  let u := off % (g * 0x4000000) / 256
  8 * (g * j + u % g) + u / g % 8

/-- Count a correction and an uncorrectable read on a channel (Table 7-9). -/
def countChan (s : State) (ch ce ue : Nat) : State :=
  let v := tget 0 s.chanEcc ch
  let ce' := satAdd 0xFFFFFFFF (bitsAt v 0 32) ce
  let ue' := satAdd 0xFFFF (bitsAt v 32 16) ue
  let nw := if ue = 0 then bitsAt v 48 1 else 1
  { s with chanEcc := tput 0 s.chanEcc ch (ce' + ue' * 2 ^ 32 + nw * 2 ^ 48) }

/-- R144, R147: an uncorrectable read of a row, by control traffic or not. -/
def noteRow (s : State) (k : Nat) (control : Bool) : State :=
  s.modCore (k / 49152) fun c =>
    { c with ueRow := k % 49152, ueControl := control, ueWeed := false, ueValid := true, spUe := satAdd 0xFFFFFFFFFFFFFFFF c.spUe 1 }

/-- Count the errors of a read of a span where they lie (R144, R147, R152): the words that it corrects, which are written back or queued
for it, and the uncorrectable ones. -/
def noteBad (s : State) (a n : Nat) : State :=
  if inLp a n then
    let ls := spanLines 64 a n
    let soft := ls.filter fun l => s.soft64.contains l && !s.poison.contains l
    let s1 := (ls.filter s.poison.contains).foldl (fun s l => countChan s (chanOf s (l * 64)) 0 1) s
    { (soft.foldl (fun s l => countChan s (chanOf s (l * 64)) 1 0) s1) with soft64 := s.soft64.filter fun l => !soft.contains l }
  else if inAperture a n then
    let rs := spanRows a n
    let s1 := (rs.filter s.badRows.contains).foldl (fun s k => noteRow s k false) s
    (rs.filter fun k => s.softRows.contains k && !s.badRows.contains k).foldl correctRow s1
  else s

/-- A read of local memory with what it counts: its traffic and its errors. -/
def readIn (s : State) (a n : Nat) : State := noteBad (noteRead s a n) a n

/-! ### Interrupts (R322) -/

/-- Raise an MSI-X vector; a masked one sets its pending bit. -/
def raiseVec (s : State) (v : Nat) : State :=
  if s.cxl.masked.contains v then s.modCxl fun x => { x with pba := ninsert x.pba v }
  else s.modCxl fun x => { x with msix := tput 0 x.msix v (tget 0 x.msix v + 1) }

/-- Raise a context's vector at most once per INT_HOLDOFF. -/
def raiseCtx (s : State) (c : Nat) : State :=
  let x := s.ctx c
  let held := match x.lastIrq with
    | some t => decide (s.now < t + x.holdoff * 1000)
    | none => false
  if held then s.modCtx c fun x => { x with irqHeld := true }
  else (raiseVec s x.vector).modCtx c fun x => { x with lastIrq := some s.now, irqHeld := false }

/-! ### Host memory (R317, R332) -/

def readHost (s : State) (a n : Nat) : List Byte := bytesAt s.hostMem a n
def readHostLE (s : State) (a n : Nat) : Nat := leNat (readHost s a n)

/-- What the host made visible before a doorbell. -/
def applyHost (s : State) (d : Cells) : State := { s with hostMem := d.foldl (fun m e => tput 0 m e.1 e.2) s.hostMem }

/-- Write host memory now. -/
def putHost (s : State) (a : Nat) (l : List Byte) (bad : Bool := false) : State :=
  let lines := spanLines 64 a l.length
  { s with
    hostMem := Memory.write s.hostMem a l
    hostPoison := if bad then lines.foldl ninsert s.hostPoison
      else s.hostPoison.filter (fun x => !(wholeLines 64 a l.length).contains x) }

/-- R310, R258: the device cache takes ownership of a line of host memory with RdOwn, for an addition in it; it holds 16,384 lines, and the
oldest one leaves (DESIGN CHOICE, log 104). -/
def ownLine (s : State) (a : Nat) : State :=
  let l := (s.cxl.dcache.filter (· != a / 64)) ++ [a / 64]
  s.modCxl fun x => { x with dcache := l.drop (l.length - 16384) }

/-- Append a journal entry in JSEQ order, in both copies (R155, R430, R431). -/
def jAppend (s : State) (e : JEntry) : State :=
  ({ s with obytes := s.obytes + 128 } : State).modFaults fun f =>
    { f with jrn := f.jrn ++ [{ e with jseq := f.jnext, ts := s.now }], jnext := f.jnext + 1 }

/-- R433: whether the item of an entry is finished. -/
def jDone (s : State) (e : JEntry) : Bool :=
  if e.type < 0x11 then
    let gone (i : Nat) : Nat := ((s.ctx e.ctx).cmplHead + 2 ^ 32 - i % 2 ^ 32) % 2 ^ 32
    let read (i : Nat) : Bool := (gone i != 0 && decide (gone i < 2 ^ 31)) || !(if e.ctx = 0 then s.sess.anchored else (s.ctx e.ctx).live)
    if e.type = 0x04 then read e.idx
    else s.faults.jrn.any (fun x => x.type == 0x03 && x.ctx == e.ctx && x.seq == e.seq && read x.idx)
  else s.faults.jrn.any (fun x => x.type == 0x15 && x.tray == e.tray && x.seq == e.seq)

/-- R433: the oldest kept entry advances past finished items. -/
def jAdvance (s : State) : State :=
  s.modFaults fun f => { f with jrn := f.jrn.dropWhile (jDone s) }

/-- R448: log entries kept, and R433's pause of acceptance. -/
def jUsed (s : State) : Nat := match s.faults.jrn with
  | [] => 0
  | e :: _ => s.faults.jnext - e.jseq
def jfull (s : State) : Bool := jUsed s ≥ 950272 - 4096

/-- The 64 bytes of a journal entry (Table 18-2). -/
def JEntry.bytes (e : JEntry) : List Byte :=
  let b := leBytes 8 e.jseq ++ leBytes 1 e.type ++ leBytes 1 e.disp ++ leBytes 2 e.status ++ leBytes 2 e.ctx
    ++ leBytes 2 e.tray ++ leBytes 4 e.seq ++ leBytes 4 e.idx ++ leBytes 8 e.result ++ leBytes 8 e.ts
    ++ leBytes 4 e.cmdid ++ leBytes 1 e.op ++ fillBytes 15 0
  b ++ leBytes 4 (crc32c b).toNat

/-- R445: the area that holds records over link loss is full. -/
def heldFull (s : State) : Bool := !s.cxl.up && decide (8388608 ≤ s.cxl.held.length)

/-- R332: write a record bound for host memory, or hold it while the link is down. -/
def toHost (s : State) (r : HeldRec) : State :=
  if s.cxl.up then
    let s1 := putHost s r.addr r.bytes r.bad
    let s2 := match r.jr with
      | some (c, i) =>
        jAppend s1 { type := 0x04, ctx := c, seq := leNat ((r.bytes.drop 12).take 4), idx := i, cmdid := leNat (r.bytes.take 4),
                     op := leNat ((r.bytes.drop 4).take 1) }
      | none => s1
    match r.irq with
    | some c => raiseCtx s2 c
    | none => s2
  else s.modCxl fun x => { x with held := x.held ++ [r], heldCtr := x.heldCtr + 1, linkloss := true }

/-! ### Fault records (R447) -/

/-- Log a fault record and raise vector 0; the copy to tray 3 is `reportFault`. -/
def logFault (s : State) (r : FRec) : State :=
  let rec' := { r with ts := s.now, seq := (s.faults.lastSeq + 1) % 2 ^ 32 }
  raiseVec (s.modFaults fun f =>
    { f with log := (f.log ++ [rec']).drop (f.log.length + 1 - 65536), lastSeq := rec'.seq, recCtr := f.recCtr + 1 }) 0

/-- The 64 bytes of a fault record (Table 18-9). -/
def FRec.bytes (r : FRec) : List Byte :=
  leBytes 8 r.ts ++ leBytes 2 r.status ++ leBytes 1 r.source ++ leBytes 1 r.action ++ leBytes 2 r.index
    ++ leBytes 2 r.ctx ++ leBytes 8 r.addr ++ leBytes 4 r.detail ++ leBytes 4 r.seq ++ fillBytes 32 0

/-! ### Commands: acceptance numbers and records (R337 to R341, R359) -/

/-- The completion record (Table 14-3). -/
def recordBytes (x : Ctx) (c : Nat) (k : Cmd) (disp status result now : Nat) : List Byte :=
  let phase := if x.cmplIdx / 2 ^ x.cmplLog2 % 2 = 0 then 4 else 0
  leBytes 4 k.hdr.cmdid ++ leBytes 1 k.op ++ leBytes 1 (disp + phase) ++ leBytes 2 c ++ leBytes 2 status
    ++ leBytes 2 0 ++ leBytes 4 k.aseq ++ leBytes 8 (if disp = dDONE then result else 0) ++ leBytes 8 now

/-- Settle an accepted command of context `c`: journal, record, interrupt (R359, R431, R339). -/
def settle (s : State) (c aseq disp status result : Nat) : State :=
  match (s.ctx c).cmds.find? (fun k => k.aseq == aseq) with
  | none => s
  | some k =>
    let x := s.ctx c
    let r := if disp = dDONE then result else 0
    let s1 := jAppend s { type := 0x03, disp := disp, status := status, ctx := c, seq := aseq, idx := x.cmplIdx,
                          result := r, cmdid := k.hdr.cmdid, op := k.op }
    let s2 := s1.modCtx c fun x => { x with cmds := delFirst (fun k => k.aseq == aseq) x.cmds, cmplIdx := x.cmplIdx + 1 }
    toHost s2 { addr := x.cmplBase + x.cmplIdx % 2 ^ x.cmplLog2 * 32, bytes := recordBytes x c k disp status r s.now,
                irq := if k.hdr.flags % 2 = 1 then some c else none, jr := some (c, x.cmplIdx) }

/-- A refusal settles FAULTED with its status. -/
def refuse (s : State) (c aseq status : Nat) : State := settle s c aseq dFAULTED status 0

/-- Change an accepted command. -/
def modCmd (s : State) (c aseq : Nat) (f : Cmd → Cmd) : State :=
  s.modCtx c fun x => { x with cmds := modFirst (fun k => k.aseq == aseq) f x.cmds }

/-- Little-endian field of a command's parameters, `off` from the first parameter byte. -/
def Cmd.fld (k : Cmd) (off n : Nat) : Nat := leNat ((k.par.drop off).take n)

/-- R317, R349: the range lies in the context's host regions with the permission. -/
def inRegion (x : Ctx) (a n : Nat) (write : Bool) : Bool :=
  x.regions.any fun e => (if write then e.2.write else e.2.read) && e.2.base ≤ a && a + n ≤ e.2.base + e.2.size

/-- R325: the range lies in an HDM grant of the context with the permission. -/
def inGrant (s : State) (x : Ctx) (a n : Nat) (write : Bool) : Bool :=
  x.grants.any fun e =>
    (if write then e.2.write else e.2.read) && hdmStart s + e.2.base ≤ a && a + n ≤ hdmStart s + e.2.base + e.2.size

/-- R134: the bytes of a save slot. -/
def slotBytes : Nat := 2490368

/-- R135: whether a range touches a save slot of a context that satisfies `p`. -/
def inSlot (s : State) (p : Nat → Bool) (a n : Nat) : Bool :=
  s.ctxs.any fun e => p e.1 && e.2.slots.any fun b => decide (a < b + slotBytes) && decide (b < a + n)

/-- Whether an LPDDR5X range is memory that the context may reach: the stage heap but for other contexts' save slots, or an HDM grant
(R135, R154, R325). -/
def ctxMem (s : State) (c a n : Nat) (write : Bool) : Bool :=
  inLp a n && ((heapStart s ≤ a && a + n ≤ hdmStart s && !inSlot s (· != c) a n) || (hdmStart s ≤ a && inGrant s (s.ctx c) a n write))

/-! ### SCHED and measurement helpers -/

/-- R462: set a measurement. -/
def setMeas (s : State) (i : Nat) (v : List Byte) : State :=
  s.modIdent fun d =>
    let old : Meas := tget {} d.meas i
    if old.value = v then d else { d with meas := tput {} d.meas i { value := v, changes := old.changes + 1, ts := s.now } }

/-- R212: occupied MiB of a context's local KV pool. -/
def kvUsed (x : Ctx) : Nat := ((x.seqs.filter (fun q => q.st ≥ 3)).map Seqn.locB).foldl (· + ·) 0
def kvFarUsed (x : Ctx) : Nat := ((x.seqs.filter (fun q => q.st ≥ 3)).map Seqn.farB).foldl (· + ·) 0

end Sys2Proof.Machine
end

