-- ==== Sys2Proof/Machine/Pegs.lean ====
section
/-! DEFINITION. Pegs (chapter 11): signals, waits, arrivals and presets at the home peg unit, their release rules, host
pegs, the acceptance rules of R256, and what a generation swap changes. -/

namespace Sys2Proof.Machine

/-- Count on a chip-wide peg counter (Table 11-11). -/
def pegCount (s : State) (off n : Nat) : State := { s with pegCtr := tput 0 s.pegCtr off (tget 0 s.pegCtr off + n) }

/-- Who signalled (LAST_NODE, LAST_KIND, LAST_UNIT). -/
structure Signaller where
  node : Nat
  kind : Nat
  unit : Nat

/-- R245 to R247: whether a wait is satisfied by the peg as it stands. -/
def Peg.meets (p : Peg) (w : Wait) : Bool :=
  if p.mode = 1 then w.k ≤ p.value else if p.mode = 2 then p.value == 1 else p.phases != w.phases

/-- What a consuming wait takes from the peg. -/
def Peg.take (p : Peg) (w : Wait) : Peg := if p.mode = 1 then { p with value := p.value - w.k } else if p.mode = 2 then { p with value := 0 } else p

/-- R245, second step: the consuming waits in order of arrival. -/
def releaseConsuming : Peg → List Wait → Peg × List Wait × List (Waiter × Nat)
  | p, [] => (p, [], [])
  | p, w :: t =>
    if p.meets w then
      let p' := p.take w
      let (q, keep, rel) := releaseConsuming p' t
      (q, keep, (w.who, p'.value) :: rel)
    else
      let (q, keep, rel) := releaseConsuming p t
      (q, w :: keep, rel)

/-- R245: the peg after its waiters are released, and the waiters released with VALUE (PHASES for a barrier) at their
release. -/
def Peg.release (p : Peg) : Peg × List (Waiter × Nat) :=
  let plain := p.waits.filter (fun w => (!w.consume || p.mode == 3) && p.meets w)
  let rest := p.waits.filter (fun w => !((!w.consume || p.mode == 3) && p.meets w))
  let out := plain.map fun w => (w.who, if p.mode = 3 then p.phases else p.value)
  let (q, keep, rel) := releaseConsuming { p with waits := [] } (rest.filter Wait.consume)
  let keepPlain := rest.filter (fun w => !w.consume)
  ({ q with waits := rest.filter (fun w => keep.contains w || keepPlain.contains w) }, out ++ rel)

/-- R244, R246, R247: a signal of AMOUNT n applied to the peg. -/
def Peg.signal (p : Peg) (n : Nat) : Peg :=
  if p.mode = 1 then
    if p.value + n > 0xFFFFFFFF then { p with value := 0xFFFFFFFF, overflow := true } else { p with value := p.value + n }
  else if p.mode = 2 then { p with value := 1, doubled := p.doubled || p.value == 1 || decide (1 < n) }
  else
    let total := p.arrived + n
    let flips := total / p.parties
    { p with arrived := total % p.parties, sense := if flips % 2 = 1 then !p.sense else p.sense
             phases := (p.phases + flips) % 2 ^ 31 }

/-- Stamp the last signaller. -/
def Peg.stamp (p : Peg) (now : Nat) (g : Signaller) : Peg :=
  { p with lastTs := now, lastNode := g.node, lastKind := g.kind, lastUnit := g.unit }

/-- Mark a core's oldest unexecuted word of a unit executed. -/
def markDone (s : State) (n u : Nat) : State :=
  s.modRun n fun r => { r with q := modFirst (fun e => e.unit == u && e.gate.isNone && !e.done) (fun e => { e with done := true }) r.q }

/-- The waiter's own side of a release. -/
def releaseOne (s : State) (w : Waiter × Nat) : State :=
  match w.1 with
  | .core n =>
    let s1 := s.modRun n fun r =>
      let slots := if r.peg.state = 3 then
          match r.q.find? (fun e => e.unit == 10 && e.gate.isNone && !e.done) with
          | some e => modAt r.peg.slots (bitsAt e.word.toNat 20 2) (fun _ => none)
          | none => r.peg.slots
        else r.peg.slots
      { r with peg := { r.peg with state := 0, slots := slots } }
    markDone s1 n 10
  | .rake r => s.modRake r fun k =>
      { k with queue := modFirst (fun b => b.waiting && !b.pegOk) (fun b => { b with pegOk := true, waiting := false }) k.queue }
  | .host c aseq => settle s c aseq dDONE stOK w.2

/-- Put a peg back and release its waiters. -/
def releasePeg (s : State) (phys : Nat) (p : Peg) : State :=
  let (q, rel) := p.release
  rel.foldl releaseOne (s.setPeg phys q)

/-- R244 to R247: apply a signal at the home peg unit; a phase flip is part of it. -/
def applySignal (s : State) (phys n : Nat) (g : Signaller) : State :=
  let p := s.peg phys
  let s1 := pegCount s 0x008 1
  let s2 := if p.mode = 1 ∧ p.value + n > 0xFFFFFFFF then pegCount s1 0x020 1 else s1
  let s3 := if p.mode = 2 ∧ (p.doubled ∨ p.value = 1 ∨ 1 < n) then pegCount s2 0x028 1 else s2
  -- the first flip releases every wait held before it, with PHASES as that flip leaves it; the arrivals that follow count on
  let p' := (p.signal n).stamp s.now g
  if p.mode = 3 ∧ p.parties ≤ p.arrived + n then
    (p.waits.map (fun w => (w.who, (p.phases + 1) % 2 ^ 31))).foldl releaseOne (s3.setPeg phys { p' with waits := [] })
  else releasePeg s3 phys p'

/-- R248: apply a preset. -/
def applyPreset (s : State) (phys v : Nat) (g : Signaller) : State :=
  releasePeg (pegCount s 0x008 1) phys
    ({ (s.peg phys) with value := v, overflow := false, doubled := false }.stamp s.now g)

/-- R245: a wait reaches the peg. -/
def applyWait (s : State) (phys : Nat) (w : Wait) : State :=
  let p := s.peg phys
  releasePeg s phys { p with waits := p.waits ++ [w] }

/-- R249: the physical peg of a context's VPID. -/
def vpidPhys (s : State) (c v : Nat) : Option Nat := ((s.ctx c).vpids.find? (fun e => e.1 == v)).map (·.2)

/-- R249, R251: a VPID that is mapped to a peg that is not FREEING. -/
def vpidOk (s : State) (c v : Nat) : Option Nat :=
  match vpidPhys s c v with
  | some p => if (s.peg p).freeing then none else some p
  | none => none

/-- R256: the status of a signal that is not a checked PSIG word; `own` says that it comes from the owning context on
its own node. -/
def signalCheck (s : State) (c v n srcNode : Nat) (own : Bool) : Nat × Nat :=
  match vpidOk s c v with
  | none => (stBADPARAM, 0)
  | some p =>
    let g := s.peg p
    if n = 0 then (stBADPARAM, p)
    else if !own && !g.remote then (stBADPARAM, p)
    else if !own && !(g.nodeLo ≤ srcNode && srcNode ≤ g.nodeHi) then (stAUTH, p)
    else if g.poisoned then (stOWNERLOST, p)
    else (stOK, p)

/-- R256: a signal at its target: applied, or discarded, counted and refused. -/
def targetSignal (s : State) (c v n : Nat) (own : Bool) (g : Signaller) : State × Nat :=
  let (st, p) := signalCheck s c v n g.node own
  if st = stOK then (applySignal s p n g, stOK) else (pegCount s 0x010 1, st)

/-! ### Host pegs (R258) -/

/-- Write the event record of a host peg signal, or drop it when the ring is full. -/
def hostEvent (s : State) (c h v : Nat) : State :=
  let x := s.ctx c
  let s1 := s.modCtx c fun x => { x with evSeq := (x.evSeq + 1) % 2 ^ 32 }
  if (x.evSeq + 2 ^ 32 - x.evrHead) % 2 ^ 32 ≥ 2 ^ x.evrLog2 || heldFull s then pegCount s1 0x030 1
  else toHost s1 { addr := x.evrBase + x.evSeq % 2 ^ x.evrLog2 * 16
                   bytes := leBytes 8 v ++ leBytes 2 h ++ leBytes 2 c ++ leBytes 4 x.evSeq, irq := some c }

/-- R258: a host peg signal. While the link is down its AMOUNT joins the word's pending sum, and its event record is held with the value
that the word has as the port last saw it and the sum (R332, DESIGN CHOICE log 88). -/
def hostPegSignal (s : State) (c h n : Nat) (notify : Bool) : State :=
  let a := (s.ctx c).hpegBase + 8 * h
  if s.cxl.up then
    let v := (readHostLE s a 8 + n) % 2 ^ 64
    let s1 := putHost (ownLine s a) a (leBytes 8 v)
    if notify then hostEvent s1 c h v else s1
  else
    let sum := (((s.cxl.pendSums.find? fun e => e.1 == a).elim 0 (·.2)) + n) % 2 ^ 64
    let s1 := s.modCxl fun x => { x with pendSums := x.pendSums.filter (fun e => e.1 != a) ++ [(a, sum)] }
    if notify then hostEvent s1 c h ((readHostLE s a 8 + sum) % 2 ^ 64) else s1

/-! ### Generation swap (R250) and the allocation of pegs (R262) -/

/-- R249: where a generation lies, and the entry of a VPID in it. -/
def vpidBase (epoch : Bool) : Nat := if epoch then 0xDC000000 else 0xC4000000
def vpidEntry (s : State) (c v : Nat) : Nat := match vpidPhys s c v with
  | some p => p + 2 ^ 18
  | none => 0

/-- Write the entries of a context's VPIDs into a generation. -/
def writeVpids (s : State) (epoch : Bool) (c : Nat) (vs : List Nat) : State :=
  vs.foldl (fun s v => writeLE s (vpidBase epoch + 4 * (c * 4096 + v)) 4 (vpidEntry s c v)) s

/-- R250: a swap of the translation tables, whole, as one step (log 89): the changed entries go to the standby generation, the epoch
inverts, and the changes are copied into the old one. -/
def pegSwap (s : State) (c : Nat) (vs : List Nat) : State :=
  let s1 := writeVpids s (!s.pegEpoch) c vs
  pegCount (writeVpids { s1 with pegEpoch := !s.pegEpoch } s.pegEpoch c vs) 0x038 1

/-- Free physical pegs from `p` on, at most `n`. -/
def scanFree (s : State) : Nat → Nat → Nat → List Nat
  | 0, _, _ => []
  | fuel + 1, n, p =>
    if n = 0 then []
    else if (s.peg (p % 262144)).mode = 0 then p % 262144 :: scanFree s fuel (n - 1) (p + 1)
    else scanFree s fuel n (p + 1)

/-- R267: physical pegs in the pool. -/
def pegsFree (s : State) : Nat := 262144 - (s.pegs.filter (fun e => e.2.mode ≠ 0)).length

/-- Physical pegs that a context owns. -/
def ownedPegs (s : State) (c : Nat) : List Nat := (s.pegs.filter (fun e => e.2.mode ≠ 0 && e.2.owner == c)).map (·.1)

/-- The row that holds a peg's record, as a poison key (R243). -/
def pegRow (p : Nat) : Nat := rowKey (p / 2048) (43776 + p % 2048 / 8)

/-- R251, R262: free VPIDs: the pegs return to the pool with their swap, their records are rewritten (Table 18-7), and a request in flight
to one of them will be refused. -/
def freePegs (s : State) (c : Nat) (vs : List Nat) : State :=
  let ph := vs.filterMap (vpidPhys s c)
  let s0 := { s with badRows := s.badRows.filter fun k => !(ph.map pegRow).contains k
                     pegReqs := s.pegReqs.map fun (r : PegReq) => if ph.contains r.phys then { r with dead := true } else r }
  let s1 := ph.foldl (fun s p => s.setPeg p {}) s0
  s1.modCtx c fun x => { x with vpids := x.vpids.filter (fun e => !vs.contains e.1) }

/-- R262, R261: the value of a reset. -/
def Peg.resetTo (p : Peg) : Peg := { p with value := p.init, arrived := 0, overflow := false, doubled := false }

/-- R260: poison every peg of a context and remove its waiters without satisfying them. The PEG_WAIT commands settle
FAULTED with ST_OWNER_LOST. -/
def poisonPegs (s : State) (c : Nat) : State :=
  let ps := ownedPegs s c
  let hosts := ((s.ctx c).cmds.filter (fun k => k.op == 0x62 && k.started)).map Cmd.aseq
  let s1 := ps.foldl (fun s p => s.setPeg p { s.peg p with poisoned := true, waits := [] }) s
  let s2 := pegCount { s1 with pegReqs := s1.pegReqs.filter (fun r => r.ctx != c) } 0x040 ps.length
  hosts.foldl (fun s a => settle s c a dFAULTED stOWNERLOST 0) s2

/-- Take a host wait or rake wait off its peg. -/
def dropWait (s : State) (who : Waiter) : State :=
  { s with pegs := s.pegs.map fun e => (e.1, { e.2 with waits := e.2.waits.filter (fun w => w.who != who) }) }

/-- The 64 bytes of a peg record (Table 11-1) with the copy time of a dump at 0x38. -/
def Peg.bytes (p : Peg) (copyAt : Nat) : List Byte :=
  let cores := p.waits.foldl (fun n w => match w.who with | .core k => n ||| 2 ^ k | _ => n) 0
  let rakes := p.waits.foldl (fun n w => match w.who with | .rake k => n ||| 2 ^ k | _ => n) 0
  let hosts := (p.waits.filter (fun w => match w.who with | .host _ _ => true | _ => false)).length
  leBytes 4 p.value
    ++ leBytes 4 (p.mode + 4 * b2n p.overflow + 8 * b2n p.doubled + 16 * b2n p.poisoned + 32 * b2n p.remote
        + 64 * b2n p.periodic + 128 * b2n p.freeing + 256 * p.owner + 2 ^ 20 * p.vpid)
    ++ leBytes 2 p.parties ++ leBytes 2 p.arrived ++ leBytes 4 (b2n p.sense + 2 * p.phases) ++ leBytes 8 p.lastTs
    ++ leBytes 2 p.lastNode ++ leBytes 2 (p.lastKind + 16 * p.lastUnit) ++ leBytes 2 p.nodeLo ++ leBytes 2 p.nodeHi
    ++ leBytes 16 cores ++ leBytes 1 rakes ++ leBytes 1 hosts ++ leBytes 2 0 ++ leBytes 4 p.init ++ leBytes 8 copyAt

end Sys2Proof.Machine
end

