-- ==== Sys2Proof/Machine/Saves.lean ====
section
/-! DEFINITION. Save slots (R133 to R136): where a saved state lies, its bytes in the layout of Tables 6-13 and 6-14, and the order in
which cores move state to and from LPDDR5X. The places of the items inside a region of Table 6-13 are the model's (log 86). -/

namespace Sys2Proof.Machine

/-! ### The header (Table 6-14) -/

/-- A pair of 32-bit counts: UNIT_COUNTn. -/
def unitCount (r : Run) (u : Nat) : List Byte := leBytes 4 (tget 0 r.issued u) ++ leBytes 4 (tget 0 r.done u)

/-- A loop level: 12 bytes, zero where no loop runs in it. -/
def loopBytes : Option LoopSt → List Byte
  | some l => leBytes 2 l.iter ++ leBytes 2 l.count ++ leBytes 4 l.start ++ leBytes 4 (l.body % 256 + 256)
  | none => fillBytes 12 0

/-- The register offsets of the counters of Table 6-14, in order. -/
def savedCounters : List Nat :=
  [0x200, 0x208, 0x210, 0x218, 0x220, 0x228, 0x230, 0x238, 0x280, 0x288, 0x290, 0x298, 0x2A0, 0x2C0, 0x2C8, 0x2D0, 0x2D8, 0x18, 0x20, 0x28, 0x30]

/-- The words fetched or in a loop buffer that are not dispatched yet, and then the GATE words that are held, in 1 KiB. -/
def fetchBytes (r : Run) : List Byte :=
  (((r.prog.drop r.pos).map (·.2) ++ (r.q.filter fun e => e.gate.isSome).map QWord.word).flatMap fun w => leBytes 16 w.toNat).take 1024

/-- The header of a saved state, as offset and bytes. -/
def headerPieces (v : Saved) : List (Nat × List Byte) :=
  let r := v.run
  let loops := r.loops.reverse
  [(0x000, leBytes 8 (1 + v.ctx * 2 ^ 16 + v.core * 2 ^ 28 + v.plotsz * 2 ^ 35 + v.core / (4 * 2 ^ v.plotsz) * 2 ^ 38)),
   (0x008, leBytes 8 v.at0), (0x010, leBytes 8 r.progPc),
   (0x018, loopBytes loops[0]? ++ loopBytes loops[1]?),
   (0x030, (countFrom 1 10).flatMap (unitCount r)),
   (0x080, leBytes 8 (r.rowBase + r.rowCount * 2 ^ 16)),
   (0x090, (List.range 16).flatMap fun i => leBytes 8 (tget 0 r.seeds i).toNat),
   (0x110, leBytes 4 r.eng.flags.toNat ++ leBytes 4 r.eng.trap.toNat ++ leBytes 4 r.eng.satcnt),
   (0x120, savedCounters.flatMap fun o => leBytes 8 (tget 0 r.eng.ctr o)),
   (0x400, fetchBytes r)]

/-! ### The engines' regions -/

/-- A buffer with its scale plane: elements from the start, scales from `so` on. -/
def bufPieces (at' so : Nat) (b : SBuf) : List (Nat × List Byte) := [(at', b.elem), (at' + so, b.scale)]

/-- Accumulator entries of `per` values each, and their type tags at `tags`, one bit an entry. -/
def accPieces (at' per tags n : Nat) (acc : Tab AccEnt) : List (Nat × List Byte) :=
  (acc.flatMap fun e => e.2.v.map fun x => (at' + (e.1 * per + x.1) * 4, leBytes 4 x.2.toNat))
    ++ [(tags, leBytes (n / 8) (((acc.filter fun e => e.2.int).map fun e => 2 ^ e.1).foldl (· + ·) 0))]

/-- The vectors of a queue, 144 B apart. -/
def queuePieces (at' : Nat) (l : List InItem) : List (Nat × List Byte) :=
  let vs := l.filterMap fun i => match i with | .vec b _ => some b | .mark => none
  ((List.range vs.length).zip vs).map fun e => (at' + 144 * e.1, e.2)

/-- The word of unit `u` that has taken some of its vectors: how many (the AMUL or FMUL position). -/
def posOf (r : Run) (u : Nat) : Nat := ((r.q.find? fun e => e.unit == u && e.gate.isNone && !e.done).map fun e => e.taken.length).getD 0

/-- The state of Table 3-12 in table order, from the start of its region. -/
def arrayPieces (r : Run) : List (Nat × List Byte) :=
  let e := r.eng
  let group := ((r.q.find? fun w => w.unit == 2 && w.gate.isNone && !w.done && wf w.word 15 1 == 1).map QWord.taken).getD []
  bufPieces 0 0x8000 e.sb0 ++ bufPieces 0x9000 0x8000 e.sb1 ++ accPieces 0x12000 256 0x212000 2048 e.acc ++ queuePieces 0x212100 e.intake
    ++ (((List.range group.length).zip group).map fun g => (0x214500 + 144 * g.1, g.2))
    ++ [(0x226500, leBytes 2 (posOf r 2) ++ leBytes 2 e.pass01 ++ leBytes 2 e.pass23
          ++ leBytes 2 (b2n e.sb0.full + 2 * b2n e.sb1.full) ++ leBytes 1 e.sb0.fmt ++ leBytes 1 e.sb1.fmt
          ++ ((r.q.filter fun w => [1, 2, 3].contains w.unit).flatMap fun w => leBytes 16 w.word.toNat).take 144)]

/-- The state of Table 5-12 in table order. -/
def furrowPieces (r : Run) : List (Nat × List Byte) :=
  let e := r.eng
  bufPieces 0 0x800 e.rb0 ++ bufPieces 0x900 0x800 e.rb1 ++ accPieces 0x1200 16 0x11200 1024 e.facc ++ queuePieces 0x11280 e.direct
    ++ [(0x12480, leBytes 2 (posOf r 5) ++ leBytes 2 (b2n e.rb0.full + 2 * b2n e.rb1.full) ++ leBytes 1 e.rb0.fmt ++ leBytes 1 e.rb1.fmt
          ++ leBytes 2 e.rvec ++ ((r.q.filter fun w => [4, 5, 6].contains w.unit).flatMap fun w => leBytes 16 w.word.toNat).take 144)]
    ++ (e.vreg.map fun x => (0x12520 + x.1 * 4, leBytes 4 x.2.toNat))
    ++ (List.range 8).map fun m =>
        (0x22520 + 64 * m, leBytes 64 (((e.mreg.filter fun x => x.1 / 512 == m && x.2).map fun x => 2 ^ (x.1 % 512)).foldl (· + ·) 0))

/-- Ring positions, the descriptors in progress with their offsets, and the peg unit. -/
def moverPieces (r : Run) : List (Nat × List Byte) :=
  let ring (x : Ring) : List Byte :=
    leBytes 8 x.base ++ leBytes 4 x.released ++ leBytes 4 x.started ++ leBytes 4 x.next ++ leBytes 1 x.log2n ++ leBytes 1 x.retry
      ++ leBytes 2 (b2n x.bound + 2 * b2n x.halted)
      ++ ((x.live.flatMap fun d => leBytes 4 d.idx ++ leBytes 4 d.vpos ++ leBytes 4 d.pend.length ++ leBytes 4 d.attempts) ++ fillBytes 64 0).take 64
  let peg := r.peg
  [(0x000, (r.mov0.rings ++ r.mov1.rings).flatMap ring),
   (0x400, leBytes 4 peg.state ++ leBytes 4 peg.vpid ++ leBytes 4 peg.thresh ++ leBytes 4 peg.hold
      ++ peg.slots.flatMap fun o => match o with
          | some x => leBytes 2 x.vpid ++ leBytes 2 (1 + 2 * b2n x.sense) ++ leBytes 4 x.phases
          | none => fillBytes 8 0)]

/-- R134: the content of a save slot as pieces; every other byte of the slot is zero. -/
def slotPieces (v : Saved) : List (Nat × List Byte) :=
  let shift (o : Nat) (l : List (Nat × List Byte)) : List (Nat × List Byte) := l.map fun e => (o + e.1, e.2)
  headerPieces v ++ shift 0x1000 (arrayPieces v.run) ++ shift 0x227800 (furrowPieces v.run) ++ shift 0x24A400 (moverPieces v.run)

/-! ### Where a slot lies (R133, R135) -/

/-- The local address of a saved state's slot: the reserve of its core, or the slot of the context's save area for that core. -/
def slotAt (s : State) (v : Saved) : Nat :=
  if v.inReserve then rowAddr v.core 44288
  else (((s.ctx v.ctx).cores.zip (s.ctx v.ctx).slots).find? fun e => e.1 == v.core).elim 0 (·.2)

/-- The save engine writes a state to its slot. -/
def writeSlot (s : State) (v : Saved) : State := writeSparse s (slotAt s v) slotBytes (slotPieces v)

/-- R136: whether the state of a core, as the save engine reads it, is uncorrectable. -/
def runBad (r : Run) : Bool := r.eng.acc.any (fun e => e.2.bad) || r.eng.facc.any (fun e => e.2.bad)

/-- R136: whether the slot of a saved state holds a poisoned row or line. -/
def slotBad (s : State) (v : Saved) : Bool :=
  let a := slotAt s v
  if v.inReserve then s.badRows.any fun k => decide (rowKey v.core 44288 ≤ k) && decide (k < rowKey v.core 49152)
  else s.poison.any fun l => decide (a < l * 64 + 64) && decide (l * 64 < a + slotBytes)

/-! ### At most eight cores at once (R133) -/

/-- A core asks to move its state to or from LPDDR5X, behind those that asked before it. -/
def joinMove (s : State) (n : Nat) : State := { s with moveQ := s.moveQ.filter (· != n) ++ [n] }
/-- A core has moved its state, or gives up. -/
def leaveMove (s : State) (n : Nat) : State := { s with moveQ := s.moveQ.filter (· != n) }
/-- Whether a core's state moves now: it goes to or from the reserve, or it is one of the first eight that wait. -/
def moves (s : State) (n : Nat) : Bool := !s.moveQ.contains n || (s.moveQ.take 8).contains n

end Sys2Proof.Machine
end

