-- ==== Sys2Proof/Machine/Trays.lean ====
section
/-! DEFINITION. Trays (chapter 8): OPEN, COMMIT and the commit point, rewinds, space and credit, claims and reads,
flush, period reset, and the device's own commits to log and telemetry trays. -/

namespace Sys2Proof.Machine

/-! ### Producer sequence numbers (R170) -/

/-- The distance of a PSEQ from LAST modulo 2^32 − 1. -/
def pseqDist (q last : Nat) : Nat := (q + 0xFFFFFFFF - last % 0xFFFFFFFF) % 0xFFFFFFFF

/-- The PSEQ after LAST. -/
def pseqNext (last : Nat) : Nat := if last = 0xFFFFFFFF then 1 else last + 1

/-- R167: the SEQ after a SEQ, with 0 skipped. -/
def seqNext (n : Nat) : Nat := if n = 0xFFFFFFFF then 1 else n + 1

/-- What an OPEN finds its PSEQ to be. -/
inductive PseqClass
  | dup | fresh | gap
  deriving DecidableEq, Repr

/-- R170. -/
def pseqClass (sl : Slot) (q : Nat) : PseqClass :=
  if q = 0 ∨ q > 0xFFFFFFFF then .gap
  else if !sl.committed then (if q ≤ 32 then .fresh else .gap)
  else
    let d := pseqDist q sl.last
    if d = 0 ∨ d ≥ 2 ^ 31 then .dup else if d ≤ 32 then .fresh else .gap

/-! ### Space and credit (R172, R173, R179) -/

/-- Words of a packet. -/
def Packet.nwords (p : Packet) : Nat := p.length + 1

/-- Ring words held. -/
def Tray.words (t : Tray) : Nat := t.packets.foldl (fun n p => n + p.nwords) 0

def Tray.slot (t : Tray) (n : Nat) : Slot := tget {} t.slots n
def Tray.modSlot (t : Tray) (n : Nat) (f : Slot → Slot) : Tray := { t with slots := tset t.slots n (f (t.slot n)) }

/-- Return a packet's credit to its slot. -/
def Tray.giveBack (t : Tray) (now : Nat) (p : Packet) : Tray :=
  if t.kind ≠ 1 then t
  else t.modSlot p.slot fun x =>
    { x with pktAvail := x.pktAvail + 1, wordAvail := x.wordAvail + p.nwords, retPkts := x.retPkts + 1
             retWords := x.retWords + p.nwords, retAt := some (x.retAt.getD now), retNodes := ninsert x.retNodes p.node }

/-- R173: free the space of the leading packets that are gone, oldest first, with their credit. -/
def reclaim (now : Nat) : Nat → Tray → Tray × List Packet
  | 0, t => (t, [])
  | fuel + 1, t =>
    match t.packets with
    | p :: rest =>
      if p.st = .gone then
        let t1 := { t with packets := rest }
        let t2 := if p.credited then t1 else t1.giveBack now p
        let (t3, l) := reclaim now fuel t2
        (t3, p :: l)
      else (t, [])
    | [] => (t, [])

/-- Reclaim on a tray of the state, writing FREE entries for committed work packets. -/
def reclaimTray (s : State) (n : Nat) : State :=
  let t := s.tray n
  let (t', l) := reclaim s.now t.packets.length t
  let s1 := s.setTray n t'
  (l.filter (fun p => t.kind == 1 && p.seq != 0)).foldl
    (fun s p => jAppend s { type := 0x15, ctx := t.ctx, tray := n, seq := p.seq, idx := p.pseq }) s1

/-- Mark one packet gone. -/
def Tray.drop (t : Tray) (pred : Packet → Bool) : Tray := { t with packets := modFirst pred (fun p => { p with st := .gone }) t.packets }

/-- Whether a packet is the open one of a slot and PSEQ. -/
def isOpen (slot pseq : Nat) (p : Packet) : Bool := p.st == .open && p.slot == slot && p.pseq == pseq

/-- Push an answer to a producer. -/
def answer (s : State) (r : Replier) (st : Nat) (dup : Bool := false) (seq : Nat := 0) : State :=
  if r = .none then s else { s with acks := s.acks ++ [(r, st, dup, if st = stOK then seq else 0)] }

/-- R168: the 8 B of a commit acknowledgement. -/
def ackBytes (st : Nat) (dup : Bool) (seq : Nat) : List Byte :=
  leBytes 8 (st + b2n dup * 2 ^ 16 + (if st = stOK then seq % 2 ^ 32 else 0) * 2 ^ 32)

/-- Answer the producer of a packet that is discarded: who opened it with one message, or the COMMIT that waits (R168). -/
def answerPkt (s : State) (p : Packet) (st : Nat) : State :=
  if p.reply = .none ∧ p.commitOk then { s with readOut := ackBytes st false 0 } else answer s p.reply st

/-- R169, R171: take an open packet back; its credit returns, its space frees in order, and it is counted. -/
def rewind (s : State) (n : Nat) (p : Packet) : State :=
  let t := s.tray n
  let t1 := t.giveBack s.now p
  reclaimTray (s.setTray n { t1 with
    rewound := t1.rewound + 1
    packets := modFirst (fun q => q == p) (fun q => { q with st := .gone, credited := true }) t1.packets }) n

/-! ### OPEN (R167, R164, R178, R180, R185) -/

/-- R180: discard READY packets of a log or telemetry tray, oldest SEQ first, until `need` words and an entry fit. -/
def logMakeRoom (need : Nat) (now : Nat) : Nat → Tray → Tray
  | 0, t => t
  | fuel + 1, t =>
    if t.words + need ≤ t.ringWords ∧ t.packets.length < t.maxpkt then t
    else
      match (t.packets.filter (fun p => p.st == .ready)) with
      | [] => t
      | a :: l =>
        let v := l.foldl (fun m p => if p.order < m.order then p else m) a
        let t1 := { (t.drop (fun p => p == v)) with lost := t.lost + 1 }
        logMakeRoom need now fuel (reclaim now t1.packets.length t1).1

/-- The packet that an accepted OPEN creates. -/
def newPacket (s : State) (t : Tray) (e : TrayEntry) (node : Nat) (r : Replier) : Packet :=
  { st := .open, tag := e.tag, length := e.length, prio := max t.pmin (min t.pmax e.prio), endp := e.endp, fver := e.fver
    fmt := if t.fmtver = 2 then e.fmt else 0, pseq := if t.fmtver = 2 then e.pseq else 0
    slot := if t.fmtver = 2 then e.slot else 0, node := node, crc := e.crc, pos := t.nextWord, openedAt := s.now
    reply := r }

/-- The tray with a packet's space and credit taken. -/
def Tray.accept (t : Tray) (p : Packet) : Tray :=
  let t1 := if t.kind = 1 then
      t.modSlot p.slot fun x => { x with pktAvail := x.pktAvail - 1, wordAvail := x.wordAvail - p.nwords } else t
  { t1 with packets := t1.packets ++ [p], nextWord := if t1.ringWords = 0 then 0 else (t1.nextWord + p.nwords) % t1.ringWords }

/-- What an OPEN answers. -/
inductive OpenRes
  | refused (st : Nat)
  | dup (seq : Nat)
  | opened
  | discarded
  deriving DecidableEq, Repr

/-- The state-free checks of an OPEN, in the order of Table 8-3, step 2; `own` marks the device's own sources. An FMT that names a reserved
code of Table 2-3 is accepted and kept: no row of Table 8-4 refuses it (DESIGN CHOICE, log 92). -/
def openCheck (s : State) (t : Tray) (e : TrayEntry) (node : Nat) (own : Bool) : Nat :=
  let sl := t.slot (if t.fmtver = 2 then e.slot else 0)
  let x := s.ctx t.ctx
  if t.kind = 0 || t.broken || (t.ctx != 0 && (!x.live || x.faulted)) then stWRONG
  else if t.kind = 3 && !own then stNOTPERM
  else if e.rsvd then stBADPARAM
  else if e.fver ≠ (if t.fmtver = 2 then 1 else 0) then stVERSION
  else if t.fmtver = 1 && (e.fmt != 0 || e.pseq != 0 || e.slot != 0) then stBADPARAM
  else if t.kind ≠ 1 then (if e.length + 1 > t.ringWords then stBADPARAM else stOK)
  else if !sl.enabled || (t.fmtver = 2 && sl.node != node) then stBADPARAM
  else if t.fmtver = 2 && pseqClass sl e.pseq == .gap then stBADPARAM
  else if e.length + 1 > t.ringWords then stBADPARAM
  else stOK

/-- R167, step 2: an OPEN at its tray. -/
def trayOpen (s : State) (n : Nat) (e : TrayEntry) (node : Nat) (own : Bool) (r : Replier) : State × OpenRes :=
  let t := s.tray n
  let st := openCheck s t e node own
  if st ≠ stOK then (s, .refused st)
  else if t.kind ≠ 1 then
    let t1 := logMakeRoom (e.length + 1) s.now t.packets.length t
    if t1.words + (e.length + 1) ≤ t1.ringWords ∧ t1.packets.length < t1.maxpkt then
      (s.setTray n (t1.accept (newPacket s t1 e node r)), .opened)
    else (s.setTray n { t1 with lost := t1.lost + 1 }, .discarded)
  else if jfull s then
    ((if s.faults.jpaused then s else s.modFaults fun f => { f with jfull := f.jfull + 1, jpaused := true }), .refused stNOCREDIT)
  else
    let sl := t.slot (if t.fmtver = 2 then e.slot else 0)
    if t.fmtver = 2 && pseqClass sl e.pseq == .dup then
      (s, .dup (((t.packets.find? (fun p => p.slot == e.slot && p.pseq == e.pseq && p.seq != 0)).map Packet.seq).getD 0))
    else
      let s1 := match (if t.fmtver = 2 then t.packets.find? (isOpen e.slot e.pseq) else none) with
        | some p => answerPkt (rewind s n p) p stCANCELLED
        | none => s
      let t1 := s1.tray n
      let sl1 := t1.slot (if t.fmtver = 2 then e.slot else 0)
      -- R173, R178: words that stand behind an older packet are not overwritten (DESIGN CHOICE, log 91)
      if sl1.pktAvail < 1 ∨ sl1.wordAvail < e.length + 1 ∨ t1.ringWords < t1.words + (e.length + 1) then
        (s1.setTray n { t1 with nocredit := t1.nocredit + 1 }, .refused stNOCREDIT)
      else (s1.setTray n { (t1.accept (newPacket s1 t1 e node r)) with
        expired := if t1.fmtver = 2 then t1.expired.filter (· != (e.slot, e.pseq)) else t1.expired }, .opened)

/-! ### Payload and COMMIT (R167, R169) -/

/-- The local address of a ring word. -/
def Tray.wordAddr (t : Tray) (w : Nat) : Nat := t.base + (w % t.ringWords) * 64

/-- Write payload words into the ring, wrapping at its end. -/
def writeRing (s : State) (t : Tray) : Nat → List (List Byte) → State
  | _, [] => s
  | w, b :: l => writeRing (writeMem s (t.wordAddr w) b) t (w + 1) l

/-- Read the payload of a packet. -/
def readRing (s : State) (t : Tray) (p : Packet) : List Byte :=
  (List.range p.nwords).flatMap fun i => readMem s (t.wordAddr (p.pos + i)) 64

/-- R169: the status of an arrived COMMIT. -/
def commitStatus (p : Packet) (words : List Byte) (poison fabric : Bool) : Nat :=
  if poison then stUNCORR else if fabric then stLINK else if (crc32c words).toNat ≠ p.crc then stDIGEST else stOK

/-- A COMMIT of the open packet `p` with its payload: kept open until its commit point, or rewound. -/
def trayCommit (s : State) (n : Nat) (p : Packet) (words : List Byte) (poison fabric : Bool) : State :=
  let t := s.tray n
  let st := commitStatus p words poison fabric
  if st = stOK then
    let s1 := writeRing s t p.pos (chunks 64 p.nwords words)
    s1.setTray n { t with
      packets := modFirst (fun q => q == p) (fun q => { q with commitOk := true, order := t.nextOrder }) t.packets
      nextOrder := t.nextOrder + 1 }
  else answer (rewind s n p) p.reply st

/-- R168: the answer to a COMMIT that names no open packet; the tray still knows those that a period reset discarded. -/
def lateCommit (t : Tray) (slot pseq : Nat) : Nat × Bool × Nat :=
  if t.fmtver = 2 && t.kind == 1 && pseqClass (t.slot slot) pseq == .dup then
    (stOK, true, ((t.packets.find? (fun p => p.slot == slot && p.pseq == pseq && p.seq != 0)).map Packet.seq).getD 0)
  else (if t.expired.contains (if t.fmtver = 2 then (slot, pseq) else (0, 0)) then stEXPIRED else stCANCELLED, false, 0)

/-- The packets that may commit now: a work tray of version 2 holds a packet back for its slot's earlier PSEQs. -/
def Tray.eligible (t : Tray) (p : Packet) : Bool :=
  p.st == .open && p.commitOk && (t.kind != 1 || t.fmtver == 1 || p.pseq == pseqNext (t.slot p.slot).last)

/-- The eligible packet whose COMMIT came first. -/
def Tray.nextCommit (t : Tray) : Option Packet :=
  match t.packets.filter t.eligible with
  | [] => none
  | a :: l => some (l.foldl (fun m p => if p.order < m.order then p else m) a)

/-- R167: the commit point of the next packet; it becomes READY and is acknowledged. -/
def commitNext (s : State) (n : Nat) : State :=
  let t := s.tray n
  match t.nextCommit with
  | none => s
  | some p =>
    let s1 := if t.kind = 1 then
        jAppend s { type := 0x11, ctx := t.ctx, tray := n, seq := t.nextSeq, idx := p.pseq
                    result := t.wordAddr p.pos + p.length * 2 ^ 48 + p.slot * 2 ^ 56 } else s
    let t1 : Tray := { t with
      packets := modFirst (fun q => q == p) (fun q => { q with st := .ready, seq := t.nextSeq, order := t.nextOrder, reply := .none }) t.packets
      nextSeq := seqNext t.nextSeq, nextOrder := t.nextOrder + 1, commits := t.commits + 1 }
    let t2 := if t.kind = 1 && t.fmtver = 2 then t1.modSlot p.slot (fun x => { x with last := p.pseq, committed := true }) else t1
    answer (s1.setTray n t2) p.reply stOK false t.nextSeq

/-- R164, R180: a packet of the device's own sources to a log or telemetry tray. -/
def deviceCommit (s : State) (n : Nat) (bytes : List Byte) : State :=
  let t := s.tray n
  if t.kind < 2 then s
  else
    let e : TrayEntry := { length := bytes.length / 64 - 1, fver := if t.fmtver = 2 then 1 else 0, crc := (crc32c bytes).toNat }
    match trayOpen s n e s.salt.node true .none with
    | (s1, .opened) =>
      match (s1.tray n).packets.getLast? with
      | some p => commitNext (trayCommit s1 n p bytes false false) n
      | none => s1
    | (s1, _) => s1

/-- R447: a fault record is logged, committed to tray 3 and raises vector 0. -/
def reportFault (s : State) (r : FRec) : State :=
  let s1 := logFault s r
  match s1.faults.log.getLast? with
  | some x => deviceCommit s1 3 x.bytes
  | none => s1

/-- R378, R444: a hardware fault that fences nothing. -/
def reportHw (s : State) (source index : Nat) : State :=
  reportFault (s.modFaults fun f => { f with hwfNew := true }) { status := stHWFAULT, source := source, index := index }

/-! ### Reading (R174 to R177) -/

/-- R174: `p` comes before `q` in read order. -/
def readsBefore (p q : Packet) : Bool := p.prio > q.prio || (p.prio == q.prio && p.order < q.order)

/-- The first READY packet in read order. -/
def Tray.head (t : Tray) : Option Packet :=
  match t.packets.filter (fun p => p.st == .ready) with
  | [] => none
  | a :: l => some (l.foldl (fun m p => if readsBefore p m then p else m) a)

/-- The 32 bytes of an entry (Table 8-1). -/
def entryBytes (t : Tray) (p : Packet) : List Byte :=
  leBytes 4 p.tag ++ leBytes 4 (p.length + 2 ^ 8 * p.prio + 2 ^ 12 * b2n p.endp + 2 ^ 13 * p.fver + 2 ^ 16 * p.fmt)
    ++ leBytes 4 p.seq ++ leBytes 4 p.pseq ++ leBytes 2 p.slot ++ leBytes 2 p.node ++ leBytes 4 p.crc
    ++ leBytes 8 (t.wordAddr p.pos)

/-- R176: the idle packet of a tray and its word. -/
def idleEntry (s : State) (t : Tray) : List Byte :=
  leBytes 4 0 ++ leBytes 4 (2 ^ 11 + (if t.fmtver = 2 then 2 ^ 13 else 0)) ++ leBytes 4 t.nextSeq ++ leBytes 4 0
    ++ leBytes 2 0 ++ leBytes 2 s.salt.node ++ leBytes 12 0
def idleWord (s : State) (t : Tray) : List Byte := leBytes 8 s.now ++ leBytes 8 t.commits ++ fillBytes 48 0

/-- The one word of a telemetry packet whose layout is open (log 8). -/
def telePacket (kind : Nat) (fields : List Nat) : List Byte := ((Config.telemetry kind fields).take 64 ++ fillBytes 64 0).take 64

/-- A packet to the telemetry tray of a context's running SWEEP_RUN, if it names one. -/
def teleCtx (s : State) (c kind : Nat) (fields : List Nat) : State :=
  match (s.ctx c).sweep with
  | some w => if w.tele = 0 then s else deviceCommit s w.tele (telePacket kind fields)
  | none => s

/-- R433: the PSETTLE entry of a packet, with its copy to the telemetry tray of the context's SWEEP_RUN. -/
def psettle (s : State) (n : Nat) (p : Packet) (disp status : Nat) : State :=
  let t := s.tray n
  teleCtx (jAppend s { type := 0x14, disp := disp, status := status, ctx := t.ctx, tray := n, seq := p.seq, idx := p.pseq })
    t.ctx 1 [n, p.seq, p.pseq, disp, status, s.now]

/-- R175: a packet retires with its disposition, and its space frees in order. -/
def retirePkt (s : State) (n : Nat) (p : Packet) (disp status : Nat) : State :=
  let s1 := psettle s n p disp status
  let t := s1.tray n
  reclaimTray (s1.setTray n (t.drop (fun q => q.seq == p.seq && q.seq != 0 && (q.st == .ready || q.st == .claimed)))) n

/-- The packet that a SEQ names in a state. -/
def Tray.find (t : Tray) (st : PState) (seq : Nat) : Option Packet := t.packets.find? (fun p => p.st == st && p.seq == seq && seq != 0)

/-- R184: an uncorrectable word of the on-die tray store is counted. -/
def trayError (s : State) : State := { s with trayUe := satAdd 0xFFFF s.trayUe 1, trayUeNew := true }

/-- R184: packets at the head whose entry is uncorrectable retire FAULTED, or are discarded and counted. -/
def dropBadHeads (n : Nat) : Nat → State → State
  | 0, s => s
  | fuel + 1, s =>
    let t := s.tray n
    match t.head with
    | some p =>
      let s := if p.ecc && p.spill.isNone then trayError s else s
      if !p.bad && !(p.ecc && p.spill.isNone) then s
      else if t.kind = 1 then dropBadHeads n fuel (retirePkt s n p dFAULTED stUNCORR)
      else dropBadHeads n fuel (reclaimTray (s.setTray n { (t.drop (fun q => q == p)) with lost := t.lost + 1 }) n)
    | none => s

/-- R175: take the first READY packet of a work tray to CLAIMED, for a context and, where its program claims, a core. -/
def claimHead (s : State) (n who : Nat) (core : Option Nat := none) : State × Option Packet :=
  let s := dropBadHeads n (s.tray n).packets.length s
  let t := s.tray n
  match t.head with
  | none => (s, none)
  | some p =>
    let s1 := jAppend s { type := 0x12, ctx := t.ctx, tray := n, seq := p.seq, idx := p.pseq }
    let p' := { p with st := .claimed, claimer := who, byCore := core, spill := none }
    (s1.setTray n { t with packets := modFirst (fun q => q == p) (fun _ => p') t.packets }, some p')

/-- R175: take the first READY packet out of a log or telemetry tray; its space is held. -/
def readHead (s : State) (n : Nat) : State × Option Packet :=
  let s := dropBadHeads n (s.tray n).packets.length s
  let t := s.tray n
  match t.head with
  | none => (s, none)
  | some p =>
    (s.setTray n { t with packets := modFirst (fun q => q == p) (fun q => { q with st := .held, heldAt := s.now, spill := none }) t.packets }, some p)

/-- R175: end the hold of a read packet's space. -/
def endHold (s : State) (n seq : Nat) : State :=
  reclaimTray (s.modTray n fun t => t.drop (fun p => p.st == .held && p.seq == seq)) n

/-- R175, Table 18-3: return a CLAIMED packet to READY at its SEQ and PRIO. -/
def unclaimPkt (s : State) (n seq : Nat) : State :=
  match (s.tray n).find .claimed seq with
  | none => s
  | some p =>
    let s1 := jAppend s { type := 0x13, ctx := (s.tray n).ctx, tray := n, seq := seq, idx := p.pseq }
    s1.modTray n fun t => { t with packets := modFirst (fun q => q == p) (fun q => { q with st := .ready, started := false, byCore := none }) t.packets }

/-- Discard every open packet of a tray, answering its producer; its credit returns with its space (R179). A period reset keeps the
packets whose COMMIT will still come (R168). -/
def discardOpen (s : State) (n st : Nat) : State :=
  ((s.tray n).packets.filter (fun p => p.st == .open)).foldl (fun s p =>
    let t := s.tray n
    answerPkt (reclaimTray (s.setTray n { t with
      packets := modFirst (fun q => q == p) (fun q => { q with st := .gone }) t.packets
      expired := if st = stEXPIRED ∧ p.reply = .none ∧ !p.commitOk then t.expired ++ [(p.slot, p.pseq)] else t.expired }) n) p st) s

/-- R440, Table 8-5: the packets that the program of core `n` has claimed return to READY. -/
def unclaimCore (s : State) (n : Nat) : State :=
  s.trays.foldl (fun s e => (e.2.packets.filter fun p => p.st == .claimed && p.byCore == some n).foldl (fun s p => unclaimPkt s e.1 p.seq) s) s

/-- R177: release the waiting readers with an idle packet. -/
def releaseReaders (s : State) (n : Nat) : State :=
  let t := s.tray n
  { (s.setTray n { t with waiters := [] }) with idles := s.idles ++ t.waiters.map (fun w => (n, w)) }

/-- R181: flush a tray: READY packets settle with the disposition (or are lost), open ones are discarded. -/
def flushTray (s : State) (n disp status : Nat) : State :=
  let t := s.tray n
  let ready := t.packets.filter (fun p => p.st == .ready)
  let s1 := if t.kind = 1 then ready.foldl (fun s p => retirePkt s n p disp status) s
    else reclaimTray (s.setTray n { t with
      lost := t.lost + ready.length
      packets := t.packets.map fun p => if p.st = .ready then { p with st := .gone } else p }) n
  releaseReaders (discardOpen s1 n status) n

/-- R184: the pointers or the credit state of a tray are lost: the tray is flushed, the packets that it held retire FAULTED, and it is
broken until it is configured again. -/
def pointerFault (s : State) (n : Nat) : State :=
  let s1 := flushTray (discardOpen (trayError s) n stCANCELLED) n dFAULTED stUNCORR
  let s2 := ((s1.tray n).packets.filter fun p => p.st == .claimed).foldl (fun s p => retirePkt s n p dFAULTED stUNCORR) s1
  reclaimTray (s2.modTray n fun t => { t with
    broken := true, ptrBad := false, packets := t.packets.map fun p => if p.st = .held then { p with st := .gone } else p }) n

/-- R184: the tray unit meets the errors of the on-die store: corrected words are counted and rewritten. -/
def trayErrors (s : State) : State :=
  s.trays.foldl (fun s e =>
    let s1 := if e.2.soft = 0 then s
      else { (s.modTray e.1 fun t => { t with soft := 0 }) with trayCe := satAdd 0xFFFFFFFF s.trayCe e.2.soft }
    if e.2.ptrBad then pointerFault s1 e.1 else s1) s

/-! ### Spilled entries (R174) -/

/-- R174: the READY packets whose entries are not kept on die: past the first 16 in read order and the 16 committed last. -/
def spilled (t : Tray) : List Packet :=
  let l := t.packets.filter fun p => p.st == .ready
  l.filter fun p => decide (16 ≤ (l.filter fun q => readsBefore q p).length) && decide (16 ≤ (l.filter fun q => p.order < q.order).length)

/-- DESIGN CHOICE, log 20: an entry lies at the lowest free place of the spill area. -/
def spillAt (t : Tray) (i : Nat) : Nat := t.base + t.ringWords * 64 + i * 32
def freeSpill (t : Tray) : Nat :=
  ((List.range (t.packets.length + 1)).find? fun i => !t.packets.any fun p => p.spill == some i).getD 0

/-- R174: an entry leaves the die for the spill area, or returns from it; one that lies in a poisoned 64 B is lost (R184). -/
def spillOne (s : State) (n : Nat) (p : Packet) : State :=
  let t := s.tray n
  let set (f : Packet → Packet) (s : State) : State := s.modTray n fun t => { t with packets := modFirst (fun q => q == p) f t.packets }
  match p.spill with
  | none =>
    let i := freeSpill t
    set (fun q => { q with spill := some i }) (writeMem s (spillAt t i) (entryBytes t p))
  | some i =>
    set (fun q => { q with spill := none, bad := q.bad || isPoisoned s (spillAt t i) 32 }) (readIn s (spillAt t i) 32)

/-- The entries of a tray move to where R174 keeps them. -/
def spillTray (s : State) (n : Nat) : State :=
  let t := s.tray n
  let out := spilled t
  (t.packets.filter fun p => p.st == .ready && (p.spill.isSome != out.contains p)).foldl (fun s p => spillOne s n p) s

/-- R182: the period reset of a work tray: claimed packets whose work was stopped expire too, and the credit of every
slot is restored once the tray is empty. -/
def periodReset (s : State) (n : Nat) (stopped : Packet → Bool) : State :=
  let s1 := flushTray s n dEXPIRED stEXPIRED
  let s2 := ((s1.tray n).packets.filter (fun p => p.st == .claimed && stopped p)).foldl (fun s p => retirePkt s n p dEXPIRED stEXPIRED) s1
  let t := s2.tray n
  if t.packets.isEmpty then
    s2.setTray n { t with slots := t.slots.map fun e => (e.1, { e.2 with pktAvail := e.2.pktLimit, wordAvail := e.2.wordLimit }) }
  else s2

/-- R171: the open timeout of a packet. -/
def expireOpen (s : State) (n : Nat) (p : Packet) : State :=
  answerPkt (rewind (reach s (p.openedAt + (s.tray n).timeout * 1000)) n p) p stCANCELLED

/-- R179: whether a slot's credit update is due. -/
def creditDue (s : State) (x : Slot) : Bool :=
  (decide (0 < x.retPkts) && (4 * x.retPkts ≥ x.pktLimit || 4 * x.retWords ≥ x.wordLimit))
    || (match x.retAt with | some t => t + 10000 ≤ s.now | none => false)

/-! ### The reservoir pool (R172, R354) -/

/-- Areas allocated in the pool: base and size in MiB, in ascending order of base. -/
def poolUsed (s : State) : List (Nat × Nat) :=
  let l := (s.trays.filter (fun e => e.1 ≥ 64 && decide (0 < e.2.mib))).map fun e => (e.2.base, e.2.mib * 0x100000)
  l.foldl (fun acc e => (acc.takeWhile (fun a => a.1 < e.1)) ++ [e] ++ (acc.dropWhile (fun a => a.1 < e.1))) []

/-- The free ranges of the pool, base and bytes. -/
def poolFree (from' to' : Nat) : List (Nat × Nat) → List (Nat × Nat)
  | [] => if from' < to' then [(from', to' - from')] else []
  | (b, n) :: t => (if from' < b then [(from', b - from')] else []) ++ poolFree (b + n) to' t

def freeRanges (s : State) : List (Nat × Nat) := poolFree poolStart (heapStart s) (poolUsed s)

/-- R172: the size of a tray area in MiB. -/
def areaMib (ringWords maxpkt : Nat) : Nat := ceilDiv (ringWords * 64 + roundUp ((maxpkt - 32) * 32) 4096) 0x100000

end Sys2Proof.Machine
end

