-- ==== Sys2Proof/Machine/Fabric.lean ====
section
/-! DEFINITION. Saltpan (chapter 12): sending on a port with link credit and retry, routes and holds, forwarding,
windows, and what a target does with RD, WR, ATOMIC, SIGNAL and TRAY_PUT. -/

namespace Sys2Proof.Machine

/-! ### Sending -/

/-- Table 12-6: the virtual channel of a type. -/
def vcOf (t : Nat) : Nat := if t = 6 then 3 else if t = 7 ∨ t = 8 then 2 else if t ≥ 0x21 then 1 else 0

/-- Whether a type is a request that takes a response. -/
def isRequest (t : Nat) : Bool := 1 ≤ t && t ≤ 6
/-- The response type of a request. -/
def rspOf (t : Nat) : Nat := t + 0x20

/-- R461, Table 19-7: whether a port runs encrypted: the policy requires it, or allows it and the peer advertises it. -/
def mustEncrypt (s : State) (p : Nat) : Bool :=
  s.ident.require.testBit p || (s.ident.valid && s.ident.allow.testBit p && (s.port p).peerEnc)

/-- R269, R272, Table 19-7: whether a port carries messages other than MGMT. -/
def portCarries (s : State) (p : Nat) : Bool :=
  let x := s.port p
  x.state ≥ 2 && s.salt.node != 0xFFFF && (x.encrypt || !mustEncrypt s p)

/-- FACK: the FSEQ of the last frame received in order (R274). -/
def Port.fack (x : Port) : Nat := (x.rxSeq + 1023) % 1024

/-- Send one frame; it is kept until FACK covers it. -/
def Port.emit (x : Port) (b : TxBody) : Port :=
  { x with txq := x.txq ++ [{ fseq := x.txSeq, fack := x.fack, body := b }], txSeq := (x.txSeq + 1) % 1024, txb := x.txb + 256 }

/-- R274: send one frame, or let it wait while 1,023 frames are not acknowledged. -/
def Port.push (x : Port) (b : TxBody) : Port :=
  if x.txq.length < 1023 && x.outq.isEmpty then x.emit b else { x with outq := x.outq ++ [b] }

/-- Frames that wait go out as acknowledgements make room. -/
def Port.flow (x : Port) : Port := x.outq.foldl Port.push { x with outq := [] }

/-- Data flits of a message: four 64 B words each. -/
def msgFlits (m : Msg) : Nat := ceilDiv (m.words.length / 64) 4

/-- R464: a group of at most 15 frames on an encrypted port, followed by its tag record. -/
def Port.sendGroup (x : Port) (l : List TxBody) : Port :=
  let y := l.foldl Port.push x
  { (y.push (.tag x.epochTx ((x.txSeq + x.outq.length) % 1024) ((Config.gcmTag x.groupsTx ++ fillBytes 12 0).take 12))) with groupsTx := x.groupsTx + 1 }

/-- Frames of a message: its header flit, which carries it alone (DESIGN CHOICE, log 100), and its data flits, under the STREAM that this
hop gives the message (R273). -/
def Port.frames (x : Port) (m : Msg) : Port :=
  let m' := { m with stream := if msgFlits m = 0 then 0 else x.stream }
  let bodies := TxBody.hdr m' :: (List.range (msgFlits m)).map fun _ => TxBody.data m'.stream
  let y := if msgFlits m = 0 then x else { x with stream := (x.stream + 1) % 1024 }
  if y.encrypt then (chunks 15 bodies.length bodies).foldl Port.sendGroup y else bodies.foldl Port.push y

/-- Whether the link credit of the message's virtual channel covers it. -/
def Port.covers (x : Port) (m : Msg) : Bool := tget 0 x.crHdr (vcOf m.mtype) ≥ 1 && tget 0 x.crData (vcOf m.mtype) ≥ msgFlits m

/-- Take the credit of a message and send it. -/
def Port.spend (x : Port) (m : Msg) : Port :=
  let v := vcOf m.mtype
  ({ x with crHdr := tput 0 x.crHdr v (tget 0 x.crHdr v - 1), crData := tput 0 x.crData v (tget 0 x.crData v - msgFlits m) }).frames m

/-- Send a message, or queue it behind messages of its virtual channel that wait for credit. -/
def Port.send (x : Port) (m : Msg) : Port :=
  if x.covers m && !(x.waitq.any (fun q => vcOf q.mtype == vcOf m.mtype)) then x.spend m else { x with waitq := x.waitq ++ [m] }

/-- Send what credit now covers, in order on each virtual channel. -/
def Port.drain (x : Port) : Port :=
  (x.waitq.foldl (fun x m => x.send m) { x with waitq := [] })

def transmit (s : State) (p : Nat) (m : Msg) : State := s.modPort p fun x => x.send m

/-- R285: the usable port toward a node; the entries for 0xFFFE and 0xFFFF are ignored. -/
def routePort (s : State) (dst : Nat) : Option Nat :=
  let e : Route := tget {} s.salt.routes dst
  if 0xFFFE ≤ dst then none
  else if e.valid && portCarries s e.port then some e.port
  else if e.altValid && portCarries s e.alt then some e.alt else none

/-- A tag that no outstanding request of the port uses. -/
def freeTag (s : State) (p : Nat) : Nat → Nat → Option Nat
  | 0, _ => none
  | fuel + 1, t => if s.salt.outs.any (fun o => o.port == p && o.tag == t) then freeTag s p fuel ((t + 1) % 4096) else some t

/-- What sending a request gives. -/
inductive SendRes
  | sent
  | failed (st : Nat)
  | full
  deriving DecidableEq, Repr

/-- R309: the status with which a request that a version-1 link does not carry fails (DESIGN CHOICE, log 102): an UPDATE has no route there,
a SIGNAL has AMOUNT 1, and a TRAY_PUT carries a version-1 entry. -/
def v1Status (s : State) (p : Nat) (m : Msg) : Option Nat :=
  if (s.port p).version ≠ 1 then none
  else if m.mtype = 6 then some stNOROUTE
  else if m.mtype = 4 ∧ m.arg ≠ 1 then some stBADPARAM
  else if m.mtype = 5 ∧ bitsAt (leNat (m.words.take 8)) 45 2 ≠ 1 then some stVERSION
  else none

/-- R277, R285, R286, R309: send a request, hold it, or fail it. -/
def sendReq (s : State) (m : Msg) (src : ReqSrc) (attempt : Nat) : State × SendRes :=
  if vcOf m.mtype = 0 && s.salt.heldNodes.contains m.dst then
    (s.modSalt fun x => { x with held := x.held ++ [(m, src, attempt)] }, .sent)
  else
    match routePort s m.dst with
    | none => (s.modSalt fun x => { x with noroute := x.noroute + 1 }, .failed stNOROUTE)
    | some p =>
      match v1Status s p m with
      | some st => (s, .failed st)
      | none =>
      match freeTag s p (s.salt.outs.length + 1) (s.salt.nextTag % 4096) with
      | none => (s, .full)
      | some t =>
        if (s.salt.outs.filter (fun o => o.port == p)).length ≥ 4096 then (s, .full) else
        let m' := { m with tag := t, src := s.salt.node, win := if (s.port p).version = 1 then 0 else m.win }
        (transmit (s.modSalt fun x =>
          { x with outs := x.outs ++ [{ port := p, tag := t, at0 := s.now, msg := m', attempt := attempt, src := src }]
                   nextTag := (t + 1) % 4096 }) p m', .sent)

/-- R278: send a response by its DST; one without a usable route is discarded and counted. -/
def sendRsp (s : State) (m : Msg) : State :=
  match routePort s m.dst with
  | some p => transmit s p m
  | none => s.modSalt fun x => { x with noroute := x.noroute + 1 }

/-- The response of a request with a status. -/
def rspMsg (s : State) (r : Msg) (st : Nat) : Msg :=
  { mtype := rspOf r.mtype, tag := r.tag, dst := r.src, src := s.salt.node, status := st }

def respond (s : State) (r : Msg) (st : Nat) : State := sendRsp s (rspMsg s r st)

/-- An unrouted MGMT message to the peer of one link (R276, R284). -/
def sendMgmt (s : State) (p arg addr : Nat) (words : List Byte) : State :=
  if (s.port p).state ≥ 2 then
    transmit s p { mtype := 8, dst := 0xFFFF, src := s.salt.node, arg := arg, addr := addr, data := !words.isEmpty
                   len := words.length / 64 - 1, words := words }
  else s

/-- A control record in a frame of its own. -/
def sendControl (s : State) (p : Nat) (b : TxBody) : State := s.modPort p fun x => x.push b

/-! ### Arrival and forwarding (R272, R287) -/

/-- What becomes of a message on its arrival. -/
inductive Arrival
  | mine
  | dropped
  | forwarded (p : Nat)
  | refused
  deriving DecidableEq, Repr

/-- R272, R284, R287, R309: where an arriving message goes; a version-1 link carries no UPDATE and nothing to or from another node. -/
def arrival (s : State) (p : Nat) (m : Msg) : Arrival :=
  if (s.port p).state < 2 then .dropped
  else if m.mtype = 8 then .mine
  else if !portCarries s p || ((s.port p).version == 1 && m.mtype == 6) then .dropped
  else if m.dst = s.salt.node then .mine
  else
    let e : Route := tget {} s.salt.routes m.dst
    match routePort s m.dst with
    | some q => if e.valid && e.transitOk && !m.transit && q != p && (s.port p).version != 1 && (s.port q).version != 1 then .forwarded q else .refused
    | none => .refused

/-- R273: the receiver returns the link credit of a message that it takes in; that of an update block is owed until the rake of the port
has room (R216). -/
def creditBack (s : State) (p : Nat) (m : Msg) : State :=
  if (s.port p).state < 2 then s
  else if m.mtype = 6 then s.modPort p fun x => { x with oweHdr := x.oweHdr + 1, oweData := x.oweData + msgFlits m }
  else s.modPort p fun x => x.push (.credit (vcOf m.mtype) 1 (msgFlits m))

/-- R285: a message without a usable route counts, whoever sent it. -/
def countRoute (s : State) (m : Msg) : State :=
  if (routePort s m.dst).isNone then s.modSalt fun x => { x with noroute := x.noroute + 1 } else s

/-- Handle a message by its place: the handler for one that is ours, else forward, refuse or discard it. -/
def onArrival (s : State) (p : Nat) (m : Msg) (h : State → State) : State :=
  let s1 := creditBack s p m
  match arrival s p m with
  | .dropped => s1
  | .mine => h s1
  | .forwarded q => transmit s1 q { m with transit := true }
  | .refused => if isRequest m.mtype then respond (countRoute s1 m) m stNOROUTE else countRoute s1 m

/-! ### Windows (R291 to R293) -/

/-- The bytes an access covers. -/
def msgSpan (m : Msg) : Nat := if m.mtype = 3 then 8 else (m.len + 1) * 64

/-- R292: one window passes one access. -/
def Window.passes (w : Window) (m : Msg) (lo n : Nat) : Bool :=
  w.valid && w.base ≤ lo && lo + n ≤ w.base + w.size * 4096 && w.nodeLo ≤ m.src && m.src ≤ w.nodeHi
    && (w.anyctx || w.rctx == m.ctx)
    && (if m.mtype = 1 then w.read else if m.mtype = 2 then w.write else w.atom)

/-- R293: the lowest-numbered V1OK window that covers the address and the node. -/
def v1Window (s : State) (m : Msg) (lo n : Nat) : Option Window :=
  (s.salt.windows.find? fun e => e.2.valid && e.2.v1ok && e.2.base ≤ lo && lo + n ≤ e.2.base + e.2.size * 4096
    && e.2.nodeLo ≤ m.src && m.src ≤ e.2.nodeHi).map (·.2)

/-- R292, R293: the window check of an access that arrived on port `p`. -/
def windowOk (s : State) (p : Nat) (m : Msg) : Bool :=
  if (s.port p).version = 1 then
    match v1Window s m m.addr (msgSpan m) with
    | some w => w.passes m m.addr (msgSpan m)
    | none => false
  else (tget ({} : Window) s.salt.windows m.win).passes m m.addr (msgSpan m)

/-- R153: the register blocks. -/
def inRegs (a n : Nat) : Bool := decide (0x020000000000 ≤ a) && decide (a + n ≤ 2 ^ 48)

/-- R276, R279, R283, R146: an access whose address, alignment or fields are wrong. One to a register block is left to the window check. -/
def accessBad (m : Msg) : Bool :=
  m.rsvd
    || (if m.mtype = 3 then
          m.addr % 8 != 0 || !(inLp m.addr 8 || inRegs m.addr 8) || m.aop ≥ 8 || (m.data != (m.aop == 2)) || m.barrier
        else
          m.addr % 64 != 0 || m.arg != 0 || !(inLp m.addr (msgSpan m) || inAperture m.addr (msgSpan m) || inRegs m.addr (msgSpan m))
            || (inAperture m.addr (msgSpan m) && (m.addr % 512 != 0 || msgSpan m % 512 != 0))
            || m.aop != 0 || (m.mtype == 1 && (m.barrier || m.data || m.poison)) || (m.mtype == 2 && (!m.data || m.len ≥ 256)))

/-! ### The snoop filter (R324) -/

/-- The recorded lines of host-managed memory that a span touches. -/
def snoopedLines (s : State) (a n : Nat) : List Nat :=
  if s.cxl.snoop.isEmpty then [] else (spanLines 64 a n).filter s.cxl.snoop.contains

/-- Send back-invalidate snoops for lines that have none outstanding. -/
def sendSnoops (s : State) (ls : List Nat) : State :=
  let new := ls.filter (fun l => !s.cxl.snooping.contains l)
  s.modCxl fun x => { x with bisnp := x.bisnp + new.length, snooping := x.snooping ++ new }

/-! ### What a target does -/

/-- The read parts of R280: runs of 64 B words that are all good or all poisoned, as address, words and poison. -/
def readParts (s : State) : Nat → Nat → List (Nat × Nat × Bool)
  | _, 0 => []
  | a, n + 1 =>
    let b := isPoisoned s a 64
    match readParts s (a + 64) n with
    | (a', k, b') :: t => if b = b' then (a, k + 1, b) :: t else (a, 1, b) :: (a', k, b') :: t
    | [] => [(a, 1, b)]

/-- R280: answer an RD. -/
def serveRd (s : State) (m : Msg) : State :=
  (readParts s m.addr (m.len + 1)).foldl (fun s part =>
    let (a, k, bad) := part
    sendRsp (noteBad s a (64 * k))
      { mtype := 0x21, tag := m.tag, dst := m.src, src := s.salt.node, status := if bad then stUNCORR else stOK, poison := bad
        addr := a, data := true, len := k - 1, words := readMem s a (64 * k) }) (noteRead s m.addr (msgSpan m))

/-- Table 12-7: the new value of a word. -/
def atomicOp (aop w a cmp : Nat) : Nat :=
  match aop with
  | 0 => (w + a) % 2 ^ 64
  | 1 => a
  | 2 => if w = cmp then a else w
  | 3 => w &&& a
  | 4 => w ||| a
  | 5 => w ^^^ a
  | 6 => max w a
  | _ => min w a

/-- R283: an atomic on local LPDDR5X: the old value and the status. -/
def applyAtomic (s : State) (addr aop a cmp : Nat) : State × Nat × Nat :=
  if isPoisoned s addr 8 then (noteBad s addr 8, 0, stUNCORR)
  else
    let w := readLE s addr 8
    (writeLE s addr 8 (atomicOp aop w a cmp), w, stOK)

/-- RD, WR and ATOMIC at the target, once their checks and snoops allow. -/
def serveAccess (s : State) (m : Msg) : State :=
  if m.mtype = 1 then serveRd s m
  else if m.mtype = 2 then respond (writeMem s m.addr m.words m.poison) m stOK
  else
    let (s1, old, st) := applyAtomic s m.addr m.aop m.arg (leNat (m.words.take 8))
    sendRsp s1 { (rspMsg s m st) with arg := old }

/-- An access that has passed its checks: served, or held for the lines that the host may hold (R324). `swaps` is the count of table swaps
at its arrival. -/
def passedAccess (s : State) (p : Nat) (m : Msg) (swaps : Nat) : State :=
  match snoopedLines s m.addr (msgSpan m) with
  | [] => serveAccess s m
  | ls => (sendSnoops s ls).modSalt fun x => { x with snoopHeld := x.snoopHeld ++ [(p, m, swaps)] }

/-- R292: the target's side of RD, WR and ATOMIC; the windows are those in force when the header arrives. -/
def targetAccess (s : State) (p : Nat) (m : Msg) : State :=
  if accessBad m then respond s m stBADPARAM
  else if inRegs m.addr (msgSpan m) || !windowOk s p m then respond (s.modSalt fun x => { x with winref := x.winref + 1 }) m stWINDOW
  else passedAccess s p m s.salt.swaps

/-- Two messages of one source (R278). -/
def sameSource (m r : Msg) : Bool := m.src == r.src && m.ukind == r.ukind && m.unit == r.unit

/-- R278: a SIGNAL waits for earlier data of its source that is not visible yet, and behind its earlier signals. -/
def signalWaits (s : State) (m : Msg) : Bool :=
  s.salt.snoopHeld.any (fun e => e.2.1.mtype != 1 && sameSource m e.2.1) || s.salt.sigHeld.any (fun e => sameSource m e.2)
    || s.trays.any fun e => e.2.packets.any fun p => p.st == .open && (match p.reply with | .port _ r => sameSource m r | _ => false)

/-- R276, R277: the reserved bits of a SIGNAL. -/
def signalBad (m : Msg) : Bool := m.rsvd || m.addr ≥ 4096 || m.arg ≥ 2 ^ 32 || m.data || m.barrier || m.aop != 0

/-- R256, R268: a SIGNAL at its target; one from a Chamos peer counts 1 on a counting peg. -/
def targetMsgSignal (s : State) (p : Nat) (m : Msg) : State :=
  if signalBad m || ((s.port p).version == 1 && ((vpidOk s m.ctx m.addr).map fun i => (s.peg i).mode) != some 1) then respond s m stBADPARAM
  else
    let (s1, st) := targetSignal s m.ctx m.addr (if (s.port p).version = 1 then 1 else m.arg) (m.src == s.salt.node) ⟨m.src, m.ukind, m.unit⟩
    respond s1 m st

/-- The producer's entry in word 0 of a TRAY_PUT or of a host packet buffer (Table 8-1). -/
def parseEntry (l : List Byte) : TrayEntry :=
  let w0 := leNat (l.take 4)
  let w1 := leNat ((l.drop 4).take 4)
  let w4 := leNat ((l.drop 16).take 4)
  { tag := w0, length := bitsAt w1 0 8, prio := bitsAt w1 8 3, endp := bitsAt w1 12 1 == 1, fver := bitsAt w1 13 2
    fmt := bitsAt w1 16 5, pseq := leNat ((l.drop 12).take 4), slot := bitsAt w4 0 4, crc := leNat ((l.drop 20).take 4)
    rsvd := bitsAt w1 15 1 != 0 || bitsAt w1 21 11 != 0 || bitsAt w4 4 12 != 0 || (l.drop 30).take 2 != [0, 0] }

/-- R282: OPEN, words and COMMIT of one packet at its tray; the answer goes to `r`, at once where the OPEN is refused or
a duplicate. -/
def putPacket (s : State) (n : Nat) (e : TrayEntry) (node : Nat) (words : List Byte) (poison fabric : Bool) (r : Replier) : State :=
  match trayOpen s n e node false r with
  | (s1, .refused st) => answer s1 r st
  | (s1, .dup seq) => answer s1 r stOK true seq
  | (s1, .discarded) => answer s1 r stOK false 0
  | (s1, .opened) =>
    match (s1.tray n).packets.getLast? with
    | some p => trayCommit s1 n p words poison fabric
    | none => s1

/-- R282: a TRAY_PUT at its target. -/
def targetTrayPut (s : State) (p : Nat) (m : Msg) : State :=
  let e := { (parseEntry (m.words.take 32)) with slot := m.slot }
  if m.rsvd || m.addr ≥ 32768 || m.arg != 0 || !m.data || m.barrier || m.aop != 0 then respond s m stBADPARAM
  else if (s.port p).version = 1 ∧ e.fver ≠ 1 then respond s m stVERSION
  else if m.words.length ≠ 64 * (e.length + 2) then respond s m stBADPARAM
  else putPacket s m.addr e m.src (m.words.drop 64) m.poison false (.port p m)

/-- A CREDIT message: remember the slot's available credit (R179, R299). -/
def targetCredit (s : State) (m : Msg) : State :=
  if m.rsvd || m.addr ≥ 32768 || m.arg ≥ 2 ^ 45 then s
  else s.modSalt fun x =>
    { x with creditSeen := (m.src, m.addr, m.slot, bitsAt m.arg 0 17, bitsAt m.arg 17 28)
        :: x.creditSeen.filter (fun e => !(e.1 == m.src && e.2.1 == m.addr && e.2.2.1 == m.slot)) }

/-! ### Frames and retry (R274, R275) -/

/-- R274: drop the frames that FACK covers. -/
def Port.acked (x : Port) (fack : Nat) : Port :=
  if x.txq.any (fun f => f.fseq == fack) then
    ({ x with txq := (x.txq.dropWhile (fun f => f.fseq != fack)).drop 1 } : Port).flow else x

/-- A receiver asks for the frame it expects, once until it comes. -/
def Port.askReplay (x : Port) : Port := if x.asked then x else { (x.push (.replay x.rxSeq)) with asked := true }

/-- R274: a frame arrives. `bad` counts messages with a reserved MTYPE in it (R277). -/
def frameIn (s : State) (p kind fseq fack : Nat) (crcOk : Bool) (fixed bad : Nat) : State :=
  let x := s.port p
  if x.state < 2 then s
  else
    let x := { x with fec := x.fec + fixed }
    if !crcOk then s.setPort p ({ x with crcCtr := x.crcCtr + 1 }.askReplay)
    else if kind = 0 then s.setPort p (({ x with groupAge := x.groupAge + 1 } : Port).acked fack)
    else if fseq ≠ x.rxSeq then s.setPort p (x.acked fack).askReplay
    else
      let y := { (x.acked fack) with rxSeq := (x.rxSeq + 1) % 1024, rxb := x.rxb + 256, asked := false }
      let z := if x.encrypt && kind != 3 then
          { y with groupSeq := if y.groupN = 0 then fseq else y.groupSeq, groupN := y.groupN + 1, groupAge := 0 }
        else { y with groupAge := y.groupAge + 1 }
      (s.setPort p z).modSalt fun v => { v with badmsg := v.badmsg + bad }

/-- R274: resend from an FSEQ. -/
def replayFrom (s : State) (p fseq : Nat) : State :=
  s.modPort p fun x =>
    let keep := x.txq.takeWhile (fun f => f.fseq != fseq)
    let again := x.txq.dropWhile (fun f => f.fseq != fseq)
    { x with txq := keep ++ again.map (fun f => { f with replays := f.replays + 1, fack := x.fack }), replayCtr := x.replayCtr + again.length
             replayAt := (x.replayAt.filter (fun t => s.now < t + 1000000)) ++ [s.now] }

/-- R275: whether a port must retrain. -/
def mustRetrain (s : State) (x : Port) : Bool :=
  x.txq.any (fun f => f.replays ≥ 4) || (x.replayAt.filter (fun t => s.now < t + 1000000)).length ≥ 64

/-! ### Training (R270, R271) -/

/-- R271: the lanes a port runs on from the lanes that pass. -/
def lanesUsed (ok : Nat) : Nat := if ok % 16 = 15 then 15 else if ok % 4 = 3 then 3 else if ok / 4 % 4 = 3 then 12 else 0

/-- The TRAIN record a port sends. -/
def ownTrain (s : State) (p : Nat) : TrainRec :=
  { versions := 3, port := p, node := s.salt.node, transit := true, encrypt := s.ident.valid && s.ident.allow.testBit p
    presets := (s.port p).presets, lanes := (s.port p).lanes }

/-- R270, step 5: at version 2 the stored presets are loaded when both TRAIN records set PRESETS; a load that fails is followed by one full
search. The lanes that pass. -/
def passedLanes (own : TrainRec) (r : TrainResult) : Nat :=
  if own.presets && r.peer.presets && r.peer.versions.testBit 1 && r.presetOk then 15 else r.lanesOk

/-- R270, step 7: the link credit that a receiver offers. -/
def Port.offer (x : Port) : Port := (List.range 4).foldl (fun x v => x.push (.credit v 64 128)) x

/-- R270, R271, R275, R461: a port after a training. FSEQ restarts, and the messages of the replay buffer are lost; those that had not been
sent yet go out on the new link. Each end has sent its TRAIN record (step 3); one that comes up offers its link credit. -/
def trainedPort (s : State) (p : Nat) (r : TrainResult) : Port :=
  let x := s.port p
  let shared := 3 &&& r.peer.versions
  let lanes := lanesUsed (passedLanes (ownTrain s p) r)
  let x0 : Port := { x with state := 0, version := 0, lanes := 0, encrypt := false, txSeq := 0, rxSeq := 0, txq := [], outq := [], waitq := []
                            asked := false, groupN := 0, groupAge := 0, replayAt := [], stream := 0, oweHdr := 0, oweData := 0 }
  if !r.locked || shared == 0 || lanes == 0 then x0
  else if s.ident.require.testBit p && (!r.peer.encrypt || !s.ident.valid) then { x0 with peer := r.peer.node }
  else
    let y : Port := { (x0.push (.train (ownTrain s p))).offer with
      state := if lanes = 15 then 2 else 3, version := if shared ≥ 2 then 2 else 1, lanes := lanes, transit := r.peer.transit
      peer := r.peer.node, peerEnc := r.peer.encrypt, presets := x.presets || decide (2 ≤ shared)
      encrypt := x.encrypt && r.peer.encrypt && s.ident.allow.testBit p
      crHdr := (List.range 4).map fun v => (v, 64), crData := (List.range 4).map fun v => (v, 128) }
    ({ y with waitq := x.waitq } : Port).drain

/-- Train a port (R270). -/
def trainPort (s : State) (p : Nat) (r : TrainResult) : State := s.setPort p (trainedPort s p r)

/-- R286: the nodes whose messages a change of port `p` holds back: those with requests outstanding. -/
def holdNodes (s : State) (ns : List Nat) : State :=
  s.modSalt fun x => { x with heldNodes := (ns.filter (fun n => x.outs.any (fun o => o.msg.dst == n))).foldl ninsert x.heldNodes }

/-- R286: a port goes down; the nodes that it led to, as their port or as their alternative, are held. -/
def portDown (s : State) (p : Nat) : State :=
  let ns := (s.salt.routes.filter (fun e => (e.2.valid && e.2.port == p) || (e.2.altValid && e.2.alt == p))).map (·.1)
  holdNodes (s.modPort p fun x => { x with state := 0, lanes := 0, encrypt := false, txq := [], outq := [], waitq := [] }) ns

end Sys2Proof.Machine
end

