-- ==== Sys2Proof/Machine/Store.lean ====
section
/-! DEFINITION. The store of a harvest (R388 to R391, R397): the plan, the layout, digests, and the writes of a harvest to its
store. -/

namespace Sys2Proof.Machine

/-! ### The plan (R388, R389) -/

def planD (s : State) : Plan := ((s.image.bind Image.plan).getD {})

/-- R389: the chip's rank. -/
def myRank (s : State) : Option Nat := (planD s).nodes.findIdx? (· == s.salt.node)

/-- R389: whether rank r holds a shard. Every rank holds a GROUPS shard, and a BEDS shard of a heads-only stage. -/
def holds (s : State) (h : Shard) (r : Nat) : Bool :=
  h.kind == 3 || (h.kind == 1 && (s.image.map Image.headsOnly) == some true) || h.holders.testBit r

/-- The bytes that two ranges share. -/
def overlap (a n b m : Nat) : Nat := min (a + n) (b + m) - max a b

/-- R388: what breaks Table 16-1, or leaves a bed group of the image uncovered or covered twice. -/
def planBad (im : Image) (p : Plan) : Bool :=
  let beds := p.shards.filter fun h => h.kind == 1
  let unit (h : Shard) : Nat := if h.kind = 1 then 16384 else 64
  decide (p.g < 2) || decide (16 < p.g) || p.nodes.isEmpty || decide (64 < p.nodes.length) || p.htimeout == 0 || decide (3600 < p.htimeout)
    || p.shards.isEmpty || decide (65536 < p.shards.length)
    || p.shards.any (fun h => h.kind == 0 || decide (3 < h.kind) || h.len % unit h != 0 || h.off % 4096 != 0 || !inLp h.addr h.len
        || decide (2 ^ 64 ≤ h.holders))
    || im.beds.any (fun b => (beds.map fun h => overlap b.1 b.2 h.addr h.len).foldl (· + ·) 0 != b.2
        || beds.any fun h => overlap b.1 b.2 h.addr h.len != 0 && (h.addr + 16384 * (b.1 / 16384 + 1) - b.1) % 16384 != 0)
    || (List.range beds.length).any fun i => (List.range i).any fun j =>
        overlap (beds.getD i {}).addr (beds.getD i {}).len (beds.getD j {}).addr (beds.getD j {}).len != 0

/-! ### Digests (R390, R391) -/

/-- R390: a digest of data. -/
def digest (step shard kind variant : Nat) (data : List Byte) : List Byte :=
  shake256 (leBytes 4 step ++ leBytes 4 shard ++ leBytes 1 kind ++ leBytes 1 variant ++ fillBytes 6 0 ++ data) 32

/-- R391: the plan digest. -/
def planDigest (p : Plan) : List Byte :=
  digest 0 0 0 2 (Config.planBytes ([p.g, p.shards.length] ++ p.shards.flatMap fun h => [h.kind, h.addr, h.len, h.off]))

/-- R390: the bytes that HD covers among a shard's bytes. -/
def headBytes (kind : Nat) (l : List Byte) : List Byte :=
  if kind = 1 then (chunks 16384 (l.length / 16384) l).flatMap fun g => g.take 0xC00 else l

def fullDigest (step i : Nat) (h : Shard) (l : List Byte) : List Byte := digest step i h.kind 0 l
def headDigest (step i : Nat) (h : Shard) (l : List Byte) : List Byte :=
  if h.kind = 1 then digest step i 1 1 (headBytes 1 l) else fullDigest step i h l

/-! ### Layout (Table 16-2) -/

def mslot (p : Plan) : Nat := roundUp (64 + 128 + 128 * p.shards.length) 0x10000
def dataSize (p : Plan) : Nat := (p.shards.map fun h => h.off + h.len).foldl max 0
/-- Offsets within a generation: rank records, writ, shard records, board, data. -/
def rankOff (p : Plan) (r : Nat) : Nat := mslot p + 64 * r
def writOff (p : Plan) (i : Nat) : Nat := mslot p + 4096 + 32 * i
def recOff (p : Plan) (i : Nat) : Nat := mslot p + 4096 + roundUp (32 * p.shards.length) 4096 + 64 * i
def boardOff (p : Plan) (i r : Nat) : Nat :=
  mslot p + 4096 + roundUp (32 * p.shards.length) 4096 + roundUp (64 * p.shards.length) 4096 + (i * 64 + r) * 128
def dataOff (p : Plan) : Nat :=
  mslot p + 4096 + roundUp (32 * p.shards.length) 4096 + roundUp (64 * p.shards.length) 4096 + 8192 * p.shards.length
def genSize (p : Plan) : Nat := roundUp (dataOff p + dataSize p) 0x100000
/-- Offset of a generation in the store. -/
def genOff (size g : Nat) : Nat := 0x10000 + g * size

/-! ### Reading and writing -/

/-- Bytes of a store as a chip sees them: host memory, or what it has read and written of another node's. -/
def storeRead (s : State) (store : Nat) (view : Tab Byte) (off n : Nat) : List Byte :=
  let a := gAddr' store + off
  if store / 2 ^ 48 = 0xFFFE then readHost s a n else bytesAt view a n
where
  gAddr' (g : Nat) : Nat := g % 2 ^ 48

/-- Change a context's harvest. -/
def State.modHarvest (s : State) (c : Nat) (f : Harvest → Harvest) : State := s.modCtx c fun x => { x with harvest := x.harvest.map f }

/-- A write to the store, in pieces of at most 16 KiB, with the barrier flag; it is sent by `storeFlush`. -/
def storeWrite (s : State) (c off : Nat) (l : List Byte) : State :=
  s.modHarvest c fun h =>
    let a := h.store % 2 ^ 48 + off
    let pieces := chunks 16384 (ceilDiv l.length 16384) l
    { h with view := Memory.write h.view a l, out := h.out ++ ((List.range pieces.length).zip pieces).map fun e => (a + 16384 * e.1, e.2) }

/-- One write of a harvest leaves: to host memory (R317), or as WR messages through the store's window. -/
def storeSend (s : State) (c : Nat) (h : Harvest) (e : Nat × List Byte) : State × SendRes :=
  if h.store / 2 ^ 48 = 0xFFFE then
    if !inRegion (s.ctx c) e.1 e.2.length true then (s, .failed stWINDOW)
    else if !s.cxl.up then (s, .failed stLINK) else (putHost s e.1 e.2, .sent)
  else
    sendReq s { mtype := 2, barrier := true, data := true, len := e.2.length / 64 - 1, dst := h.store / 2 ^ 48, addr := e.1, win := h.win, ctx := c
                words := e.2 } (.store c) 1

/-- Send the writes that wait; a failure is kept. -/
def storeFlush (c : Nat) : Nat → State → State
  | 0, s => s
  | fuel + 1, s =>
    match (s.ctx c).harvest with
    | none => s
    | some h => match h.out with
      | [] => s
      | e :: rest => match storeSend s c h e with
        | (s1, .sent) => storeFlush c fuel (s1.modHarvest c fun h => { h with out := rest })
        | (s1, .failed st) => s1.modHarvest c fun h => { h with out := [], failed := some (h.failed.getD (if st = stNOROUTE then stLINK else st)) }
        | (s1, .full) => s1

def flushStore (s : State) (c : Nat) : State := storeFlush c ((((s.ctx c).harvest.map fun h => h.out.length).getD 0) + 1) s

/-- Whether every write of a context's harvest is visible. -/
def storeQuiet (s : State) (c : Nat) : Bool :=
  ((s.ctx c).harvest.map fun h => h.out.isEmpty).getD true && !s.salt.outs.any (fun o => o.src == .store c)
    && !s.salt.held.any (fun e => e.2.1 == .store c)

/-- A rank record (Table 16-3). -/
def rankBytes (h : Harvest) (st status now : Nat) : List Byte :=
  leBytes 8 h.hseq ++ leBytes 4 h.step ++ leBytes 1 st ++ leBytes 1 0 ++ leBytes 2 status ++ leBytes 8 now ++ fillBytes 40 0

/-- Write the chip's rank record. -/
def writeRank (s : State) (c st status : Nat) : State :=
  match (s.ctx c).harvest, myRank s with
  | some h, some r =>
    storeWrite (s.modHarvest c fun h => { h with st := st }) c (genOff (genSize (planD s)) h.gen + rankOff (planD s) r) (rankBytes h st status s.now)
  | _, _ => s

/-- R395, R405: a harvest stops; its rank record is written in state 5 where it has one, and the harvest is over. -/
def harvestDrop (s : State) (c status : Nat) : State :=
  match (s.ctx c).harvest with
  | none => s
  | some h =>
    let s1 := if h.begun && h.hseq != 0 then flushStore (writeRank (s.modHarvest c fun h => { h with out := [] }) c 5 status) c else s
    s1.modCtx c fun x => { x with harvest := none }

/-- R399: a harvest settles. -/
def harvestEnd (s : State) (c disp status : Nat) : State :=
  match (s.ctx c).harvest with
  | none => s
  | some h =>
    let s1 := if disp = dDONE then s.modCtx c fun x => { x with harvest := none } else harvestDrop s c status
    settle s1 c h.aseq disp status h.won.length

end Sys2Proof.Machine
end

