-- ==== Sys2Proof/Machine/Teardown.lean ====
section
/-! DEFINITION. Stopping cores: teardown of a context (R129, R350), the fence of a core (R439, R440), a unit that faults
(R437, R442), and the discarding of saved states. -/

namespace Sys2Proof.Machine

/-! ### Cores and saved states -/

/-- A core that holds a context's program: running, stopping, saving or restoring. -/
def Core.busy (c : Core) : Bool := c.mode == .running || c.mode == .stopping || c.mode == .saving || c.mode == .restoring

/-- Whether Dister's own rings on an idle core have descriptors to complete (R304). -/
def Core.chained (c : Core) : Bool :=
  c.mode == .idle && (c.run.mov0.rings ++ c.run.mov1.rings).any fun r => r.dister && !r.halted && decide (r.next < r.released)

/-- The cores that run a context, or a chain of it. -/
def coresRunning (s : State) (c : Nat) : List Nat := (s.cores.filter (fun e => (e.2.busy || e.2.chained) && e.2.ctx == c)).map (·.1)

/-- R129, step 3: a bound ring of a stopped core halts. -/
def Ring.stop (r : Ring) : Ring := if r.bound then { r with halted := true, live := [] } else r
def Mover.stop (m : Mover) : Mover := { m with rings := m.rings.map Ring.stop }

/-- The run of a core that has stopped without a save. -/
def Run.stop (r : Run) : Run :=
  { r with prog := [], pos := 0, hi := 0, loops := [], ended := true, q := [], mov0 := r.mov0.stop, mov1 := r.mov1.stop
           peg := { r.peg with state := 0 } }

/-- Whether a waiting reader is the program of core `n`. -/
def isProgWaiter (n : Nat) : TrayWaiter → Bool
  | .prog k => k == n
  | _ => false

/-- Whether a request in flight came from a mover of core `n`. -/
def OutReq.ofCore (n : Nat) (o : OutReq) : Bool := match o.src with
  | .mover k _ _ _ _ _ => k == n
  | _ => false

/-- Stop a core without a save, in the given mode: its waits are taken off the pegs and trays. With `late`, responses to
its movers' requests count as late (R305); otherwise they complete and are discarded. -/
def stopCore (s : State) (n : Nat) (mode : CoreMode) (late : Bool) : State :=
  let s1 := s.modCore n fun c => { c with mode := mode, run := c.run.stop, reqAt := none, reqHeld := false }
  let s2 := dropWait { (leaveMove s1 n) with
    pegReqs := s1.pegReqs.filter (fun r => !(r.core == n && (match r.op with | .wait _ _ => true | .slotWait _ => true | _ => false)))
    trays := s1.trays.map fun e => (e.1, { e.2 with waiters := e.2.waiters.filter (fun w => !isProgWaiter n w) }) } (.core n)
  s2.modSalt fun x =>
    { x with outs := if late then x.outs.filter (fun o => !o.ofCore n)
               else x.outs.map fun o => if o.ofCore n then { o with src := .other } else o
             held := x.held.filter (fun e => match e.2.1 with | .mover k _ _ _ _ _ => k != n | _ => true) }

/-- Discard the saved states that satisfy a test; a reserve that held one is empty again. -/
def dropSaved (s : State) (p : Saved → Bool) : State :=
  let gone := s.saved.filter p
  (gone.filter Saved.inReserve).foldl (fun s v => s.modCore v.core fun c => { c with resFull := false, resCtx := 0 })
    { s with saved := s.saved.filter (fun v => !p v) }

/-! ### Windows (R291) -/

/-- Table 12-9. -/
def Window.bytes (w : Window) : List Byte :=
  if !w.valid then fillBytes 32 0
  else
    leBytes 8 w.base ++ leBytes 8 (w.size + 2 ^ 28 * b2n w.read + 2 ^ 29 * b2n w.write + 2 ^ 30 * b2n w.atom + 2 ^ 31 * b2n w.v1ok + 2 ^ 32 * w.owner
      + 2 ^ 44 * w.rctx + 2 ^ 56 * b2n w.anyctx + 2 ^ 57) ++ leBytes 2 w.nodeLo ++ leBytes 2 w.nodeHi ++ fillBytes 12 0

/-- R286: where a generation of the window table lies, and the entries of windows `is` written there. -/
def winBase (epoch : Bool) : Nat := if epoch then 0xE4000000 else 0xCC000000
def writeWindows (s : State) (epoch : Bool) (is : List Nat) : State :=
  is.foldl (fun s i => writeMem s (winBase epoch + 32 * i) (tget ({} : Window) s.salt.windows i).bytes) s

/-- R250, R286: a swap of the window tables, whole, as one step (log 89). -/
def winSwap (s : State) (is : List Nat) : State :=
  writeWindows ((writeWindows s (!s.salt.winEpoch) is).modSalt fun x => { x with winEpoch := !x.winEpoch, swaps := x.swaps + 1 }) s.salt.winEpoch is

/-- Close the windows of a context. -/
def closeWindows (s : State) (c : Nat) : State :=
  match (s.salt.windows.filter fun e => e.2.valid && e.2.owner == c).map (·.1) with
  | [] => s
  | is => winSwap (s.modSalt fun x => { x with windows := x.windows.filter (fun e => !(e.2.valid && e.2.owner == c)) }) is

/-! ### Settling packets and rakes -/

/-- The work trays of a context. -/
def workTrays (s : State) (c : Nat) : List Nat := (s.trays.filter (fun e => e.2.ctx == c && e.2.kind == 1)).map (·.1)

/-- The trays of a context. -/
def traysOf (s : State) (c : Nat) : List Nat := (s.trays.filter fun e => e.2.ctx == c && e.2.kind != 0).map (·.1)

/-- R129, step 4: every committed packet of a context settles, FAULTED where its work had started; open packets of all its trays receive
ST_CANCELLED (Table 8-6). -/
def settlePackets (s : State) (c st : Nat) : State :=
  (traysOf s c).foldl (fun s n =>
    ((discardOpen s n stCANCELLED).tray n).packets.foldl (fun s p =>
      if (s.tray n).kind = 1 ∧ (p.st = .ready ∨ p.st = .claimed) then
        if p.started then retirePkt s n p dFAULTED st else retirePkt s n p dCANCELLED stCANCELLED
      else s) (discardOpen s n stCANCELLED)) s

/-- R239: the rakes discard the queued blocks of a context, and a phase of it ends without record, with its Gram slots and refreshes. -/
def rakeDiscard (s : State) (c : Nat) : State :=
  let mine := s.rphase.active && s.rphase.ctx == c
  let s1 := { s with rakes := s.rakes.map fun e => (e.1, { e.2 with
    queue := e.2.queue.filter (fun b => b.ctx != c), gram := if mine then [] else e.2.gram, refresh := if mine then [] else e.2.refresh }) }
  if mine then { s1 with rphase := {}, lastPhase := some (c, s.rphase.step) } else s1

/-- The work of a context ends: its units, stash slots and sweep. -/
def endWork (s : State) (c : Nat) : State :=
  { (s.modCtx c fun x => { x with sweep := none, harvest := none, chains := [] }) with
    units := s.units.filter (fun u => u.ctx != c), stash := s.stash.filter (fun t => t.ctx != c) }

/-- R129, steps 1 to 4, with the status that FAULTED packets carry. -/
def stopContext (s : State) (c st : Nat) : State :=
  -- R177: the readers that wait on the context's trays are released
  let s0 := (traysOf s c).foldl releaseReaders s
  let s1 := harvestDrop ((coresRunning s c).foldl (fun s n => stopCore s n .idle true) s0) c st
  let s2 := dropSaved s1 (fun v => v.ctx == c)
  let s3 := settlePackets (closeWindows (poisonPegs s2 c) c) c st
  endWork (rakeDiscard s3 c) c

/-- Settle every unsettled command of a context in ASEQ order (R129, step 5, R362). -/
def settleAll (s : State) (c disp st : Nat) : State := ((s.ctx c).cmds).foldl (fun s k => settle s c k.aseq disp st 0) s

/-- R128: record a program fault. -/
def recordFault (s : State) (n cause unit pc : Nat) (w : W128) (data : Nat) : State :=
  s.modCore n fun c => { c with fault := { cause := cause, unit := unit, multi := false, ctx := c.ctx, valid := true, pc := pc
                                           word := w, data := BitVec.ofNat 64 data } }

/-- R129: teardown of a context with the status of its commands and the fault record that reports it. `who` is the core
that faulted; the other cores of the context record CAUSE 0x0E. -/
def tearDown (s : State) (c st : Nat) (who : Option Nat) (rec' : FRec) : State :=
  if c = 0 ∨ (s.ctx c).faulted ∨ !(s.ctx c).live then s
  else
    let s1 := match who with
      | some n => ((coresRunning s c).filter (· ≠ n)).foldl (fun s k => recordFault s k 0x0E 0 0 0 n) s
      | none => s
    let s2 := settleAll (stopContext s1 c st) c dFAULTED st
    reportFault (s2.modCtx c fun x => { x with faulted := true }) { rec' with status := st, action := 2, ctx := c }

/-- R128, R129: a program fault of core `n`. -/
def programFault (s : State) (n cause unit pc : Nat) (w : W128) (data : Nat) : State :=
  tearDown (recordFault s n cause unit pc w data) (s.core n).ctx stPROGFAULT (some n)
    { source := 1, index := n, addr := pc, detail := data % 2 ^ 32 }

/-- R447: an uncorrectable error that no unit read. -/
def reportUncorr (s : State) (r : FRec) : State :=
  reportFault (s.modFaults fun f => { f with ueNew := true }) { r with status := stUNCORR }

/-- Table 18-7: an uncorrectable row of a core. A peg record there tears its owner down. -/
def rowLost (s : State) (n row : Nat) : State :=
  let addr := rowAddr n row
  let first := n * 2048 + (row - 43776) * 8
  let owners := if 43776 ≤ row ∧ row < 44032 then (((countFrom first 8).filter fun p => (s.peg p).mode != 0).map fun p => (s.peg p).owner).eraseDups else []
  if owners.isEmpty then reportUncorr s { source := if 43776 ≤ row ∧ row < 44288 then 3 else 1, index := n, addr := addr }
  else owners.foldl (fun s c => (tearDown s c stUNCORR none { source := 3, index := n, addr := addr }).modFaults fun f => { f with ueNew := true }) s

/-- R144, R147, Table 18-7: control traffic is about to read the record of a peg; in a poisoned row it raises a hardware fault, and the
owners of the row's pegs are torn down. -/
def pegRead (s : State) (p : Nat) : State :=
  if s.badRows.contains (pegRow p) then
    (rowLost (noteRow s (pegRow p) true) (p / 2048) (43776 + p % 2048 / 8)).modFaults fun f => { f with hwfNew := true }
  else s

/-- As `pegRead`, for the peg that a context's VPID names. -/
def vpidRead (s : State) (c v : Nat) : State := match vpidOk s c v with
  | some p => pegRead s p
  | none => s

/-- R278: signals that waited take effect in order, once nothing holds them. -/
def serveSignals (s : State) : State :=
  s.salt.sigHeld.foldl (fun s e => if signalWaits s e.2 then s.modSalt fun x => { x with sigHeld := x.sigHeld ++ [e] }
    else targetMsgSignal (vpidRead s e.2.ctx e.2.addr) e.1 e.2) (s.modSalt fun x => { x with sigHeld := [] })

/-! ### Units -/

def State.modUnit (s : State) (id : Nat) (f : WUnit → WUnit) : State := { s with units := modFirst (fun u => u.id == id) f s.units }

/-- The unit that runs on core `n`. -/
def unitOn (s : State) (n : Nat) : Option WUnit := s.units.find? (fun u => (u.st == 2 || u.st == 3 || u.st == 5) && u.cores.contains n)

/-- R52: the flags that a unit's completed programs have left join its sweep's. -/
def joinFlags (s : State) (u : WUnit) : State := s.modCtx u.ctx fun x => { x with sweep := x.sweep.map fun w => { w with flags := w.flags ||| u.flags } }

/-- Stop the cores of a unit that it still holds, without a save; the flags of its completed programs are kept (R52). -/
def stopUnit (s : State) (u : WUnit) : State :=
  (u.cores.filter (fun n => (s.core n).busy && (s.core n).ctx == u.ctx)).foldl (fun s n => stopCore s n .idle false) (joinFlags s u)

/-- R440: abandon a unit. It replays with its original waiting time, or its SWEEP_RUN fails. -/
def abandon (s : State) (u : WUnit) : State :=
  let s1 := dropSaved (stopUnit s u) (fun v => v.unit == u.id)
  if u.kind = 3 ∧ 0 < u.index ∧ u.drained then
    { (s1.modCtx u.ctx fun x => { x with sweep := x.sweep.map fun w => { w with failing := some (w.failing.getD stHWFAULT) } }) with
      units := s1.units.filter (fun v => v.id != u.id) }
  else
    let s2 := u.packets.foldl (fun s e => unclaimPkt s e.1 e.2) (u.cores.foldl unclaimCore s1)
    s2.modUnit u.id fun v => { v with st := if v.packets.isEmpty then 1 else 6, replay := true, flags := 0, cores := [], coresDone := [], plot := 0, rows := [] }

/-- R439: the fence of a core by a hardware fault. -/
def fenceCore (s : State) (n : Nat) : State :=
  if (s.core n).mode = .fenced then s
  else
    let hit := s.units.filter (fun u => ((u.st == 2 || u.st == 3 || u.st == 5) && u.cores.contains n)
      || s.saved.any (fun v => v.unit == u.id && v.core == n && v.inReserve))
    let s1 := unclaimCore (stopCore s n .fenced false) n
    let s2 := hit.foldl abandon s1
    let s3 := dropSaved s2 (fun v => v.core == n && v.inReserve)
    let s4 := (s3.modCore n fun c => { c with mode := .fenced }).modFaults fun f =>
      { f with fenced := ninsert f.fenced n, fenceNew := true, hwfNew := true }
    (reportFault s4 { status := stHWFAULT, source := 1, action := 1, index := n, ctx := (s.core n).ctx }).modCxl fun x => { x with uncorrectable := true }

/-- R442, R437: a unit faults with a status; its packets retire FAULTED, a training run claims no further units, and a
serving unit's rows record the status and advance no L. -/
def unitFault (s : State) (u : WUnit) (st : Nat) : State :=
  let s1 := dropSaved (stopUnit s u) (fun v => v.unit == u.id)
  let s2 := u.packets.foldl (fun s e => match (s.tray e.1).find .claimed e.2 with
    | some p => retirePkt s e.1 p dFAULTED st
    | none => s) s1
  let s3 := s2.modCtx u.ctx fun x =>
    { x with sweep := x.sweep.map fun w => if w.serving then w else { w with failing := some (w.failing.getD st) }
             seqs := x.seqs.map fun q => if u.rows.any (fun r => r.1 == q.id) then { q with status := st } else q }
  { s3 with units := s3.units.filter (fun v => v.id != u.id) }

/-- R442: uncorrectable data of the unit that runs on core `n`. A core that runs no unit just stops. -/
def unitUncorr (s : State) (n : Nat) : State :=
  match unitOn s n with
  | some u => unitFault s u stUNCORR
  | none => stopCore s n .idle false

/-- R442, R447: as `unitUncorr`, for data that is not the unit's own: a program word or a mover descriptor. -/
def unitUncorrRec (s : State) (n addr : Nat) : State :=
  let s1 := unitUncorr s n
  (reportFault s1 { status := stUNCORR, source := 1, action := 3, index := n, ctx := (s.core n).ctx, addr := addr }).modFaults
    fun f => { f with ueNew := true }

end Sys2Proof.Machine
end

