-- ==== Sys2Proof/Machine/Kv.lean ====
section
/-! DEFINITION. The key-value memory of serving contexts (R197 to R207): row records, where KV regions and sequences lie, sequence entries,
page tables, copies to the far pool, centroids, and the pages that attention reads; and the places of save slots beside them (R135). -/

namespace Sys2Proof.Machine

def imageD (s : State) : Image := s.image.getD {}

/-! ### Places in the stage heap (DESIGN CHOICE, log 86, log 13) -/

/-- Bytes of a context's sequence entries, of which R203 allows 4,096. -/
def entryBytesAll : Nat := 262144

/-- The ranges of the stage heap in use, but for the KV region of context `c`: the image's, the save slots, and the other KV regions. -/
def takenRanges (s : State) (c : Nat) : List (Nat × Nat) :=
  let im := imageD s
  (im.wgrad :: im.beds) ++ im.content.map (fun e => (e.1, 1))
    ++ s.ctxs.flatMap fun e => e.2.slots.map (fun a => (a, slotBytes)) ++ (if e.1 = c ∨ e.2.kvAt = 0 then [] else (e.2.kvAt, entryBytesAll) :: e.2.kvSegs)

/-- Whether two ranges, as address and bytes, share a byte. -/
def meets (a b : Nat × Nat) : Bool := decide (a.1 < b.1 + b.2) && decide (b.1 < a.1 + a.2)

/-- The entry of a class in the resident image's CLASSTAB (R382), and whether the class is partitioned (R383). -/
def classOfCtx (s : State) (cls : Nat) : ClassEnt := (imageD s).classtab.getD cls {}
def partitioned (s : State) (cls : Nat) : Bool := (classOfCtx s cls).pkgmode != 0

/-- R149: packages per group of a tract mode. -/
def modeGroup (m : Nat) : Nat := if m = 0 then 12 else if m = 1 then 6 else if m = 2 then 4 else if m = 3 then 3 else if m = 4 then 2 else 1

/-- R383: the memory of a partitioned class: subrange PKGSUB of the heap tracts in PKGMODE. -/
def classRanges (s : State) (cls : Nat) : List (Nat × Nat) :=
  let e := classOfCtx s cls
  let g := modeGroup e.pkgmode * 0x4000000
  if e.pkgmode = 0 then []
  else (s.tractModes.filter fun t => t.2 == e.pkgmode && decide (heapStart s ≤ t.1 * 0x30000000)).map fun t => (t.1 * 0x30000000 + e.pkgsub * g, g)

/-- What one range leaves of another: the parts below and above it. -/
def cutRange (cut r : Nat × Nat) : List (Nat × Nat) :=
  if !meets cut r then [r]
  else (if r.1 < cut.1 then [(r.1, cut.1 - r.1)] else []) ++ (if cut.1 + cut.2 < r.1 + r.2 then [(cut.1 + cut.2, r.1 + r.2 - (cut.1 + cut.2))] else [])

/-- The part of a range below host-managed memory, in whole 4 KiB. -/
def clipRange (s : State) (r : Nat × Nat) : Nat × Nat :=
  let a := roundUp r.1 4096
  (a, (min (r.1 + r.2) (hdmStart s) - a) / 4096 * 4096)

/-- The pieces of the stage heap that are free for a class: of its own memory where it is partitioned, else of what no partitioned class has
(R383). -/
def freePieces (s : State) (cls : Nat) (taken : List (Nat × Nat)) : List (Nat × Nat) :=
  let own := if partitioned s cls then classRanges s cls else [(heapStart s, hdmStart s - heapStart s)]
  let others := if partitioned s cls then [] else (List.range 16).flatMap (classRanges s)
  (((taken ++ others).foldl (fun l cut => l.flatMap (cutRange cut)) own).map (clipRange s)).filter fun r => 0 < r.2

/-- The highest place for `n` bytes in one piece. -/
def placeIn (pieces : List (Nat × Nat)) (n : Nat) : Option Nat :=
  (pieces.filter fun r => decide (n ≤ r.2)).foldl (fun m r => some (max (m.getD 0) ((r.1 + r.2 - n) / 4096 * 4096))) none

/-- Places for `n` save slots (R135), as many as fit. -/
def placeSlots : Nat → List (Nat × Nat) → List Nat
  | 0, _ => []
  | n + 1, pieces => match placeIn pieces slotBytes with
    | some a => a :: placeSlots n (pieces.flatMap (cutRange (a, slotBytes)))
    | none => []

/-- Slots for `n` cores of a context of a class. -/
def slotsFor (s : State) (cls n : Nat) : List Nat := placeSlots n (freePieces s cls (takenRanges s 4096))

/-- Pieces for `n` bytes of a pool: one piece where one is large enough, else the pieces in order. -/
def poolPieces (pieces : List (Nat × Nat)) (n : Nat) : Option (List (Nat × Nat)) :=
  match placeIn pieces n with
  | some a => some (if n = 0 then [] else [(a, n)])
  | none =>
    let (l, left) := pieces.foldl (fun (acc : List (Nat × Nat) × Nat) r => (acc.1 ++ [(r.1, min r.2 acc.2)], acc.2 - r.2)) ([], n)
    if left = 0 then some (l.filter fun r => 0 < r.2) else none

/-- Bytes of a pool's pieces. -/
def pieceBytes (l : List (Nat × Nat)) : Nat := (l.map (·.2)).foldl (· + ·) 0

/-- The place of a context's KV region as its configuration now is: its entries and the pieces of its pool, which stay where sequences use
them and grow by further pieces. -/
def kvPlace (s : State) (c : Nat) : Option (Nat × List (Nat × Nat)) :=
  let x := s.ctx c
  let free := freePieces s x.cls (takenRanges s c)
  let need := x.kvLocal * 0x100000
  if x.kvAt ≠ 0 ∧ x.seqs.any (fun q => q.entry.isSome) then
    let left := ((x.kvAt, entryBytesAll) :: x.kvSegs).foldl (fun l cut => l.flatMap (cutRange cut)) free
    (poolPieces left (need - pieceBytes x.kvSegs)).map fun l => (x.kvAt, x.kvSegs ++ l)
  else if need = 0 then some (0, [])
  else (placeIn free entryBytesAll).bind fun a => (poolPieces (free.flatMap (cutRange (a, entryBytesAll))) need).map fun l => (a, l)

/-- The save areas and KV regions of the session's contexts take new places beside an image that is loaded; no saved state and no sequence
lies in them then. None where they do not fit. -/
def placeAll (s : State) : Option State :=
  let cs := (liveCtxs s).filter (· ≠ 0)
  let s1 := cs.foldl (fun s c => s.modCtx c fun x => { x with slots := [], kvAt := 0, kvSegs := [], ents := [] }) s
  cs.foldl (fun o c => o.bind fun s =>
    let x := s.ctx c
    let l := slotsFor s x.cls x.cores.length
    if l.length < x.cores.length then none
    else
      let s2 := s.modCtx c fun x => { x with slots := l }
      (kvPlace s2 c).map fun a => s2.modCtx c fun x => { x with kvAt := a.1, kvSegs := a.2 }) (some s1)

/-- The lowest place for `n` units in the pieces that no used range touches. -/
def firstFit (used pieces : List (Nat × Nat)) (n : Nat) : Option Nat :=
  (pieces.flatMap fun p => (p.1 :: used.map fun r => r.1 + r.2).filter fun a =>
    decide (p.1 ≤ a) && decide (a + n ≤ p.1 + p.2) && !used.any (meets (a, n))).foldl (fun m a => some (min a (m.getD a))) none

/-! ### Sequences -/

/-- A sequence of a context that an admission has made running. -/
def seqOf (s : State) (c id : Nat) : Option Seqn := (s.ctx c).seqs.find? fun q => q.id == id && decide (3 ≤ q.st)
def State.modSeq (s : State) (c id : Nat) (f : Seqn → Seqn) : State :=
  s.modCtx c fun x => { x with seqs := modFirst (fun q => q.id == id && decide (3 ≤ q.st)) f x.seqs }
/-- Change a block of a sequence. -/
def State.modBlock (s : State) (c id j : Nat) (f : KvBlock → KvBlock) : State :=
  s.modSeq c id fun q => { q with blocks := modFirst (fun b => b.j == j) f q.blocks }

/-- Record a status in a sequence's entry. -/
def seqStatus (s : State) (c id st : Nat) : State :=
  s.modCtx c fun x => { x with seqs := modFirst (fun q => q.id == id) (fun q => { q with status := st }) x.seqs }

/-- R204, R205: bytes of a block's pages, and of a sequence's page table. -/
def blockBytes (im : Image) : Nat := im.pagesPerBlock * im.kvPage
def tableBytes (im : Image) (q : Seqn) : Nat := ceilDiv q.maxlen 64 * im.pagesPerBlock * 8

/-- R201: block places of a sequence's local part. -/
def blockPlaces (im : Image) (q : Seqn) : Nat := min (ceilDiv q.maxlen 64) (im.localBlocks + 2)

/-- Table 9-7. -/
def seqEntry (q : Seqn) : List Byte :=
  leBytes 4 q.id ++ leBytes 2 q.st ++ leBytes 2 q.status ++ leBytes 4 q.maxlen ++ leBytes 4 q.l ++ leBytes 8 q.tableAt ++ leBytes 8 q.centAt
    ++ leBytes 8 q.locB ++ leBytes 8 q.farB ++ leBytes 8 q.at0 ++ leBytes 8 0

/-- The lowest sequence entry of a context that is free. -/
def freeEntry (x : Ctx) : Option Nat :=
  if x.kvAt = 0 then none else (List.range 4096).find? fun i => !x.seqs.any fun q => q.entry == some i

/-- R203: the entries of a context's sequences lie in its KV region as they now are; those of sequences that are gone read 0. -/
def syncSeqs (s : State) (c : Nat) : State :=
  let x := s.ctx c
  if x.kvAt = 0 then s
  else
    let now := x.seqs.filterMap fun q => q.entry.map fun i => (i, seqEntry q)
    let gone := (x.ents.filter fun i => !now.any fun e => e.1 == i).map fun i => (i, fillBytes 64 0)
    let s1 := (now ++ gone).foldl (fun s e => if readMem s (x.kvAt + 64 * e.1) 64 = e.2 then s else writeMem s (x.kvAt + 64 * e.1) e.2) s
    s1.modCtx c fun x => { x with ents := now.map (·.1) }

/-- A sequence that an admission makes running: its local and far parts take the first places of the pools that fit (DESIGN CHOICE, log 13),
and its page table is empty. -/
def admitSeq (s : State) (c : Nat) (q : Seqn) : State :=
  let im := imageD s
  let x := s.ctx c
  let run := x.seqs.filter fun e => decide (3 ≤ e.st)
  let free := (Config.freeValue s.freeCtr).toNat % 2 ^ 47
  let base := (firstFit (run.map fun e => (e.base, e.locB)) x.kvSegs q.locB).getD free
  let farPages (e : Seqn) : Nat := if im.kvPage = 0 then 0 else e.farB / im.kvPage
  let far := (firstFit ((run.filter fun e => 0 < e.farB).map fun e => (e.farAt, farPages e))
    [(0, (x.kvFar.map fun r => r.2.2 / max 1 im.kvPage).foldl (· + ·) 0)] (farPages q)).getD 0
  let table := base + blockPlaces im q * blockBytes im
  (writeSparse ((takeFree s 1).modCtx c fun x => { x with seqs := modFirst (fun e => e.id == q.id) (fun e =>
      { e with st := 3, status := 0, entry := e.entry.orElse fun _ => freeEntry x, base := base, farAt := far, tableAt := table
               centAt := table + tableBytes im q, blocks := [] }) x.seqs })
    table (tableBytes im q) [])

/-! ### Pages (R204, R205) -/

/-- Write the page-table entries of block `j`: page `i` at the address that `at'` gives. -/
def writeTable (s : State) (q : Seqn) (j : Nat) (pages : List Nat) : State :=
  ((List.range pages.length).zip pages).foldl (fun s e => writeLE s (q.tableAt + 8 * (j * pages.length + e.1)) 8 (e.2 % 2 ^ 64)) s

/-- The next block of a sequence is allocated in the first free place of its local part; beyond the places that R201 reserves its address is
open (log 13). -/
def allocBlock (c id : Nat) (s : State) : State :=
  match seqOf s c id with
  | none => s
  | some q =>
    let im := imageD s
    let j := q.blocks.length
    let slot := (List.range (blockPlaces im q)).find? fun k => !q.blocks.any fun b => b.slot == some k
    let addr := slot.elim ((Config.freeValue s.freeCtr).toNat % 2 ^ 47) fun k => q.base + k * blockBytes im
    let s1 := (takeFree s 1).modSeq c id fun q => { q with blocks := q.blocks ++ [{ j := j, addr := addr, slot := slot }] }
    writeTable s1 q j ((List.range im.pagesPerBlock).map fun i => s.salt.node * 2 ^ 48 + addr + i * im.kvPage)

/-- A sequence has pages for its first `l` positions. -/
def growSeq (s : State) (c id l : Nat) : State :=
  match seqOf s c id with
  | none => s
  | some q => (List.range (ceilDiv (min l q.maxlen) 64 - q.blocks.length)).foldl (fun s _ => allocBlock c id s) s

/-- Page `k` of a context's far pool, as global address and window. -/
def farPage (page : Nat) : List (Nat × Nat × Nat) → Nat → Option (Nat × Nat)
  | [], _ => none
  | r :: t, k => if k < r.2.2 / page then some (r.1 + k * page, r.2.1) else farPage page t (k - r.2.2 / page)

/-- The copy of a block to the far pool begins: its pieces, of at most 16 KiB (R297). -/
def beginCopy (c id : Nat) (s : State) (b : KvBlock) : State :=
  match seqOf s c id with
  | none => s
  | some q =>
    let im := imageD s
    let pages := (List.range im.pagesPerBlock).map fun i =>
      ((farPage im.kvPage (s.ctx c).kvFar (q.farAt + b.j * im.pagesPerBlock + i)).getD ((Config.freeValue (s.freeCtr + i)).toNat % 2 ^ 64, 0), b.addr + i * im.kvPage)
    (takeFree s im.pagesPerBlock).modBlock c id b.j fun b => { b with
      st := 1, bad := false, far := pages.map fun e => e.1.1
      todo := pages.flatMap fun e => (splitSpan 16384 (im.kvPage / 16384 + 2) (e.1.1 % 2 ^ 48) im.kvPage).map fun (a, l) =>
        (e.2 + (a - e.1.1 % 2 ^ 48), l, e.1.1 / 2 ^ 48 * 2 ^ 48 + a, e.1.2) }

/-- R205: the full blocks behind the LOCAL_BLOCKS newest ones are copied to the far pool during the step. -/
def beginCopies (s : State) (c id : Nat) : State :=
  match seqOf s c id with
  | none => s
  | some q => (q.blocks.filter fun b => b.st == 0 && decide (b.j + (imageD s).localBlocks < q.l / 64)).foldl (beginCopy c id) s

/-- A piece of a copy as a WR of its context. -/
def kvMsg (s : State) (c : Nat) (e : Nat × Nat × Nat × Nat) : Msg :=
  { mtype := 2, data := true, dst := e.2.2.1 / 2 ^ 48, addr := e.2.2.1 % 2 ^ 48, win := e.2.2.2, ctx := c, len := e.2.1 / 64 - 1
    words := readMem s e.1 e.2.1, poison := isPoisoned s e.1 e.2.1 }

/-- A copy that has no piece left to send and none unanswered is complete; one that failed starts again in a later step. -/
def KvBlock.settled (b : KvBlock) : KvBlock :=
  if b.st = 1 ∧ b.todo.isEmpty ∧ b.out = 0 then { b with st := if b.bad then 0 else 2 } else b

/-- Send the pieces of a block's copy that wait. -/
def sendCopy (c id j : Nat) : Nat → State → State
  | 0, s => s
  | fuel + 1, s =>
    match (seqOf s c id).bind fun q => q.blocks.find? fun b => b.j == j with
    | none => s
    | some b => match b.todo with
      | [] => s.modBlock c id j KvBlock.settled
      | e :: rest =>
        let s1 := s.modBlock c id j fun b => { b with todo := rest }
        match sendReq s1 (kvMsg s c e) (.kv c id j) 1 with
        | (s2, .sent) => sendCopy c id j fuel (readIn (s2.modBlock c id j fun b => { b with out := b.out + 1 }) e.1 e.2.1)
        | (s2, .failed _) => sendCopy c id j fuel (s2.modBlock c id j fun b => { b with bad := true })
        | (_, .full) => s

/-- Copies of a context's sequences move on, and their entries lie in memory. -/
def kvPump (s : State) (c : Nat) : State :=
  let s1 := (s.ctx c).seqs.foldl (fun s q => (q.blocks.filter fun b => b.st == 1).foldl (fun s b => sendCopy c q.id b.j (b.todo.length + 1) s) s) s
  syncSeqs s1 c

/-- R294, R299: a message that Dister sends for itself fails: it is sent again up to three times after ST_LINK. -/
def resend (s : State) (m : Msg) (src : ReqSrc) (attempt st : Nat) : Option State :=
  if st = stLINK ∧ attempt ≤ 3 then
    match sendReq s m src (attempt + 1) with
    | (s1, .sent) => some s1
    | _ => none
  else none

/-- A piece of a copy is answered. -/
def kvAck (s : State) (c id j : Nat) (m : Msg) (attempt st : Nat) : State :=
  if st = stOK then s.modBlock c id j fun b => ({ b with out := b.out - 1 } : KvBlock).settled
  else match resend s m (.kv c id j) attempt st with
    | some s1 => s1
    | none => s.modBlock c id j fun b => ({ b with out := b.out - 1, bad := true } : KvBlock).settled

/-- R205: a boundary writes the entries of the blocks that have been copied, and their local pages are free. -/
def switchPages (s : State) (c : Nat) : State :=
  (s.ctx c).seqs.foldl (fun s q => (q.blocks.filter fun b => b.st == 2).foldl (fun s b =>
    (writeTable s q b.j b.far).modBlock c q.id b.j fun b => { b with st := 3, slot := none }) s) s

/-! ### Centroids and the pages that attention reads (R206) -/

/-- The centroid of a page's key plane: the exact mean of its 64 keys in each dimension, in scaled FP8 E4M3, to nearest (DESIGN CHOICE,
log 99). -/
def centroid (fmt : Nat) (page : List Byte) : List Byte :=
  let n := 64 * planeBytes (fdCode fmt) 128
  let keys := chunks 128 64 (decPlane fmt (page.drop n) 0 (unpack (fdCode fmt) (page.take n)))
  let mean (e : Nat) : FVal := fvScale (sumF (keys.map fun k => k.getD e .nan)).1 (-6)
  let out := (List.range 4).map fun i => cvBlock { tfmt := 0x14, rmode := 0, sat := true, given := false, rsvd := 0 } 0 0 [] (countFrom (32 * i) 32)
    ((countFrom (32 * i) 32).map mean)
  pack 4 (out.flatMap BlkOut.elems) ++ out.flatMap BlkOut.scales

/-- The centroids of block `j`, one in the array of each layer and head. -/
def writeCentroids (c id : Nat) (s : State) (j : Nat) : State :=
  match (seqOf s c id).bind fun q => (q.blocks.find? fun b => b.j == j).map fun b => (q, b) with
  | none => s
  | some (q, b) =>
    let im := imageD s
    (List.range im.pagesPerBlock).foldl (fun s i =>
      let a := b.addr + i * im.kvPage
      writeMem (readIn s a (im.kvPage / 2)) (q.centAt + (i * ceilDiv q.maxlen 64 + j) * 132) (centroid im.kvFmt (readMem s a im.kvPage)) (isPoisoned s a im.kvPage)) s

/-- R206: the blocks that attention reads for one query row of a sequence of length `l`, from the full blocks' centroid scores, as FP32
values in the order of R82, with NaN as the losing infinity: the 32 best of those before the RECENT newest, the lower block first among equals, the RECENT newest, and the
partial block. -/
def attended (recent l : Nat) (score : Nat → W32) : List Nat :=
  let full := l / 64
  let old := List.range (full - recent)
  let v (i : Nat) : FVal := if fvNan (ofF32 (score i)) then .inf true else ofF32 (score i)
  let better (i j : Nat) : Bool := gtF (v i) (v j) || (!gtF (v j) (v i) && decide (i < j))
  (old.filter fun j => decide ((old.filter fun i => better i j).length < 32)) ++ countFrom (full - recent) (full - (full - recent))
    ++ (if l % 64 = 0 then [] else [full])

/-! ### Rows (R197, R198, R203, R207) -/

/-- The rows of a unit as its packets carry them: the address of the record, SEQID, POS, NTOK and SKIP. -/
def unitRows (s : State) (u : WUnit) : List (Nat × Nat × Nat × Nat × Bool) :=
  let recs := u.packets.flatMap fun e => match (s.tray e.1).find .claimed e.2 with
    | some p =>
      let b := readRing s (s.tray e.1) p
      (List.range (b.length / 16)).map fun k => ((s.tray e.1).wordAddr (p.pos + k / 4) + 16 * (k % 4), (b.drop (16 * k)).take 16)
    | none => []
  ((recs.takeWhile fun r => leNat ((r.2.drop 8).take 2) != 0).map fun r =>
    (r.1, leNat (r.2.take 4), leNat ((r.2.drop 4).take 4), leNat ((r.2.drop 8).take 2), leNat ((r.2.drop 10).take 1) % 2 == 1))

/-- R198: a row goes on with SKIP = 1: its record carries the bit (DESIGN CHOICE, log 96). -/
def markSkip (s : State) (a : Nat) : State := writeMem s (a + 10) [(readMem s (a + 10) 1).getD 0 0 ||| 1]

/-- R198: the stage skips a row, with its status and a telemetry packet. -/
def skipRow (s : State) (c a id st : Nat) (tele : List Nat) : State := teleCtx (seqStatus (markSkip s a) c id st) c 2 tele

/-- R198, R203: the rows at the start of a serving unit: one whose POS is at most the committed length of a running sequence below MAXLEN is
computed, and its pages are allocated; any other is skipped. -/
def takeRows (s : State) (u : WUnit) : State :=
  (unitRows s u).foldl (fun s r =>
    let (a, id, pos, n, skip) := r
    if skip then s
    else match seqOf s u.ctx id with
      | some q =>
        if pos ≤ q.l ∧ q.l < q.maxlen then growSeq (s.modUnit u.id fun v => { v with rows := v.rows ++ [(id, pos + n, a)] }) u.ctx id (pos + n)
        else skipRow s u.ctx a id stSTEP [id, pos, n]
      | none => skipRow s u.ctx a id stSTEP [id, pos, n]) s

/-- R198, R205, R206: a completed unit advances L; the centroids of the blocks that it fills are written, and the blocks that leave the local
range are copied. -/
def advanceRows (s : State) (u : WUnit) : State :=
  u.rows.foldl (fun s r => match seqOf s u.ctx r.1 with
    | none => s
    | some q =>
      let l := max q.l r.2.1
      let s1 := (countFrom (q.l / 64) (l / 64 - q.l / 64)).foldl (writeCentroids u.ctx r.1) s
      beginCopies (s1.modSeq u.ctx r.1 fun q => { q with l := l }) u.ctx r.1) s

/-- R207: the sequence, of the rows that a unit still computes, one of whose far pages begins in a range's first page. -/
def farRow (s : State) (u : WUnit) (g : Nat) : Option Nat :=
  ((s.ctx u.ctx).seqs.find? fun q => u.rows.any (fun r => r.1 == q.id)
    && q.blocks.any fun b => decide (2 ≤ b.st) && b.far.any fun p => decide (p ≤ g) && decide (g < p + (imageD s).kvPage)).map Seqn.id

/-- R207: a far page of a sequence cannot be read: its row is skipped, and the unit goes on for the others. -/
def dropRow (s : State) (u : WUnit) (id : Nat) : State :=
  (u.rows.filter fun r => r.1 == id).foldl (fun s r => skipRow s u.ctx r.2.2 id stDMAHALT [id, r.2.1, 0])
    (s.modUnit u.id fun v => { v with rows := v.rows.filter fun r => r.1 != id })

end Sys2Proof.Machine
end

