-- ==== Sys2Proof/Machine/RakeQueue.lean ====
section
/-! DEFINITION. The input side of a rake (R214 to R217): the rake descriptor, acceptance, the queue of eight blocks and the
wait for the peg that announces this chip's own partial. -/

namespace Sys2Proof.Machine

/-- Count on a rake's counter at a register offset (Table 10-9). -/
def rakeCount (s : State) (r off n : Nat) : State := s.modRake r fun k => { k with ctr := tput 0 k.ctr off (tget 0 k.ctr off + n) }

/-- Table 10-1: the block of the 32 B descriptor `d`, and whether a reserved field is non-zero. -/
def parseBlk (d : List Byte) : Blk × Bool :=
  let x := leNat (d.take 32)
  ({ step := bitsAt x 0 32, ctx := bitsAt x 32 12, gfmt := bitsAt x 48 1 == 1, bed := bitsAt x 64 48, own := bitsAt x 128 48
     lpeg := bitsAt x 192 12, lval := bitsAt x 224 32 },
   bitsAt x 44 4 != 0 || bitsAt x 49 15 != 0 || bitsAt x 112 16 != 0 || bitsAt x 176 16 != 0 || bitsAt x 204 20 != 0)

/-- The gradient elements of a block as FP32 words, widened exactly (R45). -/
def gradWords (gfmt : Bool) (l : List Byte) : List W32 :=
  if gfmt then (unpack32 (l.take 8192)).map (BitVec.ofNat 32)
  else (unpack16 (l.take 4096)).map fun x => BitVec.ofNat 32 (x * 65536)

/-- Whether a range lies wholly in one of the listed ranges. -/
def inRanges (rs : List (Nat × Nat)) (a n : Nat) : Bool := rs.any fun e => e.1 ≤ a && a + n ≤ e.1 + e.2

/-- R215: the conditions of acceptance; rakes do not run on a heads-only stage (R160). -/
def blkOk (s : State) (b : Blk) (rsvd : Bool) : Bool :=
  match s.image, (s.ctx b.ctx).sweep with
  | some im, some w =>
    !w.serving && !im.headsOnly && !rsvd && b.bed % 16384 == 0 && b.own % 4096 == 0 && inRanges im.beds b.bed 16384
      && inRanges [im.wgrad] b.own 4096
  | _, _ => false

/-- R216: the rake phase of the block's step has ended: a step before the one that the context's SWEEP_RUN is in, or, while none
runs, no later than the context's last phase. -/
def blkStale (s : State) (b : Blk) : Bool :=
  match (s.ctx b.ctx).sweep with
  | some w => decide (b.step < w.step) || (s.rphase.active && s.rphase.counted && s.rphase.ctx == b.ctx && s.rphase.step == b.step)
  | none => match s.lastPhase with
    | some (c, n) => c == b.ctx && decide (b.step ≤ n)
    | none => false

/-- R217: a queued block whose rake may start it waits on its peg. -/
def rakeArm (s : State) (r : Nat) : State :=
  match (s.rake r).queue with
  | b :: _ =>
    if !s.rphase.active || s.rphase.ctx != b.ctx || s.rphase.step != b.step || b.pegOk || b.waiting || (s.rake r).halted then s
    else
      let s := vpidRead s b.ctx b.lpeg
      match vpidOk s b.ctx b.lpeg with
      | some p =>
        applyWait (s.modRake r fun k => { k with queue := modFirst (fun _ => true) (fun b => { b with waiting := true }) k.queue }) p
          { who := .rake r, k := b.lval, consume := false, phases := (s.peg p).phases }
      | none => s
  | [] => s

/-- Arm every rake. -/
def rakesArm (s : State) : State := (List.range 8).foldl rakeArm s

/-- Whether rake `r` takes a further block. -/
def rakeRoom (s : State) (r : Nat) : Bool := (s.rake r).queue.length < 8 && !(s.rake r).halted

/-- R216: a port pays the link credit that it owes for update blocks once its rake has room. -/
def payCredit (s : State) (p : Nat) : State :=
  let x := s.port p
  if x.oweHdr = 0 || !rakeRoom s p || decide (x.state < 2) then s
  else s.setPort p ({ x with oweHdr := 0, oweData := 0 }.push (.credit 3 x.oweHdr x.oweData))

/-- R215, R216: a block arrives at rake `r`, which has room; the status of its UPDACK. A stale or
malformed block is flagged in the step record of the phase in force, or of the next one (log 45). -/
def rakeTake (s : State) (r : Nat) (words : List Byte) : State × Nat :=
  let (b, rsvd) := parseBlk (words.take 32)
  let mark (f : RakePhase → RakePhase) (s : State) : State := { s with rphase := f s.rphase }
  if !blkOk s b rsvd then (mark (fun p => { p with baddesc := true }) (rakeCount s r 0x68 1), stBADPARAM)
  else if blkStale s b then (mark (fun p => { p with stale := true }) (rakeCount s r 0x18 1), stSTEP)
  else
    let b' := { b with grads := gradWords b.gfmt (words.drop 64) }
    (rakeArm (s.modRake r fun k => { k with queue := k.queue ++ [b'] }) r, stOK)

/-- R279, R238: a block whose words are poisoned is not queued: the rake counts it as uncorrectable (DESIGN CHOICE, log 40). -/
def rakePoison (s : State) (r : Nat) : State :=
  let s1 := rakeCount s r 0x70 1
  if s1.rphase.active then { s1 with rphase := { s1.rphase with ue := s1.rphase.ue + 1 } } else s1

end Sys2Proof.Machine
end

