-- ==== Sys2Proof/Machine/Rings.lean ====
section
/-! DEFINITION. The movers (R294 to R303): descriptors and their checks, the data they move, messages with retry and
credit waits, signals, write-back in ring order, halts, and the restart of R437. -/

namespace Sys2Proof.Machine

/-! ### Places -/

def Run.mov (r : Run) (m : Nat) : Mover := if m = 0 then r.mov0 else r.mov1
def Run.setMov (r : Run) (m : Nat) (x : Mover) : Run := if m = 0 then { r with mov0 := x } else { r with mov1 := x }
def State.mover (s : State) (n m : Nat) : Mover := (s.core n).run.mov m
def State.modMover (s : State) (n m : Nat) (f : Mover → Mover) : State := s.modRun n fun r => r.setMov m (f (r.mov m))
def State.ring (s : State) (n m r : Nat) : Ring := (s.mover n m).rings.getD r {}
def State.modRing (s : State) (n m r : Nat) (f : Ring → Ring) : State := s.modMover n m fun x => { x with rings := modAt x.rings r f }
/-- Change the descriptor of index `i` in progress. -/
def State.modDesc (s : State) (n m r i : Nat) (f : Desc → Desc) : State :=
  s.modRing n m r fun x => { x with live := modFirst (fun d => d.idx == i) f x.live }
def Ring.desc (r : Ring) (i : Nat) : Option Desc := r.live.find? (fun d => d.idx == i)

/-- R296, R124: whether a local range is memory that the program of core `n` may reach: heap or granted memory, the
context's own tray areas, and rows of a row window of a core that runs the context. -/
def progMem (s : State) (n a len : Nat) (write : Bool) : Bool :=
  let c := (s.core n).ctx
  if inLp a len then
    ctxMem s c a len write
      || s.trays.any (fun e => e.2.ctx == c && decide (0 < e.2.mib) && e.2.base ≤ a && a + len ≤ e.2.base + e.2.mib * 0x100000)
  else if inAperture a len then
    let k := apCore a
    let x := s.core k
    let last := (a - 0x010000000000 - k * 0x01800000 + (len - 1)) / 512
    x.busy && x.ctx == c && x.run.rowBase ≤ apRow a && last < x.run.rowBase + x.run.rowCount
  else false

/-! ### Fields of a descriptor (Table 12-11) -/

def Desc.f (d : Desc) (off n : Nat) : Nat := leNat ((d.bytes.drop off).take n)
def Desc.ctrl (d : Desc) : Nat := d.f 0 4
def Desc.own (d : Desc) : Bool := bitsAt d.ctrl 0 1 == 1
def Desc.barrier (d : Desc) : Bool := bitsAt d.ctrl 1 1 == 1
def Desc.signal (d : Desc) : Bool := bitsAt d.ctrl 2 1 == 1
def Desc.endp (d : Desc) : Bool := bitsAt d.ctrl 3 1 == 1
def Desc.kind (d : Desc) : Nat := bitsAt d.ctrl 4 4
def Desc.src (d : Desc) : Nat := d.f 0x08 8
def Desc.dst (d : Desc) : Nat := d.f 0x10 8
def Desc.len (d : Desc) : Nat := d.f 0x18 4
def Desc.count (d : Desc) : Nat := d.f 0x1C 4
def Desc.sstride (d : Desc) : Nat := d.f 0x20 4
def Desc.dstride (d : Desc) : Nat := d.f 0x24 4
def Desc.aux (d : Desc) : Nat := d.f 0x34 4
def Desc.arg (d : Desc) : Nat := d.f 0x38 8

/-- Node and local address of a global address (R284). -/
def gNode (g : Nat) : Nat := g / 2 ^ 48
def gAddr (g : Nat) : Nat := g % 2 ^ 48
/-- R284: the sides of a descriptor. -/
def isLocal (s : State) (g : Nat) : Bool := gNode g == s.salt.node && gNode g < 0xFFFE
def isHost (g : Nat) : Bool := gNode g == 0xFFFE
def isRemote (s : State) (g : Nat) : Bool := !isLocal s g && !isHost g

/-- The bytes a side covers: from the first piece to the end of the last. -/
def spanBytes (len count stride : Nat) : Nat := if count = 0 then 0 else (count - 1) * stride + len

/-- The check of one local side (Table 12-13, reasons 0x03 and 0x04); 0 when it passes. -/
def sideBad (s : State) (n g len count stride : Nat) (write : Bool) : Nat :=
  if !isLocal s g || count = 0 || len = 0 then 0
  else
    let a := gAddr g
    let span := spanBytes len count stride
    if inAperture a span && (a % 512 != 0 || len % 512 != 0 || (decide (1 < count) && stride % 512 != 0)) then 4
    else if !progMem s n a span write then 3 else 0

/-- The first reason that is not 0. -/
def firstReason : List Nat → Nat
  | [] => 0
  | a :: t => if a ≠ 0 then a else firstReason t

/-- R303: the sizes of Table 3-1, Ve + Vs of every format descriptor. -/
def vecSizes : List Nat := ((List.range 32).filter fdValid).map fun d => vecElemBytes d + vecScaleBytes d

/-- The members of the plot that core `n` belongs to, under the configuration in force (R60). -/
def plotSize (code : Nat) : Nat := 4 * 2 ^ code
def plotOf (s : State) (n : Nat) : List Nat := countFrom (n / plotSize s.plotsz * plotSize s.plotsz) (plotSize s.plotsz)

/-- R302: the reason of the mover fault that a descriptor raises, or 0. -/
def descBad (s : State) (n m : Nat) (d : Desc) : Nat :=
  let node g := gNode g == 0xFFFF
  let c1 := d.kind ≥ 6 || bitsAt d.ctrl 12 20 != 0 || bitsAt (d.f 0x28 2) 14 2 != 0 || bitsAt (d.f 0x2A 2) 14 2 != 0
    || bitsAt (d.f 0x2C 2) 12 4 != 0 || bitsAt (d.f 0x2E 2) 12 4 != 0
  let aux := match d.kind with
    | 1 => d.aux > 1
    | 2 => d.aux ≥ 256
    | 3 => d.aux ≥ 8
    | 4 => d.aux ≥ 16
    | 5 => if isLocal s d.dst then d.aux ≥ 8 else d.aux != 0
    | _ => false
  let sides := match d.kind with
    | 0 => node d.src || node d.dst || (isRemote s d.src && isRemote s d.dst)
    | 1 => node d.dst || !isLocal s d.src || !isLocal s d.arg
    | 2 => !isLocal s d.src
    | 3 => !isLocal s d.src || node d.dst || isHost d.dst
    | 4 => !isLocal s d.src || node d.dst
    | _ => !isLocal s d.src || node d.dst || (d.arg != 0 && !isLocal s d.arg)
  let al x := gAddr x % 64 != 0
  let strides := d.sstride % 64 != 0 || d.dstride % 64 != 0
  let shape := (d.signal && d.f 0x30 4 == 0) || match d.kind with
    | 2 => al d.src || al d.arg || strides || d.dst != 0 || (d.aux != 0 && d.len % d.aux != 0)
    | 3 => d.len != 8 || d.count != 1 || gAddr d.dst % 8 != 0 || gAddr d.src % 8 != 0
    | 4 => bitsAt d.dst 15 33 != 0 || d.len != 0 || d.count != 0 || al d.src || al d.arg || strides
    | 5 => gAddr d.dst != 0 || al d.src || al d.arg || strides || d.len % 64 != 0
    | _ => d.len % 64 != 0 || strides || al d.src || al d.dst || al d.arg
  let span := spanBytes d.len d.count d.sstride
  let hdm := decide (hdmStart s < gAddr d.src + span)
  let str := d.kind == 2 && ((m == 0 && (plotOf s n).head? != some n) || !vecSizes.contains d.aux
    || (!hdm && (countFrom (gAddr d.src / 0x30000000) ((gAddr d.src + span) / 0x30000000 - gAddr d.src / 0x30000000 + 1)).any
          fun t => tget 0 s.tractModes t != 0))
  let reach := match d.kind with
    | 0 => firstReason [sideBad s n d.src d.len d.count d.sstride false, sideBad s n d.dst d.len d.count d.dstride true]
    | 1 => firstReason [sideBad s n d.src d.len d.count d.sstride false, sideBad s n d.arg d.len d.count d.sstride false,
                        sideBad s n d.dst d.len d.count d.dstride true]
    | 2 => if d.count = 0 ∨ d.len = 0 then 0 else if hdm || !inLp (gAddr d.src) span || !progMem s n (gAddr d.src) span false then 3 else 0
    | 3 =>
      if inAperture (gAddr d.src) 8 || (isLocal s d.dst && inAperture (gAddr d.dst) 8) then 4
      else if !progMem s n (gAddr d.src) 8 true || (isLocal s d.dst && !progMem s n (gAddr d.dst) 8 true) then 3 else 0
    | 4 =>
      let words := bitsAt (readLE s (gAddr d.src) 8) 32 8 + 2
      sideBad s n d.src (words * 64) 1 0 false
    | _ =>
      let gl := if bitsAt (readLE s (gAddr d.src) 8) 48 1 = 1 then 8192 else 4096
      firstReason [sideBad s n d.src (64 + gl) 1 0 false, if d.arg = 0 then 0 else sideBad s n d.arg gl 1 0 false]
  if !d.own then 7 else if c1 || aux then 1 else if sides then 5 else if shape then 2 else if str then 6 else reach

/-! ### Data -/

/-- Runs of 64 B words of host memory, as `readParts`. -/
def hostParts (s : State) : Nat → Nat → List (Nat × Nat × Bool)
  | _, 0 => []
  | a, n + 1 =>
    let b := s.hostPoison.contains (a / 64)
    match hostParts s (a + 64) n with
    | (a', k, b') :: t => if b = b' then (a, k + 1, b) :: t else (a, 1, b) :: (a', k, b') :: t
    | [] => [(a, 1, b)]

/-- The runs of a local or host range with their bytes, as offset, bytes and poison. -/
def readRuns (s : State) (g len : Nat) : List (Nat × List Byte × Bool) :=
  if isHost g then (hostParts s (gAddr g) (len / 64)).map fun (a, k, b) => (a - gAddr g, readHost s a (64 * k), b)
  else (readParts s (gAddr g) (len / 64)).map fun (a, k, b) => (a - gAddr g, readMem s a (64 * k), b)

/-- Count a read of a local range: its traffic, and the errors that it corrects or cannot correct (R144, R152, R156). -/
def noteIn (s : State) (g n : Nat) : State := if isHost g then s else readIn s (gAddr g) n

/-- Count the reads of a descriptor's piece from byte `off` on; ADD_COPY reads two ranges. -/
def noteSrc (s : State) (d : Desc) (k off n : Nat) : State :=
  let s1 := noteIn s (d.src + k * d.sstride + off) n
  if d.kind = 1 then noteIn s1 (d.arg + k * d.sstride + off) n else s1

/-- Write bytes to a local or host address. -/
def writeSide (s : State) (g : Nat) (l : List Byte) (bad : Bool) : State :=
  if isHost g then putHost s (gAddr g) l bad else writeMem s (gAddr g) l bad

/-- ADD_COPY: one FP32 sum, rounded to the format (R296). -/
def addElem (fmt x y : Nat) : Nat :=
  let v := (toF32 (addF (decFloat (paramOf fmt) x) (decFloat (paramOf fmt) y)).1).1
  if fmt = 0 then v.toNat else (cvFloat fmt .rne false (ofF32 v)).bits

/-- The sums of two byte strings. -/
def addBytes (fmt : Nat) (a b : List Byte) : List Byte :=
  pack fmt (((unpack fmt a).zip (unpack fmt b)).map fun (x, y) => addElem fmt x y)

/-- The runs that a descriptor's piece reads from `off` on: plain, or summed with ARG; a word is poisoned when either
operand is. -/
def pieceRuns (s : State) (d : Desc) (k off len : Nat) : List (Nat × List Byte × Bool) :=
  if d.kind = 1 then
    (List.range (len / 64)).map fun i =>
      let a := d.src + k * d.sstride + off + 64 * i
      let b := d.arg + k * d.sstride + off + 64 * i
      (64 * i, addBytes d.aux (readMem s (gAddr a) 64) (readMem s (gAddr b) 64), isPoisoned s (gAddr a) 64 || isPoisoned s (gAddr b) 64)
  else readRuns s (d.src + k * d.sstride + off) len

/-- Merge neighbouring runs of one poison state into messages' worth. -/
def mergeRuns : List (Nat × List Byte × Bool) → List (Nat × List Byte × Bool)
  | [] => []
  | (o, l, b) :: t => match mergeRuns t with
    | (o', l', b') :: t' => if b = b' then (o, l ++ l', b) :: t' else (o, l, b) :: (o', l', b') :: t'
    | [] => [(o, l, b)]

/-- R440: a weight-gradient unit on core `n` that writes the weight-gradient buffer has drained a block into it. -/
def noteDrain (n a len : Nat) (s : State) : State :=
  match s.image with
  | some im =>
    if decide (a < im.wgrad.1 + im.wgrad.2) && decide (im.wgrad.1 < a + len) then
      { s with units := s.units.map fun u => if u.kind == 3 && u.st == 2 && u.cores.contains n then { u with drained := true } else u }
    else s
  | none => s

/-- A copy with no remote side: every piece is read and written in turn. -/
def copyLocal (s : State) (n m r i : Nat) (d : Desc) : State :=
  noteDrain n (gAddr d.dst) (d.len + d.count * d.dstride) <| (List.range d.count).foldl (fun s k =>
    (pieceRuns s d k 0 d.len).foldl (fun s (o, l, b) =>
      let s1 := if b then s.modDesc n m r i fun d => { d with ue := true } else s
      (writeSide (noteSrc s1 d k o l.length) (d.dst + k * d.dstride + o) l b).modMover n m fun x => { x with bytes := x.bytes + l.length }) s) s

/-- R297: the messages of one piece: at most 16 KiB each, not crossing a 16 KiB boundary of the remote address. -/
def pieceMsgs (d : Desc) (rd : Bool) (node k : Nat) : List PendMsg :=
  let rem := if rd then d.src + k * d.sstride else d.dst + k * d.dstride
  (splitSpan 16384 (d.len / 16384 + 2) (gAddr rem) d.len).map fun (a, l) =>
    let off := a - gAddr rem
    { msg := { mtype := if rd then 1 else 2, dst := node, addr := a, len := l / 64 - 1, win := d.f (if rd then 0x28 else 0x2A) 2
               barrier := !rd && d.barrier, data := !rd }
      loc := if rd then d.dst + k * d.dstride + off else off, len := l, piece := k }

/-! ### Messages of a descriptor -/

/-- Messages of a mover that await a response. -/
def moverOut (s : State) (n m : Nat) : Nat :=
  (s.salt.outs.filter (fun o => match o.src with | .mover k j _ _ _ _ => k == n && j == m | _ => false)).length

/-- MOV_HALT's restart by unit: whether a halt cause is a neighbour's loss (R437). -/
def isNeighbour (st : Nat) : Bool := st == stLINK || st == stNOROUTE

/-- Recompute FLT_STATUS.NWAIT. -/
def setNwait (s : State) : State := s.modFaults fun f => { f with nwait := s.units.any WUnit.waitRing }

/-- Every pending MKICK of a ring that is complete becomes done (R294, R300). -/
def kicksDone (s : State) (n m r : Nat) : State :=
  let x := s.ring n m r
  s.modRun n fun u => { u with q := u.q.map fun e => match e.kick with
    | some (k, t) => if e.unit = 8 + m ∧ k = r ∧ (x.halted ∨ t ≤ x.next) then { e with done := true } else e
    | none => e }

/-- R207: a descriptor of a serving unit that reads a far page of one of its rows fails: the row is skipped, and the descriptor ends with
ST_DMA_HALT without a halt of the ring, so that the unit completes for the others (DESIGN CHOICE, log 97). -/
def farFail (s : State) (n m r i st attempt : Nat) : Option State :=
  match unitOn s n, (s.ring n m r).desc i with
  | some u, some d =>
    if u.kind ≥ 4 ∧ d.kind = 0 then
      (farRow s u d.src).map fun id => (dropRow s u id).modDesc n m r i fun d => { d with cause := st, failAttempts := attempt, pend := [] }
    else none
  | _, _ => none

/-- R300, R437: a message fails with no retry left: the ring halts. A restarted descriptor refused with another status
faults its unit. -/
def failDesc (s : State) (n m r i st attempt : Nat) : State :=
  let x := s.ring n m r
  if (x.desc i).any Desc.old then s.modDesc n m r i fun d => if d.cause ≠ 0 then d else { d with cause := st, failAttempts := attempt, pend := [] }
  else match farFail s n m r i st attempt with
  | some s1 => s1
  | none =>
  let s1 := (s.modDesc n m r i fun d => if d.cause ≠ 0 then d else { d with cause := st, failAttempts := attempt, pend := [] }).modRing n m r
    fun x => { x with halted := true, failed := if x.failed.contains i then x.failed else ninsert x.failed i }
  let s2 := if x.halted then s1 else
    teleCtx (s1.modMover n m fun y =>
      { y with haltCause := st, haltIndex := i % 2 ^ x.log2n, haltRing := r, halts := y.halts + 1 })
      (s.core n).ctx 4 [st, i % 2 ^ x.log2n, r, m, n, s.now]
  let s3 := kicksDone s2 n m r
  match unitOn s n with
  | none => s3
  | some u =>
    if isNeighbour st then
      setNwait ((s3.modRing n m r fun x => { x with haltAt := some (x.haltAt.getD s.now) }).modUnit u.id fun u => { u with waitRing := true })
    else if x.haltAt.isSome then
      setNwait (reportFault (unitFault s3 u st) { status := st, source := 7, action := 3, index := n, ctx := u.ctx })
    else s3

/-- A failed message of a descriptor (R299, R300). -/
def failMsg (s : State) (n m r i : Nat) (p : PendMsg) (st : Nat) : State :=
  match (s.ring n m r).desc i with
  | none => s
  | some d =>
    if d.cause ≠ 0 then s
    else if p.msg.mtype = 5 ∧ st = stNOCREDIT then
      (s.modDesc n m r i fun d => { d with pend := d.pend ++ [{ p with credit := true }] }).modMover n m fun x => { x with nocredit := x.nocredit + 1 }
    else if st = stLINK ∧ p.msg.mtype ≠ 3 ∧ p.msg.mtype ≠ 4 ∧ p.attempt ≤ (s.ring n m r).retry then
      s.modDesc n m r i fun d => { d with pend := d.pend ++ [{ p with backoff := true }] }
    else failDesc s n m r i st p.attempt

/-- Take a descriptor's UPDATE at a rake of this chip as from a port: queued where it has room, and refused where its words are
poisoned (R296, R301). -/
def ownUpdate (s : State) (n m r i rk : Nat) (words : List Byte) (bad : Bool) : Option State :=
  if !rakeRoom s rk then none
  else if bad then some (rakePoison s rk)
  else
    let (s1, st) := rakeTake s rk words
    some (if st = stOK then s1 else failDesc s1 n m r i st 1)

/-- The data words of a TRAY_PUT or UPDATE message, read when it is sent, and whether any is poisoned. -/
def putWords (s : State) (d : Desc) : List Byte × Bool :=
  if d.kind = 4 then
    let e := readMem s (gAddr d.src) 32
    let e' := e.take 16 ++ leBytes 2 (d.aux % 16) ++ e.drop 18
    let l := 64 * (bitsAt (leNat (e.drop 4)) 0 8 + 1)
    (e' ++ fillBytes 32 0 ++ readMem s (gAddr d.src + 64) l, isPoisoned s (gAddr d.src) (64 + l))
  else
    let h := readMem s (gAddr d.src) 32
    let g := bitsAt (leNat h) 48 1
    let l := if g = 1 then 8192 else 4096
    let a := readMem s (gAddr d.src + 64) l
    let w := if d.arg = 0 then a else addBytes (if g = 1 then 0 else 1) a (readMem s (gAddr d.arg) l)
    (h ++ fillBytes 32 0 ++ w, isPoisoned s (gAddr d.src) (64 + l) || (d.arg != 0 && isPoisoned s (gAddr d.arg) l))

/-- Send one pending message of a descriptor, or leave it. -/
def sendPend (s : State) (n m r i : Nat) (p : PendMsg) : Option State :=
  match (s.ring n m r).desc i with
  | none => none
  | some d =>
    let src := ReqSrc.mover n m r i p.loc p.piece
    let hdr := { p.msg with ctx := if p.msg.mtype = 4 then p.msg.ctx else d.ctx, ukind := 1, unit := n }
    let go (mm : Msg) (rest : List PendMsg) (s : State) : Option State :=
      let s0 := s.modDesc n m r i fun d => { d with pend := rest ++ d.pend.drop 1, attempts := max d.attempts (min 15 p.attempt) }
      match sendReq s0 mm src p.attempt with
      | (s1, .sent) => some (s1.modDesc n m r i fun d => { d with out := d.out + 1 })
      | (s1, .failed st) => some (failMsg s1 n m r i p st)
      | (_, .full) => none
    if p.msg.mtype = 2 then
      match mergeRuns (pieceRuns s d p.piece p.loc p.len) with
      | [] => some (s.modDesc n m r i fun d => { d with pend := d.pend.drop 1 })
      | (_, l, b) :: more =>
        let rest := if more.isEmpty then [] else
          [{ p with msg := { p.msg with addr := p.msg.addr + l.length, len := (p.len - l.length) / 64 - 1 }, loc := p.loc + l.length
                    len := p.len - l.length }]
        let s1 := if b then s.modDesc n m r i fun d => { d with ue := true } else s
        go { hdr with words := l, len := l.length / 64 - 1, poison := b } rest ((noteSrc s1 d p.piece p.loc l.length).modMover n m fun x => { x with bytes := x.bytes + l.length })
    else if p.msg.mtype = 5 ∨ p.msg.mtype = 6 then
      let (w, b) := putWords s d
      let s0 := noteIn (if b then s.modDesc n m r i fun d => { d with ue := true } else s) d.src w.length
      let s1 := if d.kind = 5 ∧ d.arg ≠ 0 then noteIn s0 d.arg (w.length - 64) else s0
      let mm := { hdr with data := true, words := w, len := w.length / 64 - 1, poison := b, slot := if p.msg.mtype = 5 then d.aux % 16 else 0 }
      if isLocal s d.dst then
        if p.msg.mtype = 5 then
          some (putPacket (s1.modDesc n m r i fun d => { d with pend := d.pend.drop 1, out := d.out + 1 }) (gAddr d.dst % 32768)
            { (parseEntry (w.take 32)) with slot := d.aux % 16 } s.salt.node (w.drop 64) b false (.mover n m r i))
        else ownUpdate (s1.modDesc n m r i fun d => { d with pend := d.pend.drop 1 }) n m r i (d.aux % 8) w b
      else go mm [] (s1.modMover n m fun x => { x with bytes := x.bytes + w.length })
    else go hdr [] s

/-- The first message of a mover's rings that may be sent now, as ring, descriptor and message. -/
def nextPend (x : Mover) : Option (Nat × Nat × PendMsg) :=
  ((List.range 4).flatMap fun r => ((x.rings.getD r {}).live.filterMap fun d => match d.pend with
    | p :: _ => if p.backoff || p.credit then none else some (r, d.idx, p)
    | [] => none)).head?

/-- Move a waiting head behind the messages that may go. -/
def Desc.rotate (d : Desc) : Desc :=
  { d with pend := d.pend.filter (fun p => !(p.backoff || p.credit)) ++ d.pend.filter (fun p => p.backoff || p.credit) }

/-- Whether the movers of a core may send: it is not pre-empted; after the end of a program they go on with what is in progress (R300). -/
def Core.moverUp (c : Core) : Bool := c.mode == .running || c.mode == .idle

/-- R297: send a mover's messages while fewer than 64 await a response and the core is not pre-empted. -/
def sendMover (n m : Nat) : Nat → State → State
  | 0, s => s
  | fuel + 1, s =>
    if !(s.core n).moverUp || decide (64 ≤ moverOut s n m) then s
    else
      let s0 := s.modMover n m fun x => { x with rings := x.rings.map fun r => { r with live := r.live.map Desc.rotate } }
      match nextPend (s0.mover n m) with
      | none => s
      | some (r, i, p) => match sendPend s0 n m r i p with
        | some s1 => sendMover n m fuel s1
        | none => s0

/-! ### Streams (R61, R297, R303) -/

/-- Vectors in a queue; end markers take no place. -/
def vecCount (l : List InItem) : Nat := (l.filter (fun x => match x with | .vec _ _ => true | .mark => false)).length

/-- The cores that a STREAM of core `n`, mover `m`, feeds. -/
def streamSinks (s : State) (n m : Nat) : List Nat := if m = 0 then plotOf s n else [n]

/-- Whether every sink has a free place. -/
def sinksRoom (s : State) (n m : Nat) : Bool :=
  (streamSinks s n m).all fun k =>
    if m = 0 then vecCount (s.core k).run.eng.intake < 64 else vecCount (s.core k).run.eng.direct < 32

/-- Give an item to every sink. -/
def feed (s : State) (n m : Nat) (x : InItem) : State :=
  (streamSinks s n m).foldl (fun s k => s.modEng k fun e =>
    if m = 0 then { e with intake := e.intake ++ [x] } else { e with direct := e.direct ++ [x] }) s

/-- The STREAM descriptor of a mover whose vectors enter now: the one started first (R297). -/
def streamNow (x : Mover) : Option (Nat × Desc) :=
  match (List.range 4).flatMap fun r => ((x.rings.getD r {}).live.filter Desc.streaming).map fun d => (r, d) with
  | [] => none
  | a :: l => some (l.foldl (fun m e => if e.2.order < m.2.order then e else m) a)

/-- R76, R113: a stream waits for every member of the plot that a pre-emption has taken and that has not resumed. -/
def sinksUp (s : State) (n m : Nat) : Bool :=
  (streamSinks s n m).all fun k => (s.core k).mode != .stopping && (s.core k).mode != .saving && (s.core k).mode != .restoring

/-- Deliver vectors of the STREAM in progress while its sinks have room. -/
def feedStream (n m : Nat) : Nat → State → State
  | 0, s => s
  | fuel + 1, s =>
    if (s.core n).mode ≠ .running then s
    else match streamNow (s.mover n m) with
    | none => s
    | some (r, d) =>
      let per := if d.aux = 0 then 0 else d.len / d.aux
      if d.vpos ≥ per * d.count then
        feedStream n m fuel ((if d.endp then feed s n m .mark else s).modDesc n m r d.idx fun d => { d with streaming := false })
      else if !sinksUp s n m || !sinksRoom s n m then s
      else
        let a := gAddr d.src + d.vpos / per * d.sstride + d.vpos % per * d.aux
        let bad := isPoisoned s a d.aux
        let s1 := feed (noteBad s a d.aux) n m (.vec (readMem s a d.aux) bad)
        let s2 := (s1.modDesc n m r d.idx fun d => { d with vpos := d.vpos + 1, ue := d.ue || bad }).modMover n m
          fun x => { x with bytes := x.bytes + d.aux }
        feedStream n m fuel { s2 with wbytes := s2.wbytes + d.aux }

/-! ### Starting a descriptor -/

/-- The address of a descriptor in its ring. -/
def Ring.addr (x : Ring) (i : Nat) : Nat := x.base + i % 2 ^ x.log2n * 64

/-- The index a ring starts next: a failed descriptor after a restart (R437), else the next released one. -/
def Ring.nextStart (x : Ring) : Option Nat :=
  if !x.bound || x.halted || x.live.length ≥ 4 then none
  else match x.failed with
    | i :: _ => if x.live.all Desc.old then some i else none
    | [] => if x.started < x.released then some x.started else none

/-- The spans of local LPDDR5X a descriptor reads or writes, for the snoop filter (R324). -/
def descSpans (s : State) (d : Desc) : List (Nat × Nat) :=
  let sides := match d.kind with
    | 0 => [(d.src, spanBytes d.len d.count d.sstride), (d.dst, spanBytes d.len d.count d.dstride)]
    | 1 => [(d.src, spanBytes d.len d.count d.sstride), (d.arg, spanBytes d.len d.count d.sstride), (d.dst, spanBytes d.len d.count d.dstride)]
    | 3 => [(d.src, 8), (d.dst, 8)]
    | 4 => [(d.src, 64 * (bitsAt (readLE s (gAddr d.src) 8) 32 8 + 2))]
    | 5 => [(d.src, 8256)] ++ (if d.arg = 0 then [] else [(d.arg, 8192)])
    | _ => []
  sides.filterMap fun (g, n) => if isLocal s g && inLp (gAddr g) n then some (gAddr g, n) else none

/-- The local ranges, as global address and bytes, that a message of a descriptor not sent yet has still to read. -/
def pendSpans (s : State) (d : Desc) (p : PendMsg) : List (Nat × Nat) :=
  match p.msg.mtype with
  | 2 => (d.src + p.piece * d.sstride, d.len) :: (if d.kind = 1 then [(d.arg + p.piece * d.sstride, d.len)] else [])
  | 5 => [(d.src, (putWords s d).1.length)]
  | 6 => (d.src, (putWords s d).1.length) :: (if d.arg = 0 then [] else [(d.arg, (putWords s d).1.length - 64)])
  | _ => []

/-- R72, rule 6: the relative rows of core `n` that its movers hold: the source rows of every piece not wholly read. -/
def heldRows (s : State) (n : Nat) : List Nat :=
  let base := (s.core n).run.rowBase
  [0, 1].flatMap fun m => (s.mover n m).rings.flatMap fun r => r.live.flatMap fun d => d.pend.flatMap fun p => (pendSpans s d p).flatMap fun e =>
    if isLocal s e.1 && inAperture (gAddr e.1) e.2 && apCore (gAddr e.1) == n then
      ((spanRows (gAddr e.1) e.2).map fun k => k % 49152 - base)
    else []

/-- Whether a host side lies in the context's host regions (R317). -/
def hostSideOk (s : State) (n : Nat) (d : Desc) : Bool :=
  let x := s.ctx (s.core n).ctx
  (!isHost d.src || d.kind ≥ 2 || inRegion x (gAddr d.src) (spanBytes d.len d.count d.sstride) false)
    && (!isHost d.dst || d.kind ≥ 2 || inRegion x (gAddr d.dst) (spanBytes d.len d.count d.dstride) true)

/-- What a started descriptor does first, by its kind. -/
def runDesc (s : State) (n m r i : Nat) (d : Desc) : State :=
  match d.kind with
  | 2 => s.modDesc n m r i fun d => { d with streaming := true }
  | 3 =>
    let aop := d.aux
    if isLocal s d.dst then
      let (s1, old, st) := applyAtomic s (gAddr d.dst) aop d.arg (d.f 0x20 8)
      let s2 := writeMem s1 (gAddr d.src) (leBytes 8 old) (st == stUNCORR)
      s2.modDesc n m r i fun d => { d with ue := st == stUNCORR }
    else s.modDesc n m r i fun d =>
      { d with pend := [{ msg := { mtype := 3, dst := gNode d.dst, addr := gAddr d.dst, aop := aop, arg := d.arg, win := d.f 0x2A 2
                                   data := aop == 2, words := if aop = 2 then leBytes 8 (d.f 0x20 8) ++ fillBytes 56 0 else [] }
                          loc := d.src }] }
  | 4 => s.modDesc n m r i fun d => { d with pend := [{ msg := { mtype := 5, dst := gNode d.dst, addr := gAddr d.dst }, loc := d.src }] }
  | 5 => s.modDesc n m r i fun d => { d with pend := [{ msg := { mtype := 6, dst := gNode d.dst }, loc := d.src }] }
  | _ =>
    if !hostSideOk s n d then failDesc s n m r i stWINDOW 1
    else if isRemote s d.src then
      s.modDesc n m r i fun d => { d with pend := (List.range d.count).flatMap (pieceMsgs d true (gNode d.src)) }
    else if isRemote s d.dst then
      s.modDesc n m r i fun d => { d with pend := (List.range d.count).flatMap (pieceMsgs d false (gNode d.dst)) }
    else copyLocal s n m r i d

/-- The MKICK word that released an index, for FAULT_WORD (log 30). -/
def kickWord (s : State) (n m r i : Nat) : QWord :=
  (((s.core n).run.q.find? (fun e => e.unit == 8 + m && (match e.kick with | some (k, t) => k == r && decide (i < t) | none => false))).getD {})

/-- R302: FAULT_DATA of a mover fault. -/
def moverData (reason i r m : Nat) : Nat := reason + i % 65536 * 2 ^ 8 + r * 2 ^ 24 + m * 2 ^ 26

/-- R295 to R297, R301, R302, R324: a mover reaches the next descriptor of a ring and starts it when its KIND is `kind`;
one that cannot run at all raises its fault whichever kind was asked for. -/
def startDesc (s : State) (n m r kind : Nat) : State :=
  let x := s.ring n m r
  if (s.core n).mode ≠ .running ∧ !((s.core n).mode = .idle ∧ x.dister) then s
  else
    match x.nextStart with
    | none => s
    | some i =>
      let a := x.addr i
      if isPoisoned s a 64 then unitUncorrRec (noteBad s a 64) n a
      else
        let d : Desc := { idx := i, ctx := (s.core n).ctx, addr := a, order := (s.mover n m).starts, bytes := readMem s a 64 }
        if d.own && d.kind < 6 && d.kind != kind then s
        else
          let bad := descBad s n m d
          let hosty := d.kind < 2 && (isHost d.src || isHost d.dst)
          if bad ≠ 0 then
            let k := kickWord s n m r i
            programFault s n 0x0C (8 + m) k.pc k.word (moverData bad (i % 2 ^ x.log2n) r m)
          else if hosty && !s.cxl.up then s
          else
            match (descSpans s d).flatMap (fun e => snoopedLines s e.1 e.2) with
            | [] =>
              let s1 := ((noteIn s a 64).modMover n m fun y => { y with starts := y.starts + 1 }).modRing n m r fun x =>
                { x with live := x.live ++ [d], started := if x.failed.contains i then x.started else x.started + 1 }
              runDesc s1 n m r i d
            | ls => sendSnoops s ls

/-! ### Responses -/

/-- A response to a message of a descriptor, with its status; for reads, its words arrive through `readPart`. -/
def descResp (s : State) (n m r i : Nat) (p : PendMsg) (st : Nat) : State :=
  let s1 := s.modDesc n m r i fun d => { d with out := d.out - 1 }
  match (s.ring n m r).desc i with
  | none => s
  | some d =>
    if st = stOK then s1
    else if st = stUNCORR ∧ (((p.msg.mtype = 5 ∨ p.msg.mtype = 6) ∧ d.ue) ∨ p.msg.mtype = 3) then s1.modDesc n m r i fun d => { d with ue := true }
    else failMsg s1 n m r i p st

/-- An RDDATA part for a mover's read: written at its place, poisoned or not. -/
def readPart (s : State) (n m r i loc : Nat) (req part : Msg) : State :=
  let s1 := writeSide s (loc + (part.addr - req.addr)) part.words part.poison
  (s1.modDesc n m r i fun d => { d with ue := d.ue || part.poison }).modMover n m fun x => { x with bytes := x.bytes + part.words.length }

/-! ### Completion and write-back (R297, R298, R300) -/

/-- Everything but the signal is complete. -/
def Desc.dataDone (d : Desc) : Bool := d.out == 0 && d.pend.isEmpty && !d.streaming

/-- R297, R300, R301: the 64 bytes written back. -/
def Desc.wbBytes (d : Desc) : List Byte :=
  let ctrl := d.ctrl - bitsAt d.ctrl 0 1 - bitsAt d.ctrl 8 4 * 256 + (if d.cause ≠ 0 then min 15 d.failAttempts else min 15 d.attempts) * 256
  leBytes 4 ctrl ++ leBytes 2 (if d.cause ≠ 0 then stDMAHALT else if d.ue then stUNCORR else stOK) ++ leBytes 2 d.cause ++ d.bytes.drop 8

/-- A ring once descriptor `d` has been written back: one that was started before the ring was bound anew leaves its positions alone. -/
def Ring.wrote (x : Ring) (d : Desc) : Ring :=
  let live := x.live.filter fun e => e.idx != d.idx
  if d.old then { x with live := live }
  else
    { x with live := live, next := if x.failed.contains d.idx && decide (d.idx < x.next) then x.next else d.idx + 1
             failed := if d.cause = 0 then x.failed.filter (· != d.idx) else x.failed
             haltAt := if d.cause = 0 then none else x.haltAt }

/-- Write a descriptor back; the oldest first. -/
def writeBack (s : State) (n m r : Nat) (d : Desc) : State :=
  let x := s.ring n m r
  let s1 := (writeMem s d.addr d.wbBytes).modRing n m r fun x => x.wrote d
  let s2 := kicksDone s1 n m r
  match unitOn s n with
  | some u => if d.cause = 0 ∧ x.haltAt.isSome then setNwait (s2.modUnit u.id fun u => { u with waitRing := false }) else s2
  | none => s2

/-- The descriptor of a ring that completes next: the oldest of the binding in force, or one of an earlier binding that is ready (R300). -/
def Ring.toComplete (x : Ring) : Option Desc :=
  match x.live.find? fun d => d.old && d.dataDone with
  | some d => some d
  | none => x.live.find? fun d => !d.old

/-- DESCRIPTOR_COMPLETE: the oldest descriptor in progress of a ring completes, with its signal, and is written back. -/
def descComplete (s : State) (n m r : Nat) : State :=
  match (s.ring n m r).toComplete with
  | none => s
  | some d =>
    if !d.dataDone then s
    else if d.signal && !d.signalled && d.cause == 0 then
      let mark s : State := s.modDesc n m r d.idx fun d => { d with signalled := true }
      if isRemote s d.dst && d.kind != 2 then
        mark (s.modDesc n m r d.idx fun d =>
          { d with pend := [{ msg := { mtype := 4, dst := gNode d.dst, addr := d.f 0x2C 2, arg := d.f 0x30 4, ctx := d.f 0x2E 2 } }] })
      else
        let (s1, st) := targetSignal s (d.f 0x2E 2) (d.f 0x2C 2) (d.f 0x30 4) (d.f 0x2E 2 == d.ctx) ⟨s.salt.node, 1, n⟩
        let s2 := mark s1
        let s3 := if st = stOK then s2 else failDesc s2 n m r d.idx st 1
        match (s3.ring n m r).desc d.idx with
        | some d' => writeBack s3 n m r d'
        | none => s3
    else writeBack s n m r d

/-! ### Retries (R299) and restarts (R437) -/

/-- Send the messages of a ring again whose wait ended: `credit` selects the kind of wait. -/
def retryRing (s : State) (n m r : Nat) (credit : Bool) : State :=
  let x := s.ring n m r
  let k := (x.live.flatMap Desc.pend).filter (fun p => if credit then p.credit else p.backoff)
  let s1 := s.modRing n m r fun x => { x with live := x.live.map fun d => { d with pend := d.pend.map fun p =>
    if credit then { p with credit := false } else if p.backoff then { p with backoff := false, attempt := p.attempt + 1 } else p } }
  if credit then s1 else s1.modMover n m fun x => { x with retries := x.retries + k.length }

/-- R299: a CREDIT for a tray and slot of a node ends the credit waits for it. -/
def creditWake (s : State) (node tray slot : Nat) : State :=
  let fixD (d : Desc) : Desc := { d with pend := d.pend.map fun p =>
    if p.credit && p.msg.dst == node && p.msg.addr == tray && d.aux % 16 == slot then { p with credit := false } else p }
  let fixM (x : Mover) : Mover := { x with rings := x.rings.map fun r => { r with live := r.live.map fixD } }
  { s with cores := s.cores.map fun e => (e.1, { e.2 with run := { e.2.run with mov0 := fixM e.2.run.mov0, mov1 := fixM e.2.run.mov1 } }) }

/-- R437: restart the halted rings of one core that wait for a neighbour. -/
def restartRing (s : State) (n m r : Nat) : State :=
  let x := s.ring n m r
  match x.haltAt, x.failed with
  | some _, i :: _ =>
    if !x.halted || !x.live.all Desc.old then s
    else
      let a := x.addr i
      (writeLE s a 4 (setBits (readLE s a 4) 0 1 1)).modRing n m r fun x => { x with halted := false }
  | _, _ => s

/-- RING_RESTART: every ring of a running unit that halted on a neighbour's loss. -/
def restartRings (s : State) : State :=
  (s.units.filter WUnit.waitRing).foldl (fun s u => u.cores.foldl (fun s n =>
    [0, 1].foldl (fun s m => (List.range 4).foldl (fun s r => restartRing s n m r) s) s) s) s

end Sys2Proof.Machine
end

