-- ==== Sys2Proof/Machine/Approx.lean ====
section
/-! DEFINITION. The transcendental functions of R104 to within the bounds of Table 5-8: each function's exact value to 256
binary places, and the FP32 patterns that lie within the bound of R105 around it. The device's value is one of these
patterns, left open (log 3). -/

namespace Sys2Proof.Machine

/-- Binary places of the fixed-point numbers here. Every unit in the last place of FP32 is at least 2^-149, so what these
places lose is far below any bound. -/
def fxBits : Nat := 256

/-- A fixed-point number from an integer. -/
def fx (i : Int) : Int := i * 2 ^ fxBits

/-- Product and quotient of fixed-point numbers, rounded down. -/
def fxMul (a b : Int) : Int := (a * b) / 2 ^ fxBits
def fxDiv (a b : Int) : Int := a * 2 ^ fxBits / b

/-- A finite value as a fixed-point number; the places beyond the last are dropped. -/
def fxOf : FVal → Int
  | .fin s m e =>
    let k : Nat := if 0 ≤ e + fxBits then m <<< (e + fxBits).toNat else m >>> (-(e + fxBits)).toNat
    if s then -(k : Int) else k
  | _ => 0

/-- The sum term + term·next(1) + term·next(1)·next(2) + …, each term made from the last. -/
def fxSeries (next : Nat → Int → Int) : Nat → Nat → Int → Int
  | 0, _, _ => 0
  | fuel + 1, i, term => term + fxSeries next fuel (i + 1) (next i term)

/-- The odd powers z + z³/3 + z⁵/5 + … (`alt`: with alternating signs), for |z| ≤ 1/3. -/
def fxOddSeries (alt : Bool) (z : Int) : Int :=
  let sq := fxMul z z
  (List.range 90).foldl (fun (st : Int × Int) i =>
    let term := st.2 / (2 * i + 1 : Nat)
    (if alt && i % 2 == 1 then st.1 - term else st.1 + term, fxMul st.2 sq)) (0, z) |>.1

/-- ln 2 = 2 artanh(1/3). -/
def fxLn2 : Int := 2 * fxOddSeries false (fx 1 / 3)

/-- π = 16 arctan(1/5) − 4 arctan(1/239). -/
def fxPi : Int := 16 * fxOddSeries true (fx 1 / 5) - 4 * fxOddSeries true (fx 1 / 239)

/-- e^x, by x = k ln 2 + r and the exponential series at r. -/
def fxExp (x : Int) : Int :=
  let k := x / fxLn2
  let r := x - k * fxLn2
  let y := fxSeries (fun i t => fxMul t r / (i + 1 : Nat)) 64 0 (fx 1)
  if 0 ≤ k then y * 2 ^ k.toNat else y / 2 ^ (-k).toNat

/-- ln of the positive value m × 2^e, by the binary exponent and 2 artanh((y − 1) / (y + 1)) for 1 ≤ y < 2. -/
def fxLog (m : Nat) (e : Int) : Int :=
  let k := Nat.log2 m
  let y : Int := fx m / 2 ^ k
  2 * fxOddSeries false (fxDiv (y - fx 1) (y + fx 1)) + (e + k) * fxLn2

/-- The alternating series of the sine (`odd`) or cosine at an angle within half a turn. -/
def fxWave (odd : Bool) (r : Int) : Int :=
  let sq := fxMul r r
  let d : Nat := if odd then 1 else 0
  fxSeries (fun i t => -(fxMul t sq) / ((2 * i + 1 + d) * (2 * i + 2 + d) : Nat)) 60 0 (if odd then r else fx 1)

/-- The angle less its whole turns, within half a turn of zero. -/
def fxReduce (x : Int) : Int := x - (x + fxPi) / (2 * fxPi) * (2 * fxPi)

/-- erf x = 2/√π · e^(−x²) · (x + 2x³/3 + 4x⁵/15 + …) for |x| ≤ 7. -/
def fxErf (x : Int) : Int :=
  let sq := fxMul x x
  let sum := fxSeries (fun i t => 2 * fxMul t sq / (2 * i + 3 : Nat)) 360 0 x
  let rootPi : Int := isqrt (fxPi * 2 ^ fxBits).toNat
  2 * fxDiv (fxMul (fxExp (-sq)) sum) rootPi

/-- A bound on an argument beyond which the function stands at its limit as far as FP32 shows. -/
def fxClamp (lim : Int) (x : Int) : Int := max (fx (-lim)) (min (fx lim) x)

/-- 1 / (1 + e^−x). -/
def fxSigm (x : Int) : Int :=
  let p := fxExp (-(if x < 0 then -x else x))
  let low := fxDiv p (fx 1 + p)
  if x < 0 then low else fx 1 - low

/-- The exact value of the operation `o` of Table 5-8 at a finite operand of its domain. -/
def fxValue (o : Nat) (v : FVal) : Int :=
  let x := fxOf v
  match o, v with
  | 0x64, _ => fxExp (fxMul (fxClamp 300 x) fxLn2)
  | 0x65, .fin _ m e => fxDiv (fxLog m e) fxLn2
  | 0x66, _ => fxExp (fxClamp 300 x)
  | 0x67, .fin _ m e => fxLog m e
  | 0x68, _ => 2 * fxSigm (2 * fxClamp 100 x) - fx 1
  | 0x69, _ => fxSigm (fxClamp 300 x)
  | 0x6A, _ => fxWave true (fxReduce x)
  | 0x6B, _ => fxWave false (fxReduce x)
  | _, _ => fxErf (fxClamp 7 x)

/-- Table 5-8: the bound in units in the last place. -/
def ulpBound (o : Nat) : Nat :=
  if o = 0x64 ∨ o = 0x65 then 1 else if o = 0x68 ∨ o = 0x69 ∨ o = 0x6C then 3 else 2

/-- The FP32 patterns numbered `i` in the order of their values, both zeros being number 0. -/
def ordWords (i : Int) : List W32 :=
  let mag := BitVec.ofNat 32 i.natAbs
  let minus := 0x80000000#32 ||| mag
  if i < 0 then [minus] else if i = 0 then [mag, minus] else [mag]

/-- The finite FP32 patterns within `n` units in the last place of the exact value `y` (R105). A unit's 2^-40 is allowed
for the places that `y` has lost. -/
def nearWords (n : Nat) (y : Int) : List W32 :=
  let mag := roundMag pFP32 .rne y.natAbs (-(fxBits : Int))
  let unit := fxOf (.fin false 1 (max (mag / 2 ^ 23 : Nat) 1 - 150))
  let near : Int := if y < 0 then -(mag : Int) else mag
  ((List.range (2 * n + 3)).map fun i => near + (i : Int) - (n + 1 : Nat)).flatMap fun i =>
    (ordWords i).filter fun w =>
      i.natAbs ≤ maxFinite pFP32 && decide ((fxOf (ofF32 w) - y).natAbs ≤ n * unit + unit / 2 ^ 40)

/-- R104, R105: a transcendental operation at a finite operand of its domain: one of the patterns within its bound, the
same one each time. -/
def transFinite (o : Nat) (x : W32) : W32 :=
  let l := nearWords (ulpBound o) (fxValue o (ofF32 x))
  l.getD (Config.ulpPick o x % l.length) 0

end Sys2Proof.Machine
end

