-- ==== Sys2Proof/Machine/ArrayUnit.lean ====
section
/-! DEFINITION. What the matrix array's words do to the engine state and to scratchpad: ASTAT (R55 to R57), AMUL in
every mode (R63 to R65, R79 to R87), ADRAIN (R67), ALOAD (R68), with the uncorrectable reads of R77. -/

namespace Sys2Proof.Machine

/-- Values whose decoded value is zero, counted (R73). -/
def zeros (l : List FVal) : Nat := (l.filter fvZero).length

/-- R70: the parameter checks of an ASTAT word. -/
def astatBad (w : W128) : Bool :=
  let d := wf w 10 5
  wf w 15 1 != 0 || wf w 61 67 != 0 || wf w 48 9 == 0 || wf w 48 9 > 256 || wf w 57 4 == 0
    || wf w 57 4 > depthOf (classOf (fdCode d)) / 32

/-- R55 to R57: the tile an ASTAT word names, as its enabled tokens' enabled values. -/
def astatTile (v : View) (w : W128) : List (List FVal) :=
  let d := wf w 10 5
  let c := fdCode d
  let depth := depthOf (classOf c)
  let el := unpack c (v.bytes (wf w 16 16) 0 (256 * vecElemBytes d))
  let sc := if fdScaled d then v.bytes (wf w 32 16) 0 (256 * vecScaleBytes d) else []
  let rows := 32 * wf w 57 4
  (List.range (wf w 48 9)).map fun t =>
    if wf w 9 1 = 1 then
      (List.range rows).map fun r => decScaled d sc (r * 256 + t) (el.getD (r * 256 + t) 0)
    else
      decPlane d sc (t * depth) ((el.drop (t * depth)).take rows)

/-- ASTAT: load a stationary buffer; every dead mark of it is revived (R86). -/
def runAstat (v : View) (e : Engine) (w : W128) : UOut :=
  match v.badOf (readRows w) with
  | [] =>
    let cols := astatTile v w
    let e' := e.setBuf (wf w 8 1)
      { full := true, fmt := wf w 10 5, tokens := wf w 48 9, blocks := wf w 57 4, cols := cols, dead := []
        elem := v.bytes (wf w 16 16) 0 (256 * vecElemBytes (wf w 10 5))
        scale := if fdScaled (wf w 10 5) then v.bytes (wf w 32 16) 0 (256 * vecScaleBytes (wf w 10 5)) else [] }
    .ok (e'.count 0x0238 (cols.foldl (fun n c => n + zeros c) 0)) []
  | l => .uncorr e l

/-! ### AMUL -/

/-- R70, R83: the parameter checks of an AMUL word. -/
def amulBad (w : W128) : Bool :=
  let d := wf w 10 5
  let src := wf w 15 2
  let mode := wf w 38 4
  let cnt := wf w 28 10
  mode ≥ 8 || wf w 42 6 != 0 || wf w 80 48 != 0 || cnt == 0 || cnt > 512 || wf w 19 9 + cnt > 512
    || (src < 2 && wf w 48 16 != 0) || ((src < 2 || !fdScaled d) && wf w 64 16 != 0)
    || (src % 2 == 1 && cnt % depthOf (classOf (fdCode d)) != 0) || (mode ≥ 4 && wf w 17 2 % 2 == 1)

/-- R63: the outgoing vectors of one transposed group. -/
def transposeGroup (g : List (List FVal)) : List (List FVal) :=
  (List.range g.length).map fun i => g.map fun vec => vec.getD i .nan

/-- R63: the vectors the array consumes, from the incoming vectors. -/
def amulVectors (w : W128) (incoming : List (List FVal)) : List (List FVal) :=
  if wf w 15 1 = 1 then
    let d := depthOf (classOf (fdCode (wf w 10 5)))
    ((chunks d incoming.length incoming).filter (fun g => g.length == d)).flatMap transposeGroup
  else incoming

/-- The tag an AMUL gives (Table 4-1): INT32 for the INT8 class. -/
def amulInt (w : W128) : Bool := classOf (fdCode (wf w 10 5)) == .i8

/-- R81, R82: an operand pair's cell value in the additive modes: product, squared difference, absolute difference. -/
def cellSum (mode : Nat) (s x : FVal) : FVal × BitVec 7 :=
  if mode = 0 ∨ mode = 6 then mulF s x
  else
    let (df, f) := addF s (fvNeg x)
    if mode = 2 then (fvAbs df, f) else let (q, _) := mulF df df; (q, f)

/-- R40, R42, R81: the sum over a column's enabled positions of one wavefront: the FP32 block sums in order, or for
the INT8 class the exact integer. `acc` is the starting value. -/
def columnSum (int : Bool) (mode : Nat) (acc : W32) (fresh : Bool) (col vec : List FVal) : W32 × BitVec 7 :=
  let cells := (col.zip vec).map fun (s, x) => cellSum mode s x
  if int then
    let t := cells.foldl (fun n c => n + intOf c.1) 0
    intSat ((if fresh then 0 else acc.toInt) + t)
  else
    let blocks := chunks 32 cells.length cells
    let r := blocks.foldl (fun (st : Option W32 × BitVec 7) blk =>
      let (b, f) := blockSum blk
      match st.1 with
      | none => (some b, st.2 ||| f)
      | some a => let (x, g) := accAdd a b; (some x, st.2 ||| f ||| g)) (if fresh then none else some acc, 0)
    (r.1.getD 0, r.2)

/-- R80 to R82: the cell value of an ordering mode, in the INT8 class with the marks of R80. -/
def cellOrder (int : Bool) (mode : Nat) (s x : FVal) : FVal × BitVec 7 :=
  if mode = 3 then
    let (df, f) := addF s (fvNeg x)
    (fvAbs df, f)
  else if int then
    let i := intOf x
    if mode = 4 then (if i = 127 then (s, 0) else if i = -128 then (ofInt (-2147483648), 0) else (ofInt (min (intOf s) i), 0))
    else (if i = -128 then (s, 0) else if i = 127 then (ofInt 2147483647, 0) else (ofInt (max (intOf s) i), 0))
  else if fvNan s || fvNan x then (.nan, fNANIN)
  else if mode = 4 then (if gtF s x then (x, 0) else (s, 0))
  else (if gtF x s then (x, 0) else (s, 0))

/-- R82: a NaN never wins: it stands as −infinity in a maximum and +infinity in a minimum. -/
def asLoser (maxi : Bool) (v : FVal) : FVal := if fvNan v then .inf maxi else v

/-- R82: the best of the candidates, the lowest position winning among equals. DEDUCED, log 84: a NaN cell stands as the
losing infinity at its own position, so it ties with a genuine one, and a column of NaN cells only has a winner. -/
def bestOf (maxi : Bool) : List (Nat × FVal) → Option (Nat × FVal)
  | [] => none
  | (i, v) :: t => match bestOf maxi t with
    | none => some (i, asLoser maxi v)
    | some (j, b) =>
      let a := asLoser maxi v
      if (if maxi then gtF b a else gtF a b) then some (j, b) else some (i, a)

/-- An ordering result as a 32-bit entry value: the integer itself in the INT8 class, else rounded once (R81). -/
def orderWord (int : Bool) (v : FVal) : W32 × BitVec 7 :=
  if int then
    match v with
    | .inf s => (if s then 0x80000000#32 else 0x7FFFFFFF#32, 0)
    | v => (BitVec.ofInt 32 (intOf v), 0)
  else roundRes (v, 0)

/-- Whether mode 3 to 7 combines by maximum (Table 4-1). -/
def modeMax (mode : Nat) : Bool := mode == 3 || mode == 4 || mode == 6

/-- R82: the candidate `x` is strictly better than the value the entry holds. DEDUCED, log 84: a NaN that the entry holds
stands as the losing infinity and sets no flag. -/
def strictlyBetter (int maxi : Bool) (x old : W32) : Bool :=
  if int then (if maxi then decide (x.toInt > old.toInt) else decide (x.toInt < old.toInt))
  else
    let a := asLoser maxi (ofF32 x)
    let b := asLoser maxi (ofF32 old)
    if maxi then gtF a b else gtF b a

/-- One column's outcome of one wavefront. -/
structure ColOut where
  value : W32
  comp : Option W32
  dead : Option Nat
  flags : BitVec 7

/-- R79 to R87: one wavefront of one column. `old` and `oldc` are the entry's and the companion's values. -/
def amulColumn (int : Bool) (mode : Nat) (init : Bool) (pass : Nat) (dead : Nat → Bool) (old oldc : W32)
    (col vec : List FVal) : ColOut :=
  if mode ≤ 2 then
    let (x, f) := columnSum int mode (if init then 0 else old) false col vec
    ⟨x, none, none, f⟩
  else
    let maxi := modeMax mode
    let cand : W32 × Option Nat × BitVec 7 :=
      if mode ≥ 6 then
        let (x, f) := columnSum int mode 0 true col vec
        if !int && fvNan (ofF32 x) then ((toF32 (.inf maxi)).1, some 0, f ||| fNANIN) else (x, some 0, f)
      else
        let cells := ((List.range col.length).zip (col.zip vec)).filter (fun c => mode = 3 || !dead c.1)
        let vals := cells.map fun (i, s, x) => (i, cellOrder int mode s x)
        let f := vals.foldl (fun g c => g ||| c.2.2 ||| (if fvNan c.2.1 then fNANIN else 0)) 0
        match bestOf maxi (vals.map fun (i, v) => (i, v.1)) with
        | none => ((orderWord int (.inf maxi)).1, none, f)
        | some (i, v) => let (x, g) := orderWord int v; (x, some i, f ||| g)
    let comp : W32 := match cand.2.1 with
      | none => 0xFFFFFFFF#32
      | some i => BitVec.ofNat 32 (pass * 256 + (if mode ≥ 6 then 0 else i))
    let take := init || strictlyBetter int maxi cand.1 old
    { value := if take then cand.1 else old
      comp := if mode ≥ 4 then some (if take then comp else oldc) else none
      dead := if mode = 4 ∨ mode = 5 then cand.2.1 else none
      flags := cand.2.2 }

/-- R73, R88: a cell does not switch its multiplier for an operand pair: in modes 0x0 and 0x6 a zero operand beside a finite one. -/
def gatedPair (mode : Nat) (s x : FVal) : Bool :=
  (mode == 0 || mode == 6) && ((fvZero s && !fvNan x && !fvInf x) || (fvZero x && !fvNan s && !fvInf s))

/-- Table 15-3: the energy of one beat of an active cell, in fJ at 0.75 V. -/
def cellEnergy (mode : Nat) : Nat := if 3 ≤ mode ∧ mode ≤ 5 then 36 else if mode = 1 ∨ mode = 7 then 99 else 90

/-- Table 15-3: the energy of one wavefront, in fJ at 0.75 V: every cell of the array is active or gated, over the beats that the class takes. -/
def waveEnergy (w : W128) (sb : SBuf) (dead : List Nat) (vec : List FVal) : Nat :=
  let mode := wf w 38 4
  let c := classOf (fdCode (wf w 10 5))
  let skip (t i : Nat) : Bool := (mode == 4 || mode == 5) && dead.contains (t * 256 + i)
  let active := (((List.range sb.tokens).zip sb.cols).map fun (t, col) =>
    (((List.range col.length).zip (col.zip vec)).filter fun (i, s, x) => !gatedPair mode s x && !skip t i).length).foldl (· + ·) 0
  (active * cellEnergy mode + (256 * depthOf c - active) * 15) * (if c = .f32 then 2 else 1)

/-- The state an AMUL carries from wavefront to wavefront; `fj` is the energy of Table 15-3. -/
structure AmulSt where
  acc : Tab AccEnt
  dead : List Nat
  flags : BitVec 7
  fj : Nat := 0

/-- R56, R64, R85: an entry as an AMUL with INIT = 1 leaves it before its contributions. -/
def entryFor (init int : Bool) (old : AccEnt) : AccEnt := if init then { int := int, v := [] } else old

/-- One wavefront over every enabled column. -/
def amulVector (w : W128) (sb : SBuf) (pass : Nat) (st : AmulSt) (idx : Nat) (vec : List FVal) : AmulSt :=
  let int := amulInt w
  let mode := wf w 38 4
  let init := wf w 9 1 == 1
  let key := wf w 17 2 * 512 + wf w 19 9 + idx
  let old := entryFor init int (tget {} st.acc key)
  let oldc := entryFor init true (tget {} st.acc (key + 512))
  let outs := ((List.range sb.tokens).zip sb.cols).map fun (t, col) =>
    (t, amulColumn int mode init pass (fun i => st.dead.contains (t * 256 + i)) (tget 0 old.v t) (tget 0 oldc.v t) col vec)
  let v' := outs.foldl (fun m (t, o) => tput 0 m t o.value) old.v
  let c' := outs.foldl (fun m (t, o) => match o.comp with | some x => tput 0 m t x | none => m) oldc.v
  let acc1 := tput {} st.acc key { old with v := v' }
  { acc := if mode ≥ 4 then tput {} acc1 (key + 512) { oldc with v := c' } else acc1
    dead := outs.foldl (fun d (t, o) => match o.dead with | some i => ninsert d (t * 256 + i) | none => d) st.dead
    flags := outs.foldl (fun f (_, o) => f ||| o.flags) st.flags
    fj := st.fj + waveEnergy w sb st.dead vec }

/-- Every wavefront in order. -/
def amulVectorsFrom (w : W128) (sb : SBuf) (pass : Nat) : AmulSt → Nat → List (List FVal) → AmulSt
  | st, _, [] => st
  | st, i, vec :: t => amulVectorsFrom w sb pass (amulVector w sb pass st i vec) (i + 1) t

/-- R64, R85: the tag mismatches that raise a format fault when INIT = 0. -/
def tagClash (w : W128) (acc : Tab AccEnt) : Bool :=
  let base := wf w 17 2 * 512 + wf w 19 9
  wf w 9 1 == 0 && (List.range (wf w 28 10)).any (fun i =>
    (tget {} acc (base + i)).int != amulInt w
      || (wf w 38 4 ≥ 4 && !(tget {} acc (base + i + 512)).int))

/-- The number of incoming vectors an AMUL takes: COUNT. -/
def amulNeeds (w : W128) : Nat := wf w 28 10

/-- AMUL over incoming vectors already taken, of which there may be fewer than COUNT where the stream ended early. The
pass counter of R84 advances once. `before` is the state a trapped flag returns to. -/
def amulApply (e : Engine) (w : W128) (incoming : List (List FVal)) : Engine × BitVec 7 :=
  let sb := e.buf (wf w 8 1)
  let mode := wf w 38 4
  let pair := wf w 17 2 / 2
  let cur := if wf w 9 1 = 1 then 0 else if pair = 0 then e.pass01 else e.pass23
  let vecs := amulVectors w incoming
  if vecs.isEmpty then (e, 0) else
  let st := amulVectorsFrom w sb cur ⟨e.acc, sb.dead, 0, 0⟩ 0 vecs
  let nxt := satAdd 0xFFFF cur 1
  let e1 := { (e.setBuf (wf w 8 1) { sb with dead := st.dead }) with acc := st.acc }
  let e2 := if mode < 4 then e1 else if pair = 0 then { e1 with pass01 := nxt } else { e1 with pass23 := nxt }
  let beats := vecs.length * (if classOf (fdCode (wf w 10 5)) = .f32 then 2 else 1)
  (((e2.count 0x0200 beats).count 0x0230 (incoming.foldl (fun n v => n + zeros v) 0)).count ctrEnergy st.fj, st.flags)

/-- Every good vector before the first poisoned row of a local source. -/
def localGood (v : View) (w : W128) (eRow sRow cnt : Nat) : Nat × List Nat :=
  let d := wf w 10 5
  let bad (i : Nat) : List Nat := v.badOf (rowsOfSpan eRow (i * vecElemBytes d) (vecElemBytes d)
    ++ (if fdScaled d then rowsOfSpan sRow (i * vecScaleBytes d) (vecScaleBytes d) else []))
  let good := ((List.range cnt).takeWhile (fun i => (bad i).isEmpty)).length
  (good, if good < cnt then bad good else [])

/-- The vectors of a local source (R59). -/
def localVectors (v : View) (w : W128) (eRow sRow n : Nat) : List (List FVal) :=
  let d := wf w 10 5
  (List.range n).map fun i =>
    decVec d (v.bytes eRow (i * vecElemBytes d) (vecElemBytes d)
      ++ (if fdScaled d then v.bytes sRow (i * vecScaleBytes d) (vecScaleBytes d) else []))

/-- AMUL from a local source (R59, R63, R77). -/
def runAmulLocal (v : View) (e : Engine) (w : W128) : UOut :=
  let (n, bad) := localGood v w (wf w 48 16) (wf w 64 16) (wf w 28 10)
  let (e', fl) := amulApply e w (localVectors v w (wf w 48 16) (wf w 64 16) n)
  match finish e e' fl 0 [] with
  | .ok e2 wr => if bad.isEmpty then .ok e2 wr else .uncorr e2 bad
  | r => r

/-- AMUL over the vectors a stream delivered: `taken` in order, `poisoned` where the next one was poisoned (R77), and
`short` where an end marker came first (R62). -/
def runAmulStream (e : Engine) (w : W128) (taken : List (List Byte)) (poisoned short : Bool) : UOut :=
  let d := wf w 10 5
  let (e', fl) := amulApply e w (taken.map (decVec d))
  match finish e e' fl 0 [] with
  | .ok e2 wr =>
    if poisoned then .uncorr e2 []
    else if short then .fault e2 0x06 (BitVec.ofNat 64 taken.length)
    else .ok e2 wr
  | r => r

/-! ### ADRAIN and ALOAD -/

/-- R67, R70: the parameter checks of an ADRAIN word. -/
def adrainBad (w : W128) : Bool :=
  let cv := convOf (wf w 64 16)
  let cnt := wf w 19 10
  wf w 29 3 != 0 || wf w 88 40 != 0 || cnt == 0 || cnt > 512 || wf w 10 9 + cnt > 512
    || cnt % depthOf (classOf (fdCode cv.tfmt)) != 0

/-- What a drain of one tile gives: its element plane, its scale plane, its flags and its saturated elements. -/
structure TileOut where
  elems : List Byte
  scales : List Byte
  flags : BitVec 7
  satN : Nat

/-- R67, R98: convert the entries `ents` (one tile, D_t of them) for token positions 0 to `tokens` − 1, token-major,
blocks of 32 along the entries. `base` is the stochastic index of token 0, element 0. -/
def drainTile (cv : Conv) (seed : W64) (pad : Byte) (tokens base : Nat) (given : List Byte) (ents : List AccEnt) : TileOut :=
  let dt := ents.length
  let per := scaleBytesPerBlock cv.tfmt
  let blks := (List.range tokens).flatMap fun t =>
    (List.range (dt / 32)).map fun j =>
      let es := (ents.drop (32 * j)).take 32
      let k := t * (dt / 32) + j
      let cvb := cvFor cv (es.any AccEnt.int && cv.tfmt == 0)
      cvBlock cvb seed pad ((given.drop (k * per)).take per) (countFrom (base + t * dt + 32 * j) 32)
        (es.map fun a => accVal a.int (tget 0 a.v t))
  { elems := pack (fdCode cv.tfmt) (blks.flatMap BlkOut.elems)
    scales := blks.flatMap BlkOut.scales
    flags := blks.foldl (fun f b => f ||| b.flags) 0
    satN := blks.foldl (fun n b => n + b.satN) 0 }

/-- Entries of an accumulator, `n` from key `k`, one of which reads uncorrectable. -/
def accBad (acc : Tab AccEnt) (k n : Nat) : Bool := acc.any fun a => a.2.bad && decide (k ≤ a.1) && decide (a.1 < k + n)

/-- ADRAIN with the seed value its word took at dispatch (R123). It writes its full range, or nothing where its bank or its given
scales read uncorrectable (R77). -/
def runAdrain (v : View) (e : Engine) (w : W128) (seed : W64) : UOut :=
  match v.badOf (readRows w) with
  | [] =>
    if accBad e.acc (wf w 8 2 * 512 + wf w 10 9) (wf w 19 10) then .uncorr e [] else
    let cv := convOf (wf w 64 16)
    let dt := depthOf (classOf (fdCode cv.tfmt))
    let er := tileRows cv.tfmt 256
    let sr := tileScaleRows cv.tfmt 256
    let base := wf w 8 2 * 512 + wf w 10 9
    let pad := (Config.freeBytes v.free 1).getD 0 0
    let tiles := (List.range (wf w 19 10 / dt)).map fun j =>
      (j, drainTile cv seed pad 256 (j * 256 * dt)
        (if cv.given then v.bytes (wf w 48 16 + j * sr) 0 (sr * 512) else [])
        ((countFrom (base + j * dt) dt).map (tget {} e.acc)))
    let wr := tiles.flatMap fun (j, t) =>
      ((wf w 32 16 + j * er) * 512, t.elems)
        :: (if fdScaled cv.tfmt && !cv.given then [((wf w 48 16 + j * sr) * 512, t.scales)] else [])
    finish e e (tiles.foldl (fun f t => f ||| t.2.flags) 0) (tiles.foldl (fun n t => n + t.2.satN) 0) wr
  | l => .uncorr e l

/-- R68, R70: the parameter checks of an ALOAD word. -/
def aloadBad (w : W128) : Bool :=
  let cnt := wf w 19 10
  wf w 30 2 != 0 || wf w 48 80 != 0 || cnt == 0 || cnt > 512 || wf w 10 9 + cnt > 512 || cnt % 32 != 0

/-- ALOAD (R68): all 256 columns of COUNT entries from tiles of depth 32. -/
def runAload (v : View) (e : Engine) (w : W128) : UOut :=
  match v.badOf (readRows w) with
  | [] =>
    let base := wf w 8 2 * 512 + wf w 10 9
    let acc := (List.range (wf w 19 10 / 32)).foldl (fun acc j =>
      let words := unpack32 (v.bytes (wf w 32 16 + j * 64) 0 32768)
      (List.range 32).foldl (fun acc i =>
        let vals := (List.range 256).foldl (fun m t => tput 0 m t (BitVec.ofNat 32 (words.getD (t * 32 + i) 0))) []
        tput {} acc (base + j * 32 + i) { int := wf w 29 1 == 1, v := vals }) acc) e.acc
    .ok { e with acc := acc } []
  | l => .uncorr e l

end Sys2Proof.Machine
end

