-- ==== Sys2Proof/Machine/FurrowUnit.lean ====
section
/-! DEFINITION. What the furrow's words do: FRES (R96), FMUL (R97), FDRAIN (R98), with their parameter checks (R100)
and uncorrectable reads (R114). -/

namespace Sys2Proof.Machine

/-- R100: the parameter checks of an FRES word. -/
def fresBad (w : W128) : Bool :=
  let d := wf w 10 5
  wf w 9 1 != 0 || wf w 15 1 != 0 || wf w 57 71 != 0 || wf w 48 5 == 0 || wf w 48 5 > 16 || wf w 53 4 == 0
    || wf w 53 4 > depthOf (classOf (fdCode d)) / 32

/-- FRES: load a resident buffer in tile layout with RVEC tokens. -/
def runFres (v : View) (e : Engine) (w : W128) : UOut :=
  match v.badOf (readRows w) with
  | [] =>
    let d := wf w 10 5
    let c := fdCode d
    let n := wf w 48 5
    let depth := depthOf (classOf c)
    let eb := v.bytes (wf w 16 16) 0 (n * vecElemBytes d)
    let el := unpack c eb
    let sc := if fdScaled d then v.bytes (wf w 32 16) 0 (n * vecScaleBytes d) else []
    let cols := (List.range n).map fun t => decPlane d sc (t * depth) ((el.drop (t * depth)).take (32 * wf w 53 4))
    .ok (e.setRbuf (wf w 8 1) { full := true, fmt := d, tokens := n, blocks := wf w 53 4, cols := cols, dead := [], elem := eb, scale := sc }) []
  | l => .uncorr e l

/-- R100: the parameter checks of an FMUL word. -/
def fmulBad (w : W128) : Bool :=
  let d := wf w 10 5
  let src := wf w 15 2
  let cnt := wf w 27 11
  src == 3 || wf w 38 10 != 0 || wf w 80 48 != 0 || cnt == 0 || cnt > 1024 || wf w 17 10 + cnt > 1024
    || (src != 2 && wf w 48 16 != 0) || ((src != 2 || !fdScaled d) && wf w 64 16 != 0)

/-- R64, R97: an INIT = 0 contribution of the other type. -/
def ftagClash (w : W128) (acc : Tab AccEnt) : Bool :=
  wf w 9 1 == 0 && (List.range (wf w 27 11)).any (fun i => (tget {} acc (wf w 17 10 + i)).int != amulInt w)

/-- One weight vector over every enabled resident vector. -/
def fmulVector (w : W128) (sb : SBuf) (st : AmulSt) (idx : Nat) (vec : List FVal) : AmulSt :=
  let int := amulInt w
  let init := wf w 9 1 == 1
  let key := wf w 17 10 + idx
  let old := entryFor init int (tget {} st.acc key)
  let outs := ((List.range sb.tokens).zip sb.cols).map fun (t, col) =>
    (t, columnSum int 0 (tget 0 old.v t) false col vec)
  { st with
    acc := tput {} st.acc key { old with v := outs.foldl (fun m (t, o) => tput 0 m t o.1) old.v }
    flags := outs.foldl (fun f (_, o) => f ||| o.2) st.flags }

def fmulVectorsFrom (w : W128) (sb : SBuf) : AmulSt → Nat → List (List FVal) → AmulSt
  | st, _, [] => st
  | st, i, vec :: t => fmulVectorsFrom w sb (fmulVector w sb st i vec) (i + 1) t

/-- R97 over vectors already taken, with the wavefronts of R93 counted. -/
def fmulApply (e : Engine) (w : W128) (vecs : List (List FVal)) : Engine × BitVec 7 :=
  let st := fmulVectorsFrom w (e.rbuf (wf w 8 1)) ⟨e.facc, [], 0, 0⟩ 0 vecs
  let two := wf w 15 2 != 0 && classOf (fdCode (wf w 10 5)) != .f32
  let sb := e.rbuf (wf w 8 1)
  -- Table 15-3: a MAC of every resident vector, and the intake of every weight element
  let fj := (vecs.map fun v => v.length * 900 + sb.tokens * (32 * sb.blocks) * 800).foldl (· + ·) 0
  (({ e with facc := st.acc }.count 0x0280 (if two then ceilDiv vecs.length 2 else vecs.length)).count ctrEnergy fj, st.flags)

/-- FMUL from a local source. -/
def runFmulLocal (v : View) (e : Engine) (w : W128) : UOut :=
  let (n, bad) := localGood v w (wf w 48 16) (wf w 64 16) (wf w 27 11)
  let (e', fl) := fmulApply e w (localVectors v w (wf w 48 16) (wf w 64 16) n)
  match finish e e' fl 0 [] with
  | .ok e2 wr => if bad.isEmpty then .ok e2 wr else .uncorr e2 bad
  | r => r

/-- FMUL over the vectors a stream delivered (R94, R62, R114). -/
def runFmulStream (e : Engine) (w : W128) (taken : List (List Byte)) (poisoned short : Bool) : UOut :=
  let (e', fl) := fmulApply e w (taken.map (decVec (wf w 10 5)))
  match finish e e' fl 0 [] with
  | .ok e2 wr =>
    if poisoned then .uncorr e2 []
    else if short then .fault e2 0x06 (BitVec.ofNat 64 taken.length)
    else .ok e2 wr
  | r => r

/-- R100: the parameter checks of an FDRAIN word. -/
def fdrainBad (w : W128) : Bool :=
  let cv := convOf (wf w 64 16)
  let cnt := wf w 18 11
  wf w 29 3 != 0 || wf w 88 40 != 0 || cnt == 0 || cnt > 1024 || wf w 8 10 + cnt > 1024
    || cnt % depthOf (classOf (fdCode cv.tfmt)) != 0

/-- R98: an entry as FDRAIN reads it: +0 at the positions beyond RVEC of the last FRES before it in dispatch order (R101). -/
def belowRvec (rvec : Nat) (a : AccEnt) : AccEnt := { a with v := a.v.filter (fun p => p.1 < rvec) }

/-- FDRAIN (R98) with the seed value and the RVEC that its word took at dispatch. The bytes of the scale row beyond a tile's
scales are open (log 6). -/
def runFdrain (v : View) (e : Engine) (w : W128) (seed : W64) (rvec : Nat) : UOut :=
  match v.badOf (readRows w) with
  | [] =>
    if accBad e.facc (wf w 8 10) (wf w 18 11) then .uncorr e [] else
    let cv := convOf (wf w 64 16)
    let dt := depthOf (classOf (fdCode cv.tfmt))
    let er := tileRows cv.tfmt 16
    let pad := (List.range 513).map fun i => (Config.freeBytes v.free 513).getD i 0
    let tiles := (List.range (wf w 18 11 / dt)).map fun j =>
      (j, drainTile cv seed (pad.getD 512 0) 16 (j * 16 * dt)
        (if cv.given then v.bytes (wf w 48 16 + j) 0 512 else [])
        ((countFrom (wf w 8 10 + j * dt) dt).map fun k => belowRvec rvec (tget {} e.facc k)))
    let wr := tiles.flatMap fun (j, t) =>
      ((wf w 32 16 + j * er) * 512, t.elems)
        :: (if fdScaled cv.tfmt && !cv.given then
              [((wf w 48 16 + j) * 512, t.scales ++ (pad.take 512).drop t.scales.length)]
            else [])
    finish e e (tiles.foldl (fun f t => f ||| t.2.flags) 0) (tiles.foldl (fun n t => n + t.2.satN) 0) wr
  | l => .uncorr e l

end Sys2Proof.Machine
end

