-- ==== Sys2Proof/Machine/VectorUnit.lean ====
section
/-! DEFINITION. What the vector unit's words do (R102 to R110): elementwise operations with the special values of R105,
reductions (R106), VLD and VST (R107), VGATHER (R108), and the parameter checks of R110. -/

namespace Sys2Proof.Machine

/-- The operation groups of Table 5-7 and Table 5-8. -/
inductive VGroup
  | arith | cmp | sel | integer | cvt | root | trans | red | ld | st | gath | none
  deriving DecidableEq, Repr

/-- Table 5-8: the group of an operation code. -/
def vGroup (o : Nat) : VGroup :=
  if 0x40 ≤ o ∧ o ≤ 0x47 then .arith else if 0x48 ≤ o ∧ o ≤ 0x4A then .cmp else if o = 0x4B then .sel
  else if 0x50 ≤ o ∧ o ≤ 0x58 then .integer else if o = 0x59 ∨ o = 0x5A then .cvt
  else if 0x60 ≤ o ∧ o ≤ 0x63 then .root else if 0x64 ≤ o ∧ o ≤ 0x6C then .trans
  else if 0x70 ≤ o ∧ o ≤ 0x74 then .red else if o = 0x78 then .ld else if o = 0x79 then .st
  else if o = 0x7A then .gath else .none

/-- Whether an operation reads VB (two and three operands). -/
def usesVB (o : Nat) : Bool := (0x40 ≤ o && o ≤ 0x45) || (0x48 ≤ o && o ≤ 0x4B) || (0x50 ≤ o && o ≤ 0x58) || o == 0x60

/-- R103, R110: reserved fields, GSIZE, SLOT and SOFF. -/
def vecBad (w : W128) : Bool :=
  let o := wOp w
  let noVB := !usesVB o && wf w 18 5 != 0
  let noVC := o != 0x43 && wf w 23 5 != 0
  noVB || noVC ||
  match vGroup o with
  | .none => true
  | .arith | .cmp | .sel | .integer | .root => wf w 33 31 != 0 || wf w 96 32 != 0
  | .cvt | .trans => wf w 32 96 != 0
  | .red => wf w 37 91 != 0 || wf w 32 4 == 0 || wf w 32 4 > 9
  | .ld =>
    let d := wf w 32 5
    wf w 13 5 != 0 || wf w 37 11 != 0 || wf w 87 41 != 0 || wf w 85 2 > maxSlot (fdCode d)
      || (fdScaled d && wf w 80 5 * 16 + vecScaleLen d > 512)
  | .st =>
    let d := (convOf (wf w 32 16)).tfmt
    wf w 87 1 != 0 || wf w 85 2 > maxSlot (fdCode d) || (fdScaled d && wf w 80 5 * 16 + vecScaleLen d > 512)
  | .gath => wf w 32 16 != 0 || wf w 80 48 != 0

/-- R110: an invalid SFMT or CONV. The faulting descriptor is the second component. -/
def vecFormatBad (w : W128) : Option Nat :=
  match vGroup (wOp w) with
  | .ld => if fdValid (wf w 32 5) then Option.none else some (wf w 32 5)
  | .st => if convValid (convOf (wf w 32 16)) then Option.none else some (wf w 32 5)
  | _ => Option.none

/-- Lane `l` of a vector register. -/
def vlane (e : Engine) (r l : Nat) : W32 := tget 0 e.vreg (r * 512 + l)
/-- Bit `l` of a mask register. -/
def mbit (e : Engine) (r l : Nat) : Bool := tget false e.mreg (r * 512 + l)

/-- R102: whether lane `l` is active; VSEL takes PM as its selector whatever PEN holds. -/
def laneActive (e : Engine) (w : W128) (l : Nat) : Bool := wf w 31 1 == 0 || wOp w == 0x4B || mbit e (wf w 28 3) l

/-- The active lanes in ascending order. -/
def activeLanes (e : Engine) (w : W128) : List Nat := (List.range 512).filter (laneActive e w)

/-- R105: an operation over values already decoded, NaN inputs giving NaN with NAN_IN. -/
def nanGuard (a : List FVal) (r : W32 × BitVec 7) : W32 × BitVec 7 := if a.any fvNan then (nan32, fNANIN) else r

/-- R104, R105: the reciprocal and the reciprocal root of a value, within 1 ulp. -/
def rcpWord (root : Bool) (x : W32) : W32 × BitVec 7 :=
  let v := ofF32 x
  let (q, f) : FVal × BitVec 7 :=
    if root then
      let (r, f) := sqrtF v
      if f != 0 then (.nan, f)
      else if fvZero v then (.inf (fvSign v), fOVERFLOW)
      else if fvInf r then (.fin false 0 0, 0)
      else (match divF (.fin false 1 0) v with
        | (.fin _ m e, _) => (sqrtFin m e, 0)
        | r => r)
    else divF (.fin false 1 0) v
  let (w, g) := roundRes (q, f)
  if g != 0 || fvZero q || fvNan q || fvInf q then (w, g)
  else
    let s := fvSign v && !root
    let mag : W32 := w &&& 0x7FFFFFFF#32
    let cands := near1 root (fvAbs v) mag
    let pick := cands.getD (Config.ulpPick (if root then 0x63 else 0x62) x % cands.length) mag
    (if s then pick ||| 0x80000000#32 else pick, 0)

/-- R104, R105: the transcendental operations: the special values, and within their domain a value within the bound of
Table 5-8 (`transFinite`, log 3). -/
def transWord (o : Nat) (x : W32) : W32 × BitVec 7 :=
  let v := ofF32 x
  let one := 0x3F800000#32
  let sgn (w : W32) : W32 := if fvSign v then w ||| 0x80000000#32 else w
  let ap : W32 × BitVec 7 := (transFinite o x, 0)
  let inf : W32 := 0x7F800000#32
  if fvNan v then (nan32, fNANIN)
  else match o with
    | 0x64 => if v = .inf true then (0, 0) else if v = .inf false then (inf, 0)
              else if gtF v (.fin false 128 0) || eqF v (.fin false 128 0) then (inf, fOVERFLOW) else ap
    | 0x66 => if v = .inf true then (0, 0) else if v = .inf false then (inf, 0)
              else if !gtF (ofF32 0x42B17218#32) v then (inf, fOVERFLOW) else ap
    | 0x65 | 0x67 =>
              if fvZero v then (0xFF800000#32, fOVERFLOW) else if fvSign v then (nan32, fINVALID)
              else if fvInf v then (inf, 0) else ap
    | 0x68 | 0x6C => if fvInf v then (sgn one, 0) else ap
    | 0x69 => if v = .inf true then (0, 0) else if v = .inf false then (one, 0) else ap
    | _ => if fvInf v || gtF (fvAbs v) (.fin false 65536 0) then (nan32, fINVALID) else ap

/-- VFTOI: to nearest, ties to even, saturating; NaN gives 0. -/
def ftoi (x : W32) : W32 × BitVec 7 :=
  match ofF32 x with
  | .nan => (0, fNANIN)
  | .inf s => (if s then 0x80000000#32 else 0x7FFFFFFF#32, fCONVSAT)
  | .fin s m e =>
    let k := roundQ .rne m e 0
    if s then (if k > 2147483648 then (0x80000000#32, fCONVSAT) else (BitVec.ofInt 32 (-(k : Int)), 0))
    else (if k > 2147483647 then (0x7FFFFFFF#32, fCONVSAT) else (BitVec.ofNat 32 k, 0))

/-- R104: one lane of an elementwise operation with a register result, from its three source lanes. -/
def vecLane (o : Nat) (a b c : W32) : W32 × BitVec 7 :=
  let x := ofF32 a
  let y := ofF32 b
  let sh := b.toNat % 32
  match o with
  | 0x40 => roundRes (addF x y)
  | 0x41 => roundRes (addF x (fvNeg y))
  | 0x42 => roundRes (mulF x y)
  | 0x43 =>
    let z := ofF32 c
    if fvNan z then (nan32, fNANIN) else
      let (p, f) := mulF x y
      if f != 0 then (nan32, f) else roundRes (addF p z)
  | 0x44 => nanGuard [x, y] (if gtF x y then b else a, 0)
  | 0x45 => nanGuard [x, y] (if gtF y x then b else a, 0)
  | 0x46 => nanGuard [x] (a &&& 0x7FFFFFFF#32, 0)
  | 0x47 => nanGuard [x] (a ^^^ 0x80000000#32, 0)
  | 0x50 => (a + b, 0)
  | 0x51 => (a - b, 0)
  | 0x52 => (a * b, 0)
  | 0x53 => (a &&& b, 0)
  | 0x54 => (a ||| b, 0)
  | 0x55 => (a ^^^ b, 0)
  | 0x56 => (a <<< sh, 0)
  | 0x57 => (a >>> sh, 0)
  | 0x58 => (a.sshiftRight sh, 0)
  | 0x59 => ftoi a
  | 0x5A => ((toF32 (ofInt a.toInt)).1, 0)
  | 0x60 => roundRes (divF x y)
  | 0x61 => roundRes (sqrtF x)
  | 0x62 => rcpWord false a
  | 0x63 => rcpWord true a
  | o => transWord o a

/-- Operand B of a lane: the immediate where BIMM = 1, else VB (Table 5-7). -/
def operandB (e : Engine) (w : W128) (l : Nat) : W32 :=
  let o := wOp w
  let hasImm := match vGroup o with | .arith | .cmp | .sel | .integer | .root => true | _ => false
  if hasImm && wf w 32 1 == 1 then BitVec.ofNat 32 (wf w 64 32) else vlane e (wf w 18 5) l

/-- Write lanes of the destination register. -/
def putLanes (e : Engine) (r : Nat) (l : List (Nat × W32)) : Engine :=
  { e with vreg := l.foldl (fun m (i, x) => tput 0 m (r * 512 + i) x) e.vreg }

/-- Elementwise operations with a register result. -/
def runVecLanes (e : Engine) (w : W128) : UOut :=
  let outs := (activeLanes e w).map fun l =>
    (l, vecLane (wOp w) (vlane e (wf w 13 5) l) (operandB e w l) (vlane e (wf w 23 5) l))
  let fl := outs.foldl (fun f (_, o) => f ||| o.2) 0
  let n := if wOp w = 0x59 then (outs.filter (fun (_, o) => o.2 &&& fCONVSAT != 0)).length else 0
  finish e (putLanes e (wf w 8 5) (outs.map fun (l, o) => (l, o.1))) fl n []

/-- VSEL: PM ? VA : VB in every lane. DEDUCED, log 84: a lane is copied as it is, a NaN that is not canonical too, and no flag
is set, since VSEL serves INT32 lanes as well. -/
def runVsel (e : Engine) (w : W128) : UOut :=
  finish e (putLanes e (wf w 8 5) ((List.range 512).map fun l =>
    (l, if mbit e (wf w 28 3) l then vlane e (wf w 13 5) l else operandB e w l))) 0 0 []

/-- VCMPEQ, VCMPLT, VCMPLE: NaN compares false. -/
def runVcmp (e : Engine) (w : W128) : UOut :=
  let outs := (activeLanes e w).map fun l =>
    let x := ofF32 (vlane e (wf w 13 5) l)
    let y := ofF32 (operandB e w l)
    let r := !fvNan x && !fvNan y &&
      (match wOp w with
       | 0x48 => eqF x y
       | 0x49 => gtF y x && !eqF x y
       | _ => gtF y x || eqF x y)
    (l, r, if fvNan x || fvNan y then fNANIN else (0 : BitVec 7))
  let md := wf w 8 3
  finish e { e with mreg := outs.foldl (fun m (l, r, _) => tput false m (md * 512 + l) r) e.mreg }
    (outs.foldl (fun f (_, _, g) => f ||| g) 0) 0 []

/-! ### Reductions -/

/-- One level of the sum tree of R106. DEDUCED, log 84: a node's NaN is a NaN operand of the level above, which sets NAN_IN. -/
def sumLevel : List W32 → List W32 × BitVec 7
  | a :: b :: t =>
    let (s, f) := roundRes (addF (ofF32 a) (ofF32 b))
    let (r, g) := sumLevel t
    (s :: r, f ||| g)
  | l => (l, 0)

/-- The tree of `levels` levels. -/
def sumTree : Nat → List W32 → W32 × BitVec 7
  | 0, l => (l.getD 0 0, 0)
  | n + 1, l =>
    let (r, f) := sumLevel l
    let (x, g) := sumTree n r
    (x, f ||| g)

/-- One group's result: `lanes` are its lanes with their activity, `free` the open value of a maximum or minimum over
no active lane (log 6). -/
def groupResult (o gsize : Nat) (free : W32) (lanes : List (Bool × W32)) : W32 × BitVec 7 :=
  if o = 0x70 then sumTree gsize (lanes.map fun (a, x) => if a then x else 0)
  else
    let act := ((List.range lanes.length).zip lanes).filterMap fun (i, a, x) => if a then some (i, ofF32 x) else Option.none
    let f : BitVec 7 := if act.any (fun p => fvNan p.2) then fNANIN else 0
    let maxi := o == 0x71 || o == 0x73
    match bestOf maxi act with
    | Option.none => (if o ≥ 0x73 then 0xFFFFFFFF#32 else free, f)
    | some (i, v) => (if o ≥ 0x73 then BitVec.ofNat 32 i else (toF32 v).1, f)

/-- R106: a reduction over groups of 2^GSIZE lanes. -/
def runVred (v : View) (e : Engine) (w : W128) : UOut :=
  let g := wf w 32 4
  let n := 2 ^ g
  let groups := (List.range (512 / n)).map fun i =>
    groupResult (wOp w) g ((Config.freeValue (v.free + i)).setWidth 32)
      ((countFrom (i * n) n).map fun l => (laneActive e w l, vlane e (wf w 13 5) l))
  let fl := groups.foldl (fun f r => f ||| r.2) 0
  let dst := (activeLanes e w).map fun l =>
    if wf w 36 1 = 1 then (l, (groups.getD (l / n) (0, 0)).1) else (l, (groups.getD l (0, 0)).1)
  finish e (putLanes e (wf w 8 5) dst) fl 0 []

/-! ### Memory operations -/

/-- VLD (R107): 512 elements widened to FP32, or INT8 read as INT32. -/
def runVld (v : View) (e : Engine) (w : W128) : UOut :=
  match v.badOf (readRows w) with
  | [] =>
    let d := wf w 32 5
    let c := fdCode d
    let s := vecPlane c
    let el := unpack c (v.bytes (wf w 48 16) (wf w 85 2 * s) s)
    let sc := if fdScaled d then v.bytes (wf w 64 16) (wf w 80 5 * 16) (vecScaleLen d) else []
    let outs := ((List.range 512).zip el).map fun (l, x) =>
      if c = 8 then (l, BitVec.ofInt 32 (toSigned 8 x), (0 : BitVec 7))
      else
        let r := cvFloat 0 .rne false (decScaled d sc l x)
        (l, BitVec.ofNat 32 r.bits, r.flags)
    let fl := outs.foldl (fun f (_, _, g) => f ||| g) 0
    let n := (outs.filter (fun (_, _, g) => g &&& fCONVSAT != 0)).length
    finish e (putLanes e (wf w 8 5) (outs.map fun (l, x, _) => (l, x))) fl n []
  | l => .uncorr e l

/-- VST (R107): 512 lanes converted under CONV, an inactive lane written as +0; it writes its full range or nothing,
and a read of a row it rewrites in part counts as its own (R114). -/
def runVst (v : View) (e : Engine) (w : W128) (seed : W64) : UOut :=
  let cv := convOf (wf w 32 16)
  let c := fdCode cv.tfmt
  let s := vecPlane c
  let off := wf w 85 2 * s
  let soff := wf w 80 5 * 16
  let sl := vecScaleLen cv.tfmt
  let partRows := (if s % 512 = 0 ∧ off % 512 = 0 then [] else rowsOfSpan (wf w 48 16) off s)
    ++ (if fdScaled cv.tfmt && !cv.given then rowsOfSpan (wf w 64 16) soff sl else [])
  match v.badOf (readRows w ++ partRows) with
  | [] =>
    let given := if cv.given then v.bytes (wf w 64 16) soff sl else []
    let per := scaleBytesPerBlock cv.tfmt
    let pad := (Config.freeBytes v.free 1).getD 0 0
    let blks := (List.range 16).map fun k =>
      cvBlock cv seed pad ((given.drop (k * per)).take per) (countFrom (wf w 96 32 * 512 + 32 * k) 32)
        ((countFrom (32 * k) 32).map fun l => if laneActive e w l then ofF32 (vlane e (wf w 13 5) l) else .fin false 0 0)
    let wr := (wf w 48 16 * 512 + off, pack c (blks.flatMap BlkOut.elems))
      :: (if fdScaled cv.tfmt && !cv.given then [(wf w 64 16 * 512 + soff, blks.flatMap BlkOut.scales)] else [])
    finish e e (blks.foldl (fun f b => f ||| b.flags) 0) (blks.foldl (fun n b => n + b.satN) 0) wr
  | l => .uncorr e l

/-- VGATHER (R108): a 32-bit word for each active lane; a lane out of the table faults and no lane is written. -/
def runVgather (v : View) (e : Engine) (w : W128) : UOut :=
  let lanes := activeLanes e w
  let idx (l : Nat) : Int := (vlane e (wf w 13 5) l).toInt
  let limit : Int := (wf w 64 16 * 128 : Nat)
  match lanes.filter (fun l => idx l < 0 || idx l ≥ limit) with
  | l :: _ => .fault e 0x07 (BitVec.ofNat 64 (l + (vlane e (wf w 13 5) l).toNat * 2 ^ 32))
  | [] =>
    let rows := (lanes.map fun l => wf w 48 16 + (idx l).toNat / 128)
    if rows.any (fun r => 49152 ≤ v.base + r) then .fault e 0x05 0 else
    match rows.filter (fun r => v.count ≤ r) with
    | r :: t => .fault e 0x08 (BitVec.ofNat 64 (t.foldl min r))
    | [] =>
      match v.badOf rows with
      | [] =>
        finish e (putLanes e (wf w 8 5) (lanes.map fun l =>
          (l, BitVec.ofNat 32 (leNat (v.bytes (wf w 48 16) (4 * (idx l).toNat) 4))))) 0 0 []
      | l => .uncorr e l

/-- A vector word (R102 to R108), whose checks passed. -/
def runVector (v : View) (e : Engine) (w : W128) (seed : W64) : UOut :=
  let e := e.count 0x02C0 1
  match vGroup (wOp w) with
  | .cmp => runVcmp e w
  | .sel => runVsel e w
  | .red => runVred v e w
  | .ld => runVld v e w
  | .st => runVst v e w seed
  | .gath => runVgather v e w
  | _ => runVecLanes e w

end Sys2Proof.Machine
end

