-- ==== Sys2Proof/Machine/Issue.lean ====
section
/-! DEFINITION. A core's issue unit and units (chapter 6): fetch, dispatch with loops, gates, seeds and the checks at issue,
the order of R72 and R101, execution of engine, mover and peg words, and completion. -/

namespace Sys2Proof.Machine

/-! ### Dispatch -/

/-- Add to one of a core's counters by register offset (Table 6-6). -/
def coreCount (s : State) (n off k : Nat) : State := s.modEng n fun e => e.count off k

/-- R121, R122: a word with the strides of the running loops applied; none where an entry names a field it lacks or
leaves the field's range. -/
def strideWord (loops : List LoopSt) (pos : Nat) (w : W128) : Option W128 :=
  let adds := loops.flatMap fun l => (l.strides.filter (fun e => e.2.2 ≠ 0 && e.1 + l.start == pos)).map fun e => (e.2.1, (l.iter : Int) * e.2.2)
  (List.range 4).foldl (fun acc f =>
    let mine := adds.filter (fun a => a.1 == f)
    if mine.isEmpty then acc
    else match acc, strideField w f with
      | some x, some (lo, len) =>
        let v : Int := (wf w lo len : Nat) + (mine.map (·.2)).foldl (· + ·) 0
        if 0 ≤ v ∧ v < (2 ^ len : Nat) then some (wset x lo len v.toNat) else none
      | _, _ => none) (some w)

/-- R119: the counts a GATE waits for. -/
def gateNeeds (r : Run) (w : W128) : List (Nat × Nat) :=
  if wf w 12 4 = 15 then (countFrom 1 10).map fun u => (u, tget 0 r.issued u)
  else [(wf w 12 4, tget 0 r.issued (wf w 12 4) - wf w 16 8)]

/-- Whether a GATE is satisfied. -/
def gateMet (r : Run) (g : List (Nat × Nat)) : Bool := g.all fun e => e.2 ≤ tget 0 r.done e.1

/-- R294: a released MKICK has left its mover's queue and completes later. -/
def QWord.away (e : QWord) : Bool := e.kick.isSome && (e.unit == 8 || e.unit == 9)

/-- Table 6-1: whether the queue of a unit has room. -/
def queueRoom (r : Run) (u : Nat) : Bool := (r.q.filter (fun e => (queueOf u).contains e.unit && !e.away)).length < queueCap u

/-- R119, R118, R122, R123: the control faults of an issue word, in or out of a loop. -/
def controlBad (r : Run) (w : W128) : Bool :=
  match wOp w with
  | 0x10 => wf w 8 120 != 0
  | 0x14 => wf w 8 120 != 0 || !r.loops.isEmpty
  | 0x11 =>
    wf w 24 104 != 0 || wf w 8 4 == 0 || wf w 8 4 > 10 || wf w 12 4 == 0 || (wf w 12 4 > 10 && wf w 12 4 != 15)
      || (wf w 12 4 == 15 && wf w 16 8 != 0)
  | 0x12 =>
    wf w 8 8 == 0 || wf w 16 16 == 0 || r.loops.length ≥ 2
      || r.loops.any (fun l => l.start + l.body < r.pos + 1 + wf w 8 8)
      || [32, 56, 80, 104].any (fun lo => toSigned 14 (wf w (lo + 10) 14) != 0 && wf w lo 8 ≥ wf w 8 8)
  | 0x13 => wf w 13 51 != 0
  | _ => true

/-- What dispatching a word finds wrong: the cause and its FAULT_DATA (Table 6-9). The parameter faults of R70, R100 and R110,
a row at or beyond row 49,152 of the scratchpad among them, come before the row fault of R124 (DEDUCED, log 85). -/
def issueFault (r : Run) (w : W128) : Option (Nat × Nat) :=
  let e := r.eng
  let far := (rowFaultAt w (49152 - r.rowBase)).isSome
  let d := wf w 10 5
  let cv := convOf (wf w 64 16)
  let row := match rowFaultAt w r.rowCount with
    | some x => some (0x08, x)
    | none => match seedSel w with
      | some x => if x ≥ 16 then some (0x0B, x) else none
      | none => none
  match wOp w with
  | 0x01 => if !fdValid d then some (1, d) else if astatBad w || far then some (3, 0) else row
  | 0x02 =>
    if !fdValid d then some (1, d) else if amulBad w || far then some (3, 0)
    else match e.last (wf w 8 1) with
      | none => some (3, 0)
      | some f => if !pairOk f d then some (1, d) else row
  | 0x03 => if !convValid cv then some (1, cv.tfmt) else if adrainBad w || far then some (3, 0) else row
  | 0x04 => if aloadBad w || far then some (3, 0) else row
  | 0x21 => if !fdValid d then some (1, d) else if fresBad w || far then some (4, 0) else row
  | 0x22 =>
    if !fdValid d then some (1, d) else if fmulBad w || far then some (4, 0)
    else match e.rlast (wf w 8 1) with
      | none => some (4, 0)
      | some f => if !pairOk f d then some (1, d) else row
  | 0x23 => if !convValid cv then some (1, cv.tfmt) else if fdrainBad w || far then some (4, 0) else row
  | o =>
    if o < 0x10 then some (3, 0) else if 0x20 ≤ o ∧ o < 0x30 then some (4, 0)
    else if 0x40 ≤ o ∧ o < 0x80 then
      match vecFormatBad w with
      | some x => some (1, x)
      | none => if vecBad w || far then some (5, 0) else row
    else if 0x30 ≤ o ∧ o < 0x40 then none
    else if controlBad r w then some (9, 0) else none

/-- R121: leave the loops whose body has ended, or take their next iteration. -/
def loopAdvance : Nat → Run → Run
  | 0, r => r
  | fuel + 1, r =>
    match r.loops with
    | l :: rest =>
      if r.pos < l.start + l.body then r
      else if l.iter + 1 < l.count then { r with pos := l.start, loops := { l with iter := l.iter + 1 } :: rest }
      else loopAdvance fuel { r with loops := rest }
    | [] => r

/-- Step past a dispatched word; words that no loop replays are dropped. -/
def Run.pass (r : Run) : Run :=
  let r1 := loopAdvance 3 { r with pos := r.pos + 1, hi := max r.hi (r.pos + 1) }
  if r1.loops.isEmpty then { r1 with prog := r1.prog.drop r1.pos, pos := 0, hi := r1.hi - r1.pos } else r1

/-- The loop a LOOP word starts. -/
def loopOf (r : Run) (w : W128) : LoopSt :=
  { start := r.pos + 1, body := wf w 8 8, count := wf w 16 16
    strides := [32, 56, 80, 104].map fun lo => (wf w lo 8, wf w (lo + 8) 2, toSigned 14 (wf w (lo + 10) 14)) }

/-- R123: the effect of a SEED word on the seed registers. -/
def seedPut (r : Run) (w : W128) : Run :=
  let i := wf w 8 4
  let v := BitVec.ofNat 64 (wf w 64 64)
  { r with seeds := tput 0 r.seeds i (if wf w 12 1 = 1 then tget 0 r.seeds i + v else v) }

/-- R119: what an entering GATE still waits for: nothing where its counts stand already. -/
def gateLeft (r : Run) (g : List (Nat × Nat)) : List (Nat × Nat) := if gateMet r g then [] else g

/-- Dispatch an issue-unit word whose checks passed. A GATE takes an entry of its target's queue, satisfied or not (R119). -/
def dispatchControl (r : Run) (w : W128) (pc : Nat) : Run :=
  match wOp w with
  | 0x11 =>
    let x : QWord := { unit := wf w 8 4, word := w, pc := pc, gate := some (gateLeft r (gateNeeds r w)) }
    Run.pass { r with q := r.q ++ [x] }
  | 0x12 => { r with pos := r.pos + 1, hi := max r.hi (r.pos + 1), loops := loopOf r w :: r.loops }
  | 0x13 => Run.pass (seedPut r w)
  | 0x14 => { r.pass with ended := true, prog := [], pos := 0, hi := 0 }
  | _ => r.pass

/-- Dispatch a unit's word whose checks passed (R116, R123, R70). -/
def dispatchUnit (r : Run) (w : W128) (pc : Nat) : Run :=
  let u := unitOf w
  let e := r.eng
  let e' := if wOp w = 0x01 then (if wf w 8 1 = 0 then { e with last0 := some (wf w 10 5) } else { e with last1 := some (wf w 10 5) })
    else if wOp w = 0x21 then
      (if wf w 8 1 = 0 then { e with rlast0 := some (wf w 10 5), rvec := wf w 48 5 }
       else { e with rlast1 := some (wf w 10 5), rvec := wf w 48 5 })
    else e
  let x : QWord := { unit := u, word := w, pc := pc, seed := tget 0 r.seeds ((seedSel w).getD 0), rvec := if wOp w = 0x23 then e.rvec else 0 }
  Run.pass { r with q := r.q ++ [x], issued := tput 0 r.issued u (tget 0 r.issued u + 1), eng := e' }

/-- R117 to R123: dispatch the next word, where there is one and its queue has room. -/
def dispatchOne (s : State) (n : Nat) : Option State :=
  let c := s.core n
  let r := c.run
  if c.mode ≠ .running ∨ r.ended then none
  else
    match r.prog[r.pos]? with
    | none => none
    | some (pc, w0) =>
      match strideWord r.loops r.pos w0 with
      | none => some (programFault s n 0x09 0 pc w0 0)
      | some w =>
        let u := unitOf w
        let qu := if wOp w = 0x11 then wf w 8 4 else u
        if (u ≠ 0 ∨ (wOp w = 0x11 ∧ !controlBad r w)) && !queueRoom r qu then none
        else match issueFault r w with
          | some (cause, data) => some (programFault s n cause (if cause = 9 ∨ cause = 0x0B then 0 else u) pc w data)
          | none => some (coreCount (s.modRun n fun r => if u = 0 then dispatchControl r w pc else dispatchUnit r w pc) n 0x18 1)

/-! ### Order (R72, R101, R94) -/

/-- The accumulator banks a word uses. -/
def banksOf (w : W128) : List Nat :=
  match wOp w with
  | 0x02 => if wf w 38 4 ≥ 4 then [wf w 17 2, wf w 17 2 + 1] else [wf w 17 2]
  | 0x03 => [wf w 8 2]
  | 0x04 => [wf w 8 2]
  | _ => []

/-- Two words share a bank. -/
def shareBank (a b : W128) : Bool := (banksOf a).any (banksOf b).contains

/-- A word that takes vectors from the weight intake queue (R94). -/
def isMulticast (w : W128) : Bool := (wOp w == 0x02 && wf w 16 1 == 0) || (wOp w == 0x22 && wf w 15 2 == 0)

/-- R72, R101, R94: the later word `w` waits for the earlier, unexecuted word `p`. -/
def waitsFor (w p : W128) : Bool :=
  match wOp w, wOp p with
  | 0x01, 0x02 => wf w 8 1 == wf p 8 1
  | 0x02, 0x01 => wf w 8 1 == wf p 8 1
  | 0x03, 0x02 => shareBank w p
  | 0x03, 0x04 => shareBank w p
  | 0x04, 0x02 => shareBank w p
  | 0x04, 0x03 => shareBank w p || (readRows w).any (writeRows p).contains
  | 0x02, 0x03 => shareBank w p
  | 0x02, 0x04 => shareBank w p
  | 0x01, 0x03 => (readRows w).any (writeRows p).contains
  | 0x21, 0x22 => wf w 8 1 == wf p 8 1
  | 0x22, 0x21 => wf w 8 1 == wf p 8 1
  | 0x23, 0x22 => true
  | 0x22, 0x23 => true
  | 0x21, 0x23 => (readRows w).any (writeRows p).contains
  | _, _ => isMulticast w && isMulticast p

/-- Whether the word of `e` may execute, given the earlier entries of the queue. -/
def mayRun (held : List Nat) (before : List QWord) (e : QWord) : Bool :=
  before.all (fun p =>
    if p.gate.isSome then p.unit != e.unit
    else p.done || p.away || (p.unit != e.unit && !waitsFor e.word p.word))
    && !(wOp e.word == 0x03 && (writeRows e.word).any held.contains)

/-! ### Execution -/

/-- The view an engine of core `n` has of scratchpad. -/
def viewOf (s : State) (n : Nat) : View :=
  let r := (s.core n).run
  { core := n, base := r.rowBase, count := r.rowCount, mem := s.mem, bad := s.badRows, free := s.freeCtr }

/-- Change the queue entry at a position. -/
def modQ (s : State) (n i : Nat) (f : QWord → QWord) : State := s.modRun n fun r => { r with q := modAt r.q i f }

/-- R144, R147: what the correctable rows of a word's reads leave: each is corrected and counted. -/
def softReads (s : State) (n : Nat) (w : W128) : State :=
  ((readRows w).map fun r => rowKey n ((s.core n).run.rowBase + r)).foldl (fun s k => if s.softRows.contains k then correctRow s k else s) s

/-- Apply what an engine gave (R128, R77, R114). -/
def applyOut (s : State) (n i : Nat) (e : QWord) (o : UOut) : State :=
  match o with
  | .ok g wr =>
    let s1 := modQ ((softReads s n e.word).modEng n fun _ => g) n i fun e => { e with done := true, taken := [] }
    wr.foldl (fun s w => writeMem s (rowAddr n (s.core n).run.rowBase + w.1) w.2) { (takeFree s1 1) with rowAcc := s1.rowAcc + (readRows e.word).length }
  | .fault g cause data => programFault (s.modEng n fun _ => g) n cause e.unit e.pc e.word data.toNat
  | .uncorr g rows =>
    let s1 := rows.foldl (fun s r => noteRow s (rowKey n ((s.core n).run.rowBase + r)) false) (s.modEng n fun _ => g)
    unitUncorr s1 n

/-- R62, R61, R94: take vectors from the head of a queue: up to `need`, stopping at poison or at an end marker after the
first vector. Answers the vectors, whether a poisoned one came, whether a marker came short, and the queue's rest. -/
def takeVecs (have' need : Nat) : List InItem → List (List Byte) × Bool × Bool × List InItem
  | [] => ([], false, false, [])
  | .mark :: t => if have' = 0 ∧ 0 < need then takeVecs have' need t else ([], false, decide (0 < need), .mark :: t)
  | .vec b p :: t =>
    if need = 0 then ([], false, false, .vec b p :: t)
    else if p then ([], true, false, t)
    else
      let (l, q, k, rest) := takeVecs (have' + 1) (need - 1) t
      (b :: l, q, k, rest)

/-- The vectors a multiplying word needs. -/
def needOf (w : W128) : Nat := if wOp w = 0x02 then wf w 28 10 else wf w 27 11

/-- R64, R97: a multiplying word whose contributions have the other type faults. -/
def clash (r : Run) (w : W128) : Bool := if wOp w = 0x02 then tagClash w r.eng.acc else ftagClash w r.eng.facc

/-- AMUL or FMUL on a stream: collect vectors and execute when all have come, or at poison or an early marker. -/
def runStream (s : State) (n i : Nat) (e : QWord) : Option State :=
  let g := (s.core n).run.eng
  let direct := wOp e.word == 0x22 && wf e.word 15 2 == 1
  let need := needOf e.word - e.taken.length
  let (got, bad, short, rest) := takeVecs e.taken.length need (if direct then g.direct else g.intake)
  if got.isEmpty && !bad && !short then none
  else
    let s1 := s.modEng n fun g => if direct then { g with direct := rest } else { g with intake := rest }
    let all := e.taken ++ got
    if all.length = needOf e.word || bad || short then
      let g1 := (s1.core n).run.eng
      some (applyOut s1 n i e (if wOp e.word = 0x02 then runAmulStream g1 e.word all bad short else runFmulStream g1 e.word all bad short))
    else some (modQ s1 n i fun e => { e with taken := all })

/-- R294, R300: a ring whose binding ends, at descriptor 0 again. Descriptors still in progress go on apart from its positions, and the
new ones take indices that none of them has. -/
def Ring.anew (x : Ring) : Ring :=
  let b := if x.live.isEmpty then 0 else roundUp ((x.live.map Desc.idx).foldl max 0 + 1) 65536
  { released := b, started := b, next := b, live := x.live.map fun d => { d with old := true } }

/-- R126: a program starts with no ring bound. -/
def Mover.anew (x : Mover) : Mover := { x with rings := x.rings.map Ring.anew }

/-- R294: MRING at a mover. -/
def runMring (s : State) (n i m : Nat) (e : QWord) : Option State :=
  let w := e.word
  let r := wf w 8 2
  let fault (x : Nat) : Option State := some (programFault s n 0x0C (8 + m) e.pc w (moverData x 0 r m))
  if wf w 19 45 ≠ 0 then fault 1
  else if wf w 14 5 < 3 ∨ wf w 14 5 > 16 ∨ wf w 64 64 % 64 ≠ 0 ∨ !progMem s n (wf w 64 64) (64 * 2 ^ wf w 14 5) false then fault 8
  else
    let x := s.ring n m r
    let pend := (s.core n).run.q.any (fun q => q.unit == 8 + m && !q.done && (match q.kick with | some (k, _) => k == r | none => false))
    if pend || !(!x.bound || x.halted || (x.live.isEmpty && x.next == x.released)) then none
    else some (modQ (s.modRing n m r fun x =>
      { x.anew with bound := true, base := wf w 64 64, log2n := wf w 14 5, retry := wf w 10 4 }) n i fun e => { e with done := true })

/-- R294, R300: MKICK at a mover. -/
def runMkick (s : State) (n i m : Nat) (e : QWord) : State :=
  let w := e.word
  let r := wf w 8 2
  let x := s.ring n m r
  let k := wf w 16 16
  let fault (y : Nat) : State := programFault s n 0x0C (8 + m) e.pc w (moverData y 0 r m)
  if wf w 10 6 ≠ 0 ∨ wf w 32 96 ≠ 0 then fault 1
  else if !x.bound then fault 7
  else if x.halted then modQ s n i fun e => { e with done := true }
  else if k = 0 ∨ k + (x.released - x.next) > 2 ^ x.log2n then fault 7
  else modQ (s.modRing n m r fun x => { x with released := x.released + k }) n i fun e => { e with kick := some (r, x.released + k) }

/-- R255: the reason a peg word faults at issue, or 0. -/
def pegBad (s : State) (n : Nat) (w : W128) : Nat :=
  let c := (s.core n).ctx
  let x := s.ctx c
  let o := wOp w
  let dest := wf w 20 2
  let slots := (s.core n).run.peg.slots
  let rsv := match o with
    | 0x38 => dest == 3 || wf w 22 1 != 0 || (dest != 2 && wf w 23 1 != 0) || wf w 24 8 != 0 || (dest != 1 && wf w 64 28 != 0) || wf w 92 36 != 0
    | 0x39 => wf w 21 11 != 0 || wf w 64 64 != 0
    | 0x3A => wf w 23 105 != 0 || (wf w 22 1 == 1 && wf w 20 2 != 0)
    | 0x3B => wf w 8 12 != 0 || wf w 22 106 != 0
    | 0x3C => wf w 20 12 != 0 || wf w 64 64 != 0
    | _ => true
  let p := (vpidOk s c (wf w 8 12)).map s.peg
  if rsv then 6
  else match o with
    | 0x38 =>
      if dest = 2 then (if x.hpegCount = 0 ∨ wf w 8 12 ≥ x.hpegCount then 8 else if wf w 32 32 = 0 then 3 else 0)
      else if dest = 1 then
        (if wf w 32 32 = 0 then 3
         else if wf w 64 16 ≠ s.salt.node ∧ wf w 32 32 ≠ 1 ∧ ((routePort s (wf w 64 16)).map fun q => (s.port q).version) = some 1 then 7 else 0)
      else match p with
        | none => 1
        | some _ => if wf w 32 32 = 0 then 3 else 0
    | 0x39 => match p with
      | none => 1
      | some g => if g.mode = 3 then 2 else if g.mode = 1 ∧ wf w 32 32 = 0 then 3 else 0
    | 0x3A => match p with
      | none => 1
      | some g => if g.mode ≠ 3 then 2 else if wf w 22 1 = 0 ∧ (slots.getD (wf w 20 2) none).isSome then 4 else 0
    | 0x3B => if (slots.getD (wf w 20 2) none).isNone then 5 else 0
    | _ => match p with
      | none => 1
      | some g => if g.mode = 3 then 2 else if g.mode = 2 ∧ wf w 32 32 > 1 then 3 else 0

/-- FAULT_DATA of a peg fault (R255). -/
def pegData (reason vpid : Nat) : Nat := reason + vpid * 2 ^ 8

/-- Record a refused PSIG word (R256). -/
def psigRefused (s : State) (n st node vpid : Nat) : State :=
  pegCount (s.modRun n fun r => { r with peg := { r.peg with refStatus := st, refNode := node, refVpid := vpid } }) 0x018 1

/-- R254: a peg word whose checks passed at the peg unit. -/
def runPegWord (s : State) (n i : Nat) (e : QWord) : State :=
  let w := e.word
  let c := (s.core n).ctx
  let v := wf w 8 12
  let post (op : PegOp) (s : State) : State :=
    { s with pegReqs := s.pegReqs ++ [({ core := n, ctx := c, vpid := v, phys := (vpidPhys s c v).getD 0, op := op } : PegReq)] }
  let fin (s : State) : State := modQ (s.modRun n fun r => { r with peg := { r.peg with state := 0 } }) n i fun e => { e with done := true }
  let busy (s : State) : State := modQ s n i fun e => { e with kick := some (16, 0) }
  match wOp w with
  | 0x38 =>
    if wf w 20 2 = 0 then post (.signal (wf w 32 32)) (busy s)
    else if wf w 20 2 = 2 then fin (hostPegSignal s c v (wf w 32 32) (wf w 23 1 == 1))
    else
      let node := wf w 64 16
      if node = s.salt.node then
        let (s1, st) := targetSignal s (wf w 80 12) v (wf w 32 32) (wf w 80 12 == c) ⟨s.salt.node, 0, n⟩
        fin (if st = stOK then s1 else psigRefused s1 n st node v)
      else
        match sendReq s { mtype := 4, dst := node, addr := v, arg := wf w 32 32, ctx := wf w 80 12, ukind := 0, unit := n } (.psig n) 1 with
        | (s1, .sent) => fin s1
        | (s1, .failed st) => fin (psigRefused s1 n st node v)
        | (s1, .full) => s1.modRun n fun r => { r with peg := { r.peg with state := 4, vpid := v, thresh := 0 } }
  | 0x39 =>
    let s1 := s.modRun n fun r => { r with peg := { r.peg with state := 1, vpid := v, thresh := wf w 32 32 } }
    post (.wait (wf w 32 32) (wf w 20 1 == 1)) (busy s1)
  | 0x3A =>
    let s1 := if wf w 22 1 = 1 then s.modRun n fun r => { r with peg := { r.peg with state := 2, vpid := v, thresh := 0 } } else s
    post (.arrive (wf w 22 1 == 1) (wf w 20 2)) (busy s1)
  | 0x3B =>
    let s1 := s.modRun n fun r => { r with peg := { r.peg with state := 3, vpid := ((r.peg.slots.getD (wf w 20 2) none).map PhaseSlot.vpid).getD 0, thresh := 0 } }
    let v' := (((s.core n).run.peg.slots.getD (wf w 20 2) none).map PhaseSlot.vpid).getD 0
    { (busy s1) with pegReqs := s1.pegReqs ++ [{ core := n, ctx := c, vpid := v', phys := (vpidPhys s c v').getD 0, op := .slotWait (wf w 20 2) }] }
  | _ => post (.preset (wf w 32 32)) (busy s)

/-- Execute the entry at position `i` where its data allows. -/
def runEntry (s : State) (n i : Nat) (e : QWord) : Option State :=
  let w := e.word
  let r := (s.core n).run
  let v := viewOf s n
  match wOp w with
  | 0x01 => some (applyOut s n i e (runAstat v r.eng w))
  | 0x02 =>
    if e.taken.isEmpty && clash r w then some (programFault s n 0x01 e.unit e.pc w (wf w 10 5))
    else if wf w 16 1 = 1 then some (applyOut s n i e (runAmulLocal v r.eng w)) else runStream s n i e
  | 0x03 => some (applyOut s n i e (runAdrain v r.eng w e.seed))
  | 0x04 => some (applyOut s n i e (runAload v r.eng w))
  | 0x21 => some (applyOut s n i e (runFres v r.eng w))
  | 0x22 =>
    if e.taken.isEmpty && clash r w then some (programFault s n 0x01 e.unit e.pc w (wf w 10 5))
    else if wf w 15 2 = 2 then some (applyOut s n i e (runFmulLocal v r.eng w)) else runStream s n i e
  | 0x23 => some (applyOut s n i e (runFdrain v r.eng w e.seed e.rvec))
  | 0x30 => runMring s n i 0 e
  | 0x31 => some (runMkick s n i 0 e)
  | 0x34 => runMring s n i 1 e
  | 0x35 => some (runMkick s n i 1 e)
  | o =>
    if 0x30 ≤ o ∧ o < 0x38 then some (programFault s n 0x0C e.unit e.pc w (moverData 1 0 0 (e.unit - 8)))
    else if 0x38 ≤ o ∧ o < 0x40 then
      let b := pegBad s n w
      if b ≠ 0 then some (programFault s n 0x0D 10 e.pc w (pegData b (wf w 8 12))) else some (runPegWord s n i e)
    else some (applyOut s n i e (runVector v r.eng w e.seed))

/-- R119: a satisfied GATE that every earlier word of its unit's queue stands delivered before leaves the queue. -/
def passGate (r : Run) : Option Run :=
  let at' := (List.range r.q.length).find? fun i => match r.q[i]? with
    | some e => e.gate == some [] && (r.q.take i).all fun p => p.unit != e.unit || (p.gate.isNone && (p.done || p.away))
    | none => false
  at'.map fun i => { r with q := r.q.eraseIdx i }

/-- The first entry from position `i` on that executes. -/
def runFrom (s : State) (n : Nat) (held : List Nat) : Nat → List QWord → List QWord → Option State
  | _, _, [] => none
  | i, before, e :: t =>
    if e.gate.isNone && !e.done && e.kick.isNone && mayRun held before e then
      match runEntry s n i e with
      | some s1 => some s1
      | none => runFrom s n held (i + 1) (before ++ [e]) t
    else runFrom s n held (i + 1) (before ++ [e]) t

/-- Whether what core `n` did tore its context down (R129). -/
def tornBy (s s1 : State) (n : Nat) : Bool := let c := (s.core n).ctx; !(s.ctx c).faulted && (s1.ctx c).faulted

/-- The queued words that could begin now and would fault. -/
def faultsFrom (s : State) (n : Nat) (held : List Nat) : Nat → List QWord → List QWord → Nat
  | _, _, [] => 0
  | i, before, e :: t =>
    (if e.gate.isNone && !e.done && e.kick.isNone && mayRun held before e then b2n ((runEntry s n i e).any fun s1 => tornBy s s1 n) else 0)
      + faultsFrom s n held (i + 1) (before ++ [e]) t

/-- R128: a fault of the word dispatched first is recorded with MULTI where another unit, the issue unit among them, faults at the
same time. -/
def markMulti (s : State) (n : Nat) (held : List Nat) (s1 : State) : State :=
  if tornBy s s1 n && decide (2 ≤ faultsFrom s n held 0 [] (s.core n).run.q + b2n ((dispatchOne s n).any fun t => tornBy s t n)) then
    s1.modCore n fun c => { c with fault := { c.fault with multi := true } }
  else s1

/-- Execute one word of a running core. -/
def executeOne (s : State) (n : Nat) : Option State :=
  if (s.core n).mode ≠ .running then none
  else match passGate (s.core n).run with
    | some r => some (s.modRun n fun _ => r)
    | none => (runFrom s n (heldRows s n) 0 [] (s.core n).run.q).map (markMulti s n (heldRows s n))

/-- Dispatch and execute while anything can move on a core. -/
def pumpCore (n : Nat) : Nat → State → State
  | 0, s => s
  | fuel + 1, s =>
    match executeOne s n with
    | some s1 => pumpCore n fuel s1
    | none => match dispatchOne s n with
      | some s1 => pumpCore n fuel s1
      | none => s

/-- A bound on the words that one event can set moving on a core: the queued words and the fetched ones through their
loops. -/
def pumpFuel (r : Run) : Nat := 64 + 4 * (r.q.length + 1) + 2 * (r.prog.length + 1)

/-! ### Completion, gates and the end of a program -/

/-- R116: the units whose words may complete out of the order of dispatch: the vector unit and the movers. -/
def overlaps (u : Nat) : Bool := u == 7 || u == 8 || u == 9

/-- A word of unit `u`, not a GATE. -/
def QWord.ofUnit (u : Nat) (e : QWord) : Bool := e.unit == u && e.gate.isNone

/-- Mark the executed word behind `k` others of its unit as completed. -/
def markFin (u : Nat) : Nat → List QWord → List QWord
  | _, [] => []
  | k, e :: t =>
    if !e.ofUnit u then e :: markFin u k t
    else match k with
      | 0 => (if e.done then { e with fin := true } else e) :: t
      | k + 1 => e :: markFin u k t

/-- R116: retire the completed words that no uncompleted word of their unit stands before: DONE advances by their number. -/
def retire (u : Nat) : Nat → Run → Run
  | 0, r => r
  | fuel + 1, r => match r.q.find? (QWord.ofUnit u) with
    | some e => if e.fin then retire u fuel { r with q := delFirst (QWord.ofUnit u) r.q, done := tput 0 r.done u (tget 0 r.done u + 1) } else r
    | none => r

/-- R116: the executed word of unit `u` that `k` others of the unit stand before completes. -/
def completeWord (s : State) (n u k : Nat) : State :=
  if k ≠ 0 ∧ !overlaps u then s else s.modRun n fun r => retire u (r.q.length + 1) { r with q := markFin u k r.q }

/-- R119: the gates whose counts stand are satisfied. -/
def dropGates (s : State) (n : Nat) : State :=
  s.modRun n fun r => { r with q := r.q.map fun e => match e.gate with | some g => { e with gate := some (gateLeft r g) } | none => e }

/-- R437: whether a ring has nothing that its unit waits for: a ring that waits for a neighbour, or that a restart released
again, holds the unit on its plot (log 43). -/
def ringSettled (x : Ring) : Bool := if x.halted then x.haltAt.isNone else decide (x.released ≤ x.next) && x.failed.isEmpty && x.live.isEmpty

/-- R118: END is dispatched and DONE equals ISSUED in every unit. -/
def programDone (s : State) (n : Nat) : Bool :=
  (s.core n).mode == .running && (s.core n).run.ended && (s.core n).run.q.isEmpty
    && [0, 1].all fun m => (s.mover n m).rings.all ringSettled

/-! ### Fetch (R118, R126) -/

/-- R126: whether a program may be fetched from an address: the context's memory, or the core's own row window. -/
def fetchOk (s : State) (n a : Nat) : Bool :=
  a % 16 == 0 && (if inAperture a 16 then apCore a == n && progMem s n a 16 false else ctxMem s (s.core n).ctx a 16 false)

/-- The issue unit fetches a word: the fetch queue holds 64 words that were never dispatched. -/
def fetchWord (s : State) (n : Nat) (w : W128) : State :=
  let c := s.core n
  let r := c.run
  if c.mode ≠ .running ∨ r.ended ∨ r.prog.length - r.hi ≥ 64 then s
  else if !fetchOk s n r.progPc then programFault s n 0x0A 0 r.progPc 0 r.progPc
  else if isPoisoned s r.progPc 16 then unitUncorrRec (noteBad s r.progPc 16) n r.progPc
  else (noteRead s r.progPc 16).modRun n fun r => { r with prog := r.prog ++ [(r.progPc, w)], progPc := r.progPc + 16 }

/-- R126: start a program on a core. -/
def startProgram (s : State) (n c pc rowBase rowCount trap : Nat) (seeds : List W64) : State :=
  s.modCore n fun k =>
    { k with ctx := c, mode := .running
             run := { k.run with progPc := pc, rowBase := rowBase, rowCount := rowCount, prog := [], pos := 0, hi := 0, loops := [], ended := false
                                 q := [], issued := [], done := []
                                 seeds := ((List.range 4).zip seeds).foldl (fun t e => tput 0 t e.1 e.2) []
                                 eng := { ctr := k.run.eng.ctr, trap := BitVec.ofNat 7 trap }
                                 mov0 := k.run.mov0.anew
                                 mov1 := k.run.mov1.anew
                                 peg := { k.run.peg with state := 0, slots := [none, none, none, none] } } }

end Sys2Proof.Machine
end

