-- ==== Sys2Proof/Machine/Rake.lean ====
section
/-! DEFINITION. The rakes at work (chapter 10): their operations, group records, schedules and constants, the bed pass, the
block preconditioner, and the beginning of a rake phase. -/

namespace Sys2Proof.Machine

/-! ### Group records (R232) -/

/-- A group record (Table 10-5). -/
structure GroupRec where
  enabled : Bool
  freeze : Bool
  nanskip : Bool
  precond : Bool
  srhead : Bool
  root : Nat
  rhold : Bool
  prog : Nat
  dprog : Nat
  offset : Nat
  count : Nat
  refresh : Nat
  s : List W32
  b1 : W32
  b2 : W32
  sbeta : W32
  eps0 : W32
  rbase : Nat
  pbase : Nat
  phdr : Nat

/-- The group record in 128 bytes. -/
def parseGroup (l : List Byte) : GroupRec :=
  let f (o n : Nat) : Nat := leNat ((l.drop o).take n)
  let h := f 0 4
  { enabled := bitsAt h 0 1 == 1, freeze := bitsAt h 1 1 == 1, nanskip := bitsAt h 2 1 == 1, precond := bitsAt h 3 1 == 1
    srhead := bitsAt h 4 1 == 1, root := bitsAt h 5 2, rhold := bitsAt h 7 1 == 1, prog := bitsAt h 8 4
    dprog := bitsAt h 12 4, offset := f 4 4, count := f 8 4, refresh := f 12 4
    s := (unpack32 ((l.drop 0x10).take 32)).map (BitVec.ofNat 32), b1 := BitVec.ofNat 32 (f 0x30 4)
    b2 := BitVec.ofNat 32 (f 0x34 4), sbeta := BitVec.ofNat 32 (f 0x38 4), eps0 := BitVec.ofNat 32 (f 0x3C 4)
    rbase := f 0x40 8, pbase := f 0x48 8, phdr := f 0x50 8 }

/-- Where the record of a group lies. -/
def groupAt (s : State) (g : Nat) : Nat := ((s.image.map Image.groupBase).getD 0) + 128 * g
def groupRec (s : State) (g : Nat) : GroupRec := parseGroup (readMem s (groupAt s g) 128)
def groupCount (s : State) : Nat := (s.image.map Image.groupCount).getD 0

/-- Whether an update leaves the beds of a group alone without a check: FREEZE, a restore's hold, or ENABLED = 0. A group
number beyond the table names no record in use. -/
def groupFrozen (s : State) (g : Nat) : Bool :=
  let x := groupRec s g
  decide (groupCount s ≤ g) || !x.enabled || x.freeze || x.rhold

/-! ### Operations (R231) -/

/-- R82 without position, for MIN and MAX: a NaN counts as the infinity that loses, and the earlier operand wins among equals. -/
def pickR82 (mx : Bool) (a b : W32) : W32 :=
  let lose : W32 := if mx then 0xFF800000#32 else 0x7F800000#32
  let x := if fvNan (ofF32 a) then lose else a
  let y := if fvNan (ofF32 b) then lose else b
  if (if mx then gtF (ofF32 y) (ofF32 x) else gtF (ofF32 x) (ofF32 y)) then y else x

/-- R33, R105: no payload of a NaN passes on. -/
def canonW (a : W32) : W32 := if fvNan (ofF32 a) then nan32 else a

/-- Table 10-4: one lane of a rake operation. -/
def rakeLane (op : Nat) (a b c : W32) : W32 :=
  match op with
  | 0x01 => canonW a
  | 0x02 => (vecLane 0x40 a b c).1
  | 0x03 => (vecLane 0x41 a b c).1
  | 0x04 => (vecLane 0x42 a b c).1
  | 0x05 => (vecLane 0x43 a b c).1
  | 0x06 => (vecLane 0x43 (a ^^^ 0x80000000#32) b c).1
  | 0x07 => pickR82 false a b
  | 0x08 => pickR82 true a b
  | 0x09 => (vecLane 0x46 a b c).1
  | 0x0A => (vecLane 0x47 a b c).1
  | 0x0B => (vecLane 0x60 a b c).1
  | 0x0C => (vecLane 0x61 a b c).1
  | 0x0D => (vecLane 0x63 a b c).1
  | 0x0E =>
    let v := ofF32 a
    if fvNan v then nan32 else if fvZero v then a else if fvSign v then 0xBF800000#32 else 0x3F800000#32
  | _ => canonW (if gtF (ofF32 a) (.fin true 0 0) && !fvZero (ofF32 a) && !fvNan (ofF32 a) then b else c)

/-- The beats of an operation (Table 10-4). -/
def rakeBeats (op : Nat) : Nat := if op = 0x0B ∨ op = 0x0C then 4 else 1

/-- R230: the value of an operand code in a lane; `scal` holds S0 to S7, C1, C2 and T. -/
def rakeOperand (k : Rake) (code lane : Nat) : W32 :=
  if code < 16 then tget 0 k.e (code * 256 + lane)
  else if code < 27 then k.scal.getD (code - 16) 0
  else if code = 28 then 0x3F800000#32 else 0

/-- R230, R231: one operation over the active lanes of a rake, each lane reading its operands before it is written. -/
def rakeStep (k : Rake) (op d a b c : Nat) : Rake :=
  let e := k.active.foldl (fun t l =>
    tput 0 t (d * 256 + l) (rakeLane op (rakeOperand k a l) (rakeOperand k b l) (rakeOperand k c l))) k.e
  { k with e := e, ctr := tput 0 k.ctr 0x40 (tget 0 k.ctr 0x40 + rakeBeats op) }

/-- The fields of an instruction word (Table 10-3). -/
def rakeWord (k : Rake) (w : Nat) : Rake := rakeStep k (bitsAt w 0 6) (bitsAt w 6 4) (bitsAt w 10 5) (bitsAt w 15 5) (bitsAt w 20 5)

/-- R230: whether RAKE_PROGRAM refuses a word: a reserved operation or field, or a reserved code in an operand that the
operation uses. An operand field that it does not use is ignored. -/
def rakeWordBad (w : Nat) : Bool :=
  let op := bitsAt w 0 6
  let n := if op = 0x05 ∨ op = 0x06 ∨ op = 0x0F then 3
    else if op = 0x01 ∨ op = 0x09 ∨ op = 0x0A ∨ op = 0x0C ∨ op = 0x0D ∨ op = 0x0E then 1 else 2
  op == 0 || decide (0x0F < op) || bitsAt w 25 7 != 0 || decide (0x1C < bitsAt w 10 5)
    || (decide (1 < n) && decide (0x1C < bitsAt w 15 5)) || (decide (2 < n) && decide (0x1C < bitsAt w 20 5))

/-! ### Constants and schedules (R227 to R229) -/

def pF64 : FParam := ⟨11, 52, 1023, 1⟩

/-- Round a value to binary64. -/
def r64 (v : FVal) : FVal :=
  match v with
  | .fin s m e =>
    let b := roundMag pF64 .rne m e
    if b > maxFinite pF64 then .inf s else decFloat pF64 (signBit pF64 s + b)
  | v => v

/-- R227: the power loop for one base; `fuel` bounds the bits of `k`. -/
def pow64 : Nat → Nat → FVal → FVal → FVal
  | 0, _, p, _ => p
  | fuel + 1, k, p, b =>
    if k = 0 then p
    else pow64 fuel (k / 2) (if k % 2 = 1 then r64 (mulF p b).1 else p) (r64 (mulF b b).1)

def one64 : FVal := .fin false 1 0

/-- C1 or C2 for a base and t. -/
def biasConst (b : W32) (t : Nat) : W32 :=
  (toF32 (r64 (divF one64 (r64 (addF one64 (fvNeg (pow64 40 t one64 (ofF32 b)))).1)).1)).1

/-- R227: C1, C2 and T. -/
def constsOf (x : GroupRec) (step : Nat) : List W32 :=
  let t := (step + 2 ^ 32 - x.offset) % 2 ^ 32 + 1
  [biasConst x.b1 t, biasConst x.b2 t, (toF32 (ofInt t)).1]

/-- R229: the value of a segment of 32 bytes at step n. -/
def segValue (l : List Byte) (n : Nat) : W32 :=
  let f (o k : Nat) : Nat := leNat ((l.drop o).take k)
  let v0 : W32 := BitVec.ofNat 32 (f 0x0C 4)
  let v1 : W32 := BitVec.ofNat 32 (f 0x10 4)
  if f 3 1 = 0 then v0
  else
    let d := (vecLane 0x41 v1 v0 0).1
    let q := if f 8 4 = f 4 4 then 0#32
      else (vecLane 0x60 (toF32 (ofInt (n - f 4 4 : Nat))).1 (toF32 (ofInt (f 8 4 - f 4 4 : Nat))).1 0).1
    (vecLane 0x43 d q v0).1

/-- R229: what SWEEP_RUN refuses in a segment. -/
def segBad (l : List Byte) : Bool :=
  let f (o k : Nat) : Nat := leNat ((l.drop o).take k)
  let fin (o : Nat) : Bool := match ofF32 (BitVec.ofNat 32 (f o 4)) with | .fin _ _ _ => true | _ => false
  decide (7 < f 2 1) || decide (1 < f 3 1) || decide (f 8 4 < f 4 4) || !fin 0x0C || !fin 0x10 || f 0x14 12 != 0

/-- R228: the scalars of a group at a step. -/
def schedScalars (segs : List (List Byte)) (g n : Nat) (base : List W32) : List W32 :=
  (List.range 8).map fun i =>
    match (segs.filter fun l =>
      let f (o k : Nat) : Nat := leNat ((l.drop o).take k)
      (f 0 2 == g || f 0 2 == 0xFFFF) && f 2 1 == i && f 4 4 ≤ n && n ≤ f 8 4).getLast? with
    | some l => segValue l n
    | none => base.getD i 0

/-- The expected count of R224. -/
def expected (x : GroupRec) (step : Nat) : Nat := (step + 2 ^ 32 - x.offset) % 2 ^ 32

/-- The enabled groups. -/
def enabledGroups (s : State) : List Nat := (List.range (groupCount s)).filter fun g => (groupRec s g).enabled

/-- The shard table of a sweep. -/
def shardGroups (s : State) (w : Sweep) : List Nat := (List.range w.nshard).map fun i => readLE s (w.shard + 8 * i) 8

/-- R216, R224, R227, R228: the rake phase of a context's step begins. -/
def phaseBegin (s : State) (c : Nat) : State :=
  match (s.ctx c).sweep with
  | none => s
  | some w =>
    let segs := (List.range w.nseg).map fun i => readMem s (w.sched + 32 * i) 32
    let gs := enabledGroups s
    let rej := gs.filter fun g => !groupFrozen s g && (groupRec s g).count != expected (groupRec s g) w.step
    rakesArm { (s.modCtx c fun x => { x with sweep := x.sweep.map fun w => { w with phase := 3, phaseAt := s.now } }) with
      schedStep := w.step, schedPhase := 3
      rphase := { active := true, ctx := c, step := w.step, at0 := s.now, rseed := w.rseed, rejected := rej, want := shardGroups s w, tele := w.tele
                  stale := s.rphase.stale, baddesc := s.rphase.baddesc
                  consts := gs.map fun g => (g, schedScalars segs g w.step (groupRec s g).s ++ constsOf (groupRec s g) w.step) } }

/-! ### Beds (Table 7-12, Table 7-13) -/

/-- Address of bed k's tail. -/
def tailAt (bed k : Nat) : Nat := bed + 0x0C00 + k * 0x340

/-- A bed as its tail gives it: group, header bits, STEP and formats. -/
structure BedHdr where
  group : Nat
  valid : Bool
  frozen : Bool
  step : Nat
  hfmt : Nat
  m1 : Nat
  m2 : Nat

def bedHdr (s : State) (bed k : Nat) : BedHdr :=
  let x := readLE s (tailAt bed k) 16
  { group := bitsAt x 0 16, valid := bitsAt x 16 1 == 1, frozen := bitsAt x 17 1 == 1, step := bitsAt x 32 32
    hfmt := bitsAt x 64 5, m1 := bitsAt x 69 5, m2 := bitsAt x 74 5 }

/-- R224: what becomes of a bed. -/
inductive BedFate
  | skip | rejected | dup | mismatch | update
  deriving DecidableEq, Repr

def bedFate (s : State) (step : Nat) (h : BedHdr) : BedFate :=
  if !h.valid || h.frozen || groupFrozen s h.group then .skip
  else if s.rphase.rejected.contains h.group then .rejected
  else
    let e := expected (groupRec s h.group) step
    if h.step = (e + 1) % 2 ^ 32 then .dup else if h.step ≠ e then .mismatch else .update

/-- The words of a plane of scaled FP8 moments. -/
def momentWords (s : State) (a scales fmt : Nat) : List W32 :=
  (decPlane fmt (readMem s scales 4) 0 ((readMem s a 128).map (·.toNat))).map fun v => (toF32 v).1

/-- Convert 128 values in blocks of 32: packed element bytes and scale bytes. -/
def convBed (fmt rmode : Nat) (seed : W64) (pad : Byte) (idx0 : Nat) (l : List W32) : List Byte × List Byte :=
  let cv : Conv := ⟨fmt, rmode, true, false, 0⟩
  let outs := (List.range 4).map fun i =>
    cvBlock cv seed pad [] (countFrom (idx0 + 32 * i) 32) (((l.drop (32 * i)).take 32).map ofF32)
  (pack (fdCode fmt) (outs.flatMap BlkOut.elems), outs.flatMap BlkOut.scales)

/-- R157: where bed k's head goes. -/
def headPieces (bed k fmt : Nat) (el sc : List Byte) : List (Nat × List Byte) :=
  let e := el.length
  let t := sc.length
  if elemBits (fdCode fmt) = 4 then
    let r := bed + k / 2 * (2 * (e + t))
    [(r + k % 2 * e, el), (r + 2 * e + k % 2 * t, sc)]
  else [(bed + k * (e + t), el), (bed + k * (e + t) + e, sc)]

/-! ### The block preconditioner (R234 to R236) -/

/-- The preconditioner block of a bed group, where its group has one. -/
def precBlock (x : GroupRec) (bed : Nat) : Option Nat := if x.precond && x.rbase ≤ bed then some ((bed - x.rbase) / 131072) else none

def statAddr (x : GroupRec) (b : Nat) : Nat := x.pbase + b * 131072
def rootAddr (x : GroupRec) (b : Nat) : Nat := x.pbase + b * 131072 + 65536
def hdrAddr (x : GroupRec) (b : Nat) : Nat := x.phdr + b * 64

/-- A 128 × 128 FP32 matrix by rows, and by columns. -/
def readMat (s : State) (a : Nat) : List (List W32) :=
  (List.range 128).map fun i => (unpack32 (readMem s (a + 512 * i) 512)).map (BitVec.ofNat 32)
def matBytes (m : List (List W32)) : List Byte := m.flatMap fun r => r.flatMap fun w => leBytes 4 w.toNat
def matCols (m : List (List W32)) : List (List FVal) := (List.range 128).map fun j => m.map fun r => ofF32 (r.getD j 0)

/-- R40: a row times each column. -/
def rowTimes (cols : List (List FVal)) (row : List W32) : List W32 :=
  let v := row.map ofF32
  cols.map fun c => (columnSum false 0 0 true c v).1
def matMul (a b : List (List W32)) : List (List W32) := let cols := matCols b; a.map (rowTimes cols)

/-- R235: the exact products of a bed's gradients added to the sums. -/
def gramAdd (sums : List FVal) (g : List FVal) : List FVal :=
  (sums.zip (g.flatMap fun a => g.map fun b => (mulF a b).1)).map fun e => (sumF [e.1, e.2]).1

/-- R235, step 3, at the eighth block: the slot combined into the statistics. -/
def gramFold (s : State) (x : GroupRec) (b : Nat) (sums : List FVal) : State :=
  let a := statAddr x b
  let old := (readMat s a).flatMap id
  let k := (addF one64 (fvNeg (ofF32 x.sbeta))).1
  let new := (old.zip sums).map fun e =>
    (vecLane 0x43 x.sbeta e.1 (toF32 (mulF k (ofF32 (toF32 e.2).1)).1).1).1
  writeMem (readIn s a 65536) a (new.flatMap fun w => leBytes 4 w.toNat) (isPoisoned s a 65536)

/-- Elementwise work over two matrices. -/
def matMap (f : Nat → Nat → W32 → W32) (m : List (List W32)) : List (List W32) :=
  ((List.range 128).zip m).map fun e => ((List.range 128).zip e.2).map fun d => f e.1 d.1 d.2

/-- A power of two as FP32. -/
def pow2w (k : Int) : W32 := (toF32 (.fin false 1 k)).1

/-- The least integer e with 2^(2re) ≥ the sum of squares, found from the bound `lo` up (R236). -/
def rootExp (r : Nat) (ss : FVal) : Nat → Int → Int
  | 0, e => e
  | fuel + 1, e => if gtF ss (.fin false 1 (2 * r * e)) then rootExp r ss fuel (e + 1) else e

/-- One attempt's iterations: the result P and the iterations it took. -/
def refreshLoop (r : Nat) : Nat → Nat → List (List W32) → List (List W32) → Option (List (List W32) × Nat)
  | 0, _, _, _ => none
  | fuel + 1, k, xm, m =>
    let rr := (toF32 (ofInt r)).1
    let u := matMap (fun i j w => (vecLane 0x60 (vecLane 0x41 (if i = j then (toF32 (ofInt (r + 1 : Nat))).1 else 0) w 0).1 rr 0).1) m
    let x1 := matMul xm u
    let u2 := matMul u u
    let m1 := matMul (if r = 4 then matMul u2 u2 else u2) m
    let close := ((List.range 128).zip m1).all fun e => ((List.range 128).zip e.2).all fun d =>
      let v := ofF32 (vecLane 0x41 d.2 (if e.1 = d.1 then 0x3F800000#32 else 0) 0).1
      !fvNan v && !gtF (fvAbs v) (.fin false 1 (-10))
    if close then some (x1, k) else refreshLoop r fuel (k + 1) x1 m1

/-- The attempts of R236 from attempt `n`: P, iterations, damping and the attempt that succeeded. -/
def refreshTry (r : Nat) (st : List (List W32)) : Nat → Nat → W32 → Option (List (List W32) × Nat × W32 × Nat)
  | 0, _, _ => none
  | fuel + 1, n, eps =>
    let a := matMap (fun i j w => if i = j then (vecLane 0x40 w eps 0).1 else w) st
    let bad := ((List.range 128).zip a).any fun e => (e.2.any fun w => match ofF32 w with | .fin _ _ _ => false | _ => true)
      || (let v := ofF32 (e.2.getD e.1 0); fvZero v || fvSign v)
    let next := refreshTry r st fuel (n + 1) (vecLane 0x42 eps 0x41200000#32 0).1
    if bad then next
    else
      let ss := (sumF (a.flatMap fun row => row.map fun w => (mulF (ofF32 w) (ofF32 w)).1)).1
      let e := rootExp r ss 400 (-160)
      match refreshLoop r 40 1 (matMap (fun i j _ => if i = j then pow2w (-e) else 0) a)
          (matMap (fun _ _ w => (vecLane 0x42 w (pow2w (-(r * e))) 0).1) a) with
      | some (p, k) => some (p, k, eps, n)
      | none => next

/-- R236, R238: refresh block `b` of a group at a step. -/
def refreshBlock (s : State) (r g b step : Nat) : State :=
  let x := groupRec s g
  let h := hdrAddr x b
  let root := if x.root = 2 then 4 else 2
  let bad := isPoisoned s (statAddr x b) 65536 || isPoisoned s (rootAddr x b) 65536
  let s := readIn (if isPoisoned s (rootAddr x b) 65536 then noteBad s (rootAddr x b) 65536 else s) (statAddr x b) 65536
  match (if bad then none else refreshTry root (readMat s (statAddr x b)) 4 1 x.eps0) with
  | some (p, k, eps, n) =>
    let s1 := writeMem (writeMem s (rootAddr x b) (matBytes p)) h
      (leBytes 1 1 ++ leBytes 1 n ++ leBytes 2 k ++ leBytes 4 eps.toNat ++ leBytes 4 step)
    { s1 with rphase := { s1.rphase with refreshes := s1.rphase.refreshes + 1 } }
  | none =>
    let s1 := writeMem (writeMem (writeMem s h (leBytes 1 2 ++ leBytes 1 (if bad then 1 else 4))) (h + 8) (leBytes 4 step)) (h + 12)
      (leBytes 4 ((readLE s (h + 12) 4 + 1) % 2 ^ 32))
    let s2 := rakeCount s1 r 0x38 1
    { s2 with rphase := { s2.rphase with refreshes := s2.rphase.refreshes + 1, fallbacks := s2.rphase.fallbacks + 1 } }

/-! ### The bed pass (R218 to R224) -/

/-- R218: the sum of the incoming block and this chip's own partial. -/
def sumGrads (s : State) (b : Blk) : List W32 :=
  (b.grads.zip (gradWords false (readMem s b.own 4096))).map fun e => (vecLane 0x40 e.1 e.2 0).1

/-- The gradient that E0 holds for a bed, and the program that runs (R235). -/
def bedProg (s : State) (x : GroupRec) (bed : Nat) (g : List W32) : List W32 × Nat :=
  match precBlock x bed with
  | some b => if readLE s (hdrAddr x b) 1 = 1 then (rowTimes (matCols (readMat s (rootAddr x b))) g, x.prog) else (g, x.dprog)
  | none => (g, x.prog)

/-- Load 128 lanes of an element register. -/
def loadLanes (t : Tab W32) (reg lane0 : Nat) (l : List W32) : Tab W32 :=
  ((countFrom (reg * 256 + lane0) l.length).zip l).foldl (fun t e => tput 0 t e.1 e.2) t

/-- R219: the element registers for the beds of a pair that one run covers, each with its lane base, gradient, E0 and
address. -/
def loadBed (s : State) (t : Tab W32) (bed k lane0 : Nat) (h : BedHdr) (g e0 : List W32) : Tab W32 :=
  let a := tailAt bed k
  let t1 := loadLanes t 0 lane0 e0
  let t2 := loadLanes t1 1 lane0 ((unpack32 (readMem s (a + 0x40) 512)).map (BitVec.ofNat 32))
  let t3 := loadLanes t2 2 lane0 (momentWords s (a + 0x240) (a + 0x10) h.m1)
  let t4 := loadLanes t3 3 lane0 (momentWords s (a + 0x2C0) (a + 0x14) h.m2)
  loadLanes t4 4 lane0 g

/-- 128 lanes of an element register. -/
def laneWords (k : Rake) (reg lane0 : Nat) : List W32 := (countFrom (reg * 256 + lane0) 128).map (tget 0 k.e)

def finite32 (w : W32) : Bool := match ofF32 w with | .fin _ _ _ => true | _ => false

/-- What is to be written of a bed group: the state with its counts, and the pieces of the one bed-row write (R223). -/
abbrev GroupOut := State × List (Nat × List Byte)

/-- R220 to R222: an updated bed from its lanes, or nothing where NANSKIP finds a non-finite value. -/
def writeBed (s : State) (r step : Nat) (b : Blk) (rseed : W64) (k : Nat) (h : BedHdr) (g : List W32) : GroupOut :=
  let x := groupRec s h.group
  let lane0 := k % 2 * 128
  let q := s.rake r
  let w := laneWords q 1 lane0
  let m1 := laneWords q 2 lane0
  let m2 := laneWords q 3 lane0
  if x.nanskip && !(g.all finite32 && w.all finite32 && m1.all finite32 && m2.all finite32) then
    let s1 := rakeCount s r 0x30 1
    ({ s1 with rphase := { s1.rphase with nonfinite := s1.rphase.nonfinite + 1 } }, [])
  else
    let pad : Byte := (Config.freeValue s.freeCtr).setWidth 8
    let a := tailAt b.bed k
    let (e1, c1) := convBed h.m1 0 0 pad 0 m1
    let (e2, c2) := convBed h.m2 0 0 pad 0 m2
    let seed := rseed + 0x8000000000000000#64 + BitVec.ofNat 64 step
    let (eh, ch) := convBed h.hfmt (if x.srhead then 2 else 0) seed pad (b.bed / 16384 * 2048 + k * 128) w
    (takeFree s 1, [(a + 4, leBytes 4 ((expected x step + 1) % 2 ^ 32)), (a + 0x10, c1), (a + 0x14, c2), (a + 0x40, w.flatMap fun v => leBytes 4 v.toNat)
      , (a + 0x240, e1), (a + 0x2C0, e2)] ++ headPieces b.bed k h.hfmt eh ch)

/-- R235: what running a bed's program reads beside its tail: P of its preconditioner block, where it is valid. -/
def notePrec (s : State) (x : GroupRec) (bed : Nat) : State :=
  match precBlock x bed with
  | some b => if readLE s (hdrAddr x b) 1 = 1 then readIn s (rootAddr x b) 65536 else s
  | none => s

/-- Run one program over some beds of a pair, each given with its header; their writes join those of the group. -/
def runPair (o : GroupOut) (r step : Nat) (b : Blk) (rseed : W64) (g : List W32) (ks : List (Nat × BedHdr)) : GroupOut :=
  let s := o.1
  match ks with
  | [] => o
  | (k0, h0) :: _ =>
    let x := groupRec s h0.group
    let gk (k : Nat) : List W32 := (g.drop (k * 128)).take 128
    let prog := (bedProg s x b.bed (gk k0)).2
    let e := ks.foldl (fun t kh => loadBed s t b.bed kh.1 (kh.1 % 2 * 128) kh.2 (gk kh.1) (bedProg s x b.bed (gk kh.1)).1) []
    let scal := ((s.rphase.consts.find? (fun c => c.1 == h0.group)).map (·.2)).getD []
    let s1 := (notePrec s x b.bed).modRake r fun k =>
      (tget [] s.rakeProgs prog).foldl rakeWord { k with e := e, active := ks.flatMap fun kh => countFrom (kh.1 % 2 * 128) 128, scal := scal }
    ks.foldl (fun o kh => let w := writeBed o.1 r step b rseed kh.1 kh.2 (gk kh.1); (w.1, o.2 ++ w.2)) (s1, o.2)

/-- R219, R223: the beds of a block pair by pair, a pair of two groups each by itself, and the one write of the bed group. -/
def runBeds (s : State) (r step : Nat) (b : Blk) (rseed : W64) (g : List W32) (upd : List (Nat × BedHdr)) : State :=
  let o := (List.range 8).foldl (fun o j =>
    match upd.filter (fun kh => kh.1 / 2 == j) with
    | [p, q] => if p.2.group = q.2.group then runPair o r step b rseed g [p, q]
        else runPair (runPair o r step b rseed g [p]) r step b rseed g [q]
    | l => runPair o r step b rseed g l) ((s, []) : GroupOut)
  writePieces o.1 o.2

/-- R235, step 3: the block's gradients in its Gram slot, and the statistics and the refresh at the eighth block. -/
def gramBlock (s : State) (r step g b : Nat) (beds : List (List W32)) : State :=
  let x := groupRec s g
  let q := s.rake r
  let old : Gram := (q.gram.find? (fun m => m.group == g && m.block == b)).getD
    { group := g, block := b, taken := 0, sums := List.replicate 16384 (.fin false 0 0) }
  let new : Gram := { old with taken := old.taken + 1, sums := beds.foldl (fun t l => gramAdd t (l.map ofF32)) old.sums }
  let rest := q.gram.filter (fun m => !(m.group == g && m.block == b))
  if new.taken < 8 then s.modRake r fun k => { k with gram := rest ++ [new] }
  else
    let s1 := gramFold s x b new.sums
    let due := x.refresh != 0 && (expected x step + 1) % x.refresh == 0
    s1.modRake r fun k => { k with gram := rest, refresh := if due then k.refresh ++ [(g, b, step)] else k.refresh }

/-- R235: the preconditioner blocks that a bed group counts toward, by its beds in groups whose updates run: group and block. -/
def gramKeys (s : State) (bed : Nat) (hs : List (Nat × BedHdr)) : List (Nat × Nat) :=
  (hs.filterMap fun kh => (precBlock (groupRec s kh.2.group) bed).map fun b => (kh.2.group, b)).eraseDups

/-- R235: whether the block finds the Gram slots it needs. -/
def gramRoom (k : Rake) (keys : List (Nat × Nat)) : Bool :=
  (keys.filter (fun e => !k.gram.any (fun m => m.group == e.1 && m.block == e.2))).length + k.gram.length ≤ 4

/-- The first block of a rake's queue, where the rake may take it now (R216, R217, R237). -/
def readyBlk (s : State) (r : Nat) : Option Blk :=
  let k := s.rake r
  match k.queue with
  | b :: _ =>
    if s.rphase.active && s.rphase.ctx == b.ctx && s.rphase.step == b.step && b.pegOk && !k.halted
        && !s.rphase.counted && k.refresh.all (fun e => e.2.2 == b.step) then some b else none
  | [] => none

/-- The block leaves the queue, resolved. -/
def popBlk (s : State) (r : Nat) (b : Blk) : State :=
  { (s.modRake r fun k => { k with queue := k.queue.drop 1 }) with
    rphase := { s.rphase with resolved := ninsert s.rphase.resolved b.bed } }

/-- R218: what a block's pass reads: OWN and the 16 tails. -/
def blkReads (s : State) (b : Blk) : State := readIn (readIn s b.own 4096) (b.bed + 0x0C00) (16 * 0x340)

/-- R218, R224, R238: one block. -/
def bedPass (s : State) (r : Nat) : State :=
  match readyBlk s r with
  | none => s
  | some b =>
    if isPoisoned s b.own 4096 || isPoisoned s (b.bed + 0x0C00) (16 * 0x340) then
      let s1 := blkReads (rakeCount (popBlk s r b) r 0x70 1) b
      { s1 with rphase := { s1.rphase with ue := s1.rphase.ue + 1 } }
    else
      let rseed := s.rphase.rseed
      let hs := (List.range 16).map fun k => (k, bedHdr s b.bed k)
      let fate (kh : Nat × BedHdr) : BedFate := bedFate s b.step kh.2
      let checked := hs.filter fun kh => fate kh != .skip && fate kh != .rejected
      let counts (kh : Nat × BedHdr) : Bool := kh.2.valid && !groupFrozen s kh.2.group && fate kh != .rejected
      let g := sumGrads s b
      if hs.any (fun kh => fate kh == .dup) then
        let s1 := rakeCount (blkReads (popBlk s r b) b) r 0x10 1
        { s1 with rphase := { s1.rphase with dups := s1.rphase.dups + 1 } }
      else if !gramRoom (s.rake r) (gramKeys s b.bed (hs.filter counts)) then s
      else
        let rej := hs.any fun kh => fate kh == .rejected
        let mis := (hs.filter fun kh => fate kh == .mismatch).length
        let upd := hs.filter fun kh => fate kh == .update
        let s1 := runBeds (blkReads (popBlk s r b) b) r b.step b rseed g upd
        let s2 := (gramKeys s b.bed (hs.filter counts)).foldl (fun s e =>
          gramBlock s r b.step e.1 e.2 ((checked.filter fun kh => kh.2.group == e.1).map fun kh => (g.drop (kh.1 * 128)).take 128)) s1
        let s3 := if rej then rakeCount s2 r 0x20 1 else s2
        let s4 := rakeCount s3 r 0x28 mis
        let applied := !rej || !upd.isEmpty
        let s5 := if applied then rakeCount s4 r 0x08 1 else s4
        { s5 with rphase := { s5.rphase with bedmis := s5.rphase.bedmis + mis, applied := s5.rphase.applied + b2n applied } }

/-- R225, R236, R237: the next refresh of a rake, once every block of the step is handled and the COUNTs are set. -/
def refreshNext (s : State) (r : Nat) : State :=
  let k := s.rake r
  match k.refresh with
  | (g, b, step) :: rest =>
    if k.halted || !s.rphase.counted then s
    else refreshBlock (s.modRake r fun k => { k with refresh := rest }) r g b step
  | [] => s

end Sys2Proof.Machine
end

