-- ==== Sys2Proof/Machine/Sched.lean ====
section
/-! DEFINITION. The stage schedule and the Trellis (chapters 9 and 15): claims and units, readiness, the order of R366,
placement, slices and pre-emption, the completion of units, steps, sweeps and serving boundaries. -/

namespace Sys2Proof.Machine

/-! ### The image's descriptors -/

def descOf (s : State) (id : Nat) : Option SweepDesc := s.image.bind fun im => im.sweeps[id]?
def unitDesc (s : State) (u : WUnit) : SweepDesc := (descOf s u.desc).getD {}

/-- R193: stash slots held, and whether a micro-batch holds one. -/
def stashFree (s : State) : Bool := decide (s.stash.length < (imageD s).stashSlots)
def stashHeld (s : State) (u : WUnit) : Bool := s.stash.contains ⟨u.ctx, u.step, u.index⟩

/-- Change a context's sweep. -/
def State.modSweep (s : State) (c : Nat) (f : Sweep → Sweep) : State := s.modCtx c fun x => { x with sweep := x.sweep.map f }

/-! ### Counters of a context (R387) -/

def curCtr (s : State) (n : Nat) : List Nat := [0x200, 0x208, 0x210, 0x218, 0x280].map (tget 0 (s.core n).run.eng.ctr)

/-- What a unit's cores have counted since they were last charged, charged to its context. -/
def chargeUnit (s : State) (u : WUnit) : State :=
  let on := u.cores.filter fun n => (s.core n).busy && (s.core n).ctx == u.ctx
  let diff := on.map fun n => (n, ((curCtr s n).zip (((u.ctr0.find? (fun e => e.1 == n)).map (·.2)).getD (curCtr s n))).map fun e => e.1 - e.2)
  let sum (i : Nat) : Nat := (diff.map fun e => e.2.getD i 0).foldl (· + ·) 0
  let tot := u.cores.map fun n =>
    let a := ((u.tot.find? (fun e => e.1 == n)).map (·.2)).getD [0, 0, 0, 0, 0]
    (n, match diff.find? (fun e => e.1 == n) with | some d => (a.zip d.2).map fun e => e.1 + e.2 | none => a)
  ((s.modCtx u.ctx fun x => { x with beats := x.beats + sum 0, stallW := x.stallW + sum 1, stallStash := x.stallStash + sum 2
                                     stallStat := x.stallStat + sum 3 }).modTrellis fun t =>
    { t with waves := t.waves + sum 0 + sum 4, stalls := t.stalls + sum 1 }).modUnit u.id fun v =>
    { v with ctr0 := on.map (fun n => (n, curCtr s n)), tot := tot }

/-- Charge every running unit. -/
def chargeAll (s : State) : State := (s.units.filter fun u => u.st == 2 || u.st == 3 || u.st == 5).foldl chargeUnit s

/-! ### Claims (R188, R440) -/

/-- The descriptors that a running sweep claims for: forward and input gradient, or prefill and decode. -/
def claimDescs (w : Sweep) : List Nat := [w.fwd, w.igr]

/-- Units of a descriptor claimed whole in the step in progress, the completed ones included: the next unit's index. -/
def nextIndex (s : State) (c : Nat) (w : Sweep) (d : Nat) : Nat :=
  let live := (s.units.filter fun u => u.ctx == c && u.desc == d && u.step == w.step && u.st != 0).length
  if w.serving then w.doneSteps else live + (if d = w.fwd then w.fwdDone else w.igrDone.length)

/-- Whether the Trellis claims for a descriptor of a context's sweep now (R191, R195, R208, R353, R437); `replay` says that the
packet belongs to an abandoned unit, which counts in its step already (R440). -/
def mayClaim (s : State) (c d : Nat) (replay : Bool) : Bool :=
  let x := s.ctx c
  match x.sweep, descOf s d with
  | some w, some ds =>
    w.failing.isNone && !w.cancelling && s.draining != some 1 && !(s.plotWait && ds.plotsz != 0xFF && ds.plotsz == s.plotsz)
      && (if w.serving then
            (!x.deadline || x.inPeriod) && w.phase == 1 && !w.igrDone.contains d
              && !s.units.any (fun u => u.ctx == c && u.desc == d && u.st != 0 && u.st != 6)
          else !x.fenceClosed && w.phase == 1 && (replay || decide (nextIndex s c w d < w.m)))
  | _, _ => false

/-- The descriptor whose units the packets of a tray form. -/
def trayDesc (s : State) (n : Nat) : Option Nat :=
  ((s.ctx (s.tray n).ctx).sweep).bind fun w => (claimDescs w).find? fun d =>
    match descOf s d with | some ds => ds.intray == n | none => false

/-- A claimed packet joins its unit; an END packet completes it. -/
def joinUnit (s : State) (n d : Nat) (p : Packet) : State :=
  let c := (s.tray n).ctx
  match s.units.find? fun u => u.ctx == c && u.st == 6 && u.packets.contains (n, p.seq) with
  | some u =>
    if u.packets.all fun e => ((s.tray e.1).find .claimed e.2).isSome then s.modUnit u.id fun v => { v with st := 1 } else s
  | none =>
    match (s.ctx c).sweep, descOf s d with
    | some w, some ds =>
      let old := s.units.find? fun u => u.ctx == c && u.desc == d && u.st == 0 && (ds.kind == 5 || u.slot == p.slot)
      let u : WUnit := old.getD { id := s.nextUnit, ctx := c, desc := d, kind := ds.kind, slot := p.slot }
      let u1 := { u with packets := u.packets ++ [(n, p.seq)], step := w.step }
      let u2 := if p.endp then { u1 with st := 7, index := nextIndex s c w d } else u1
      match old with
      | some _ => s.modUnit u.id fun _ => u2
      | none => { s with units := s.units ++ [u2], nextUnit := s.nextUnit + 1 }
    | _, _ => s

/-- R440: the packet that a tray would give next belongs to a unit that was abandoned. -/
def replayHead (s : State) (n : Nat) : Bool :=
  match (s.tray n).head with
  | some p => s.units.any fun u => u.st == 6 && u.packets.contains (n, p.seq)
  | none => false

/-- R188: the Trellis claims the first packet of a tray whose packets form units, or waits for one (R177). -/
def trellisClaim (s : State) (n : Nat) : State :=
  match trayDesc s n with
  | none => s
  | some d =>
    if !mayClaim s (s.tray n).ctx d (replayHead s n) then s
    else match claimHead s n (s.tray n).ctx with
      | (s1, some p) => joinUnit s1 n d p
      | (s1, none) =>
        if (s1.tray n).readmode && (s1.tray n).waiters.length < 4 && !(s1.tray n).waiters.contains .trellis then
          s1.modTray n fun t => { t with waiters := t.waiters ++ [.trellis] }
        else s1

/-! ### Readiness (R192 to R194) -/

/-- R193, R195: whether a unit claimed whole has what it needs to start. -/
def mayStart (s : State) (u : WUnit) : Bool :=
  let x := s.ctx u.ctx
  match x.sweep with
  | none => false
  | some w =>
    w.failing.isNone && !w.cancelling
      && (if w.serving then (!x.deadline || x.inPeriod) && w.phase == 1
          else if u.kind = 3 then u.index == w.wgrDone else !x.fenceClosed && (u.kind != 1 || stashHeld s u || stashFree s))

/-- Units become ready, and cease to be while a resource is short. -/
def markReady (s : State) : State :=
  { s with units := s.units.map fun u =>
      if u.st = 7 ∧ mayStart s u then { u with st := 1, tReady := s.now }
      else if u.st = 1 ∧ u.kind = 1 ∧ !mayStart s u ∧ !stashHeld s u then { u with st := 7 } else u }

/-- R194: the weight-gradient unit of a context's next window, once every input-gradient unit of the window is done. -/
def makeWindow (s : State) (c : Nat) : State :=
  match (s.ctx c).sweep with
  | none => s
  | some w =>
    let wn := (imageD s).window
    if w.serving ∨ w.failing.isSome ∨ w.cancelling ∨ w.phase ≠ 1 ∨ w.m ≤ w.wgrDone * wn then s
    else if s.units.any (fun u => u.ctx == c && u.kind == 3) then s
    else if (countFrom (w.wgrDone * wn) wn).all w.igrDone.contains then
      { s with units := s.units ++ [{ id := s.nextUnit, ctx := c, desc := w.wgr, kind := 3, index := w.wgrDone, step := w.step, st := 1
                                      tReady := s.now }]
               nextUnit := s.nextUnit + 1 }
    else s

/-! ### The order of candidates (R366, R367, R369) -/

def effPrio (s : State) (u : WUnit) : Nat := (s.ctx u.ctx).prio + min 8 ((s.now - u.tReady) / 4000000)

def isDeadline (s : State) (u : WUnit) : Bool := (s.ctx u.ctx).deadline

/-- R365: the solo estimate A, S and E of a descriptor. -/
def soloOf (s : State) (d : Nat) : Nat × Nat × Nat :=
  let e := tget {} s.solo d
  if e.n < 4 then (((descOf s d).map SweepDesc.beats).getD 0, 0, 0) else (e.a / e.n, e.s / e.n, e.e / e.n)

/-- R192: the rank of a training unit in its context. -/
def kindRank (u : WUnit) : Nat := if u.kind = 2 then 0 else if u.kind = 1 then 1 else 2

/-- R369: ordered as in WARM. -/
def heatAged (s : State) (u : WUnit) : Bool :=
  decide (4 ≤ u.passed) || (match u.passedAt with | some t => decide (t + 1000000 ≤ s.now) | none => false)

/-- R366, step 4. -/
def waitsLonger (u v : WUnit) : Bool :=
  u.tReady < v.tReady || (u.tReady == v.tReady && (u.ctx < v.ctx || (u.ctx == v.ctx && u.index < v.index)))

/-- R366: how steps 1 and 2 order two units. -/
def rankedFirst (s : State) (u v : WUnit) : Option Bool :=
  if isDeadline s u != isDeadline s v then some (isDeadline s u)
  else if isDeadline s u && (s.ctx u.ctx).tend != (s.ctx v.ctx).tend then some (decide ((s.ctx u.ctx).tend < (s.ctx v.ctx).tend))
  else if effPrio s u ≠ effPrio s v then some (decide (effPrio s v < effPrio s u))
  else none

/-- R366: whether `u` comes before `v`; without `heat`, as in WARM. -/
def before (s : State) (heat : Bool) (u v : WUnit) : Bool :=
  match rankedFirst s u v with
  | some b => b
  | none =>
    if u.ctx = v.ctx then kindRank u < kindRank v || (kindRank u == kindRank v && waitsLonger u v)
    else
      let (ua, _, ue) := soloOf s u.desc
      let (va, _, ve) := soloOf s v.desc
      let h := if !heat || s.trellis.heat == 1 || heatAged s u || heatAged s v then 0
        else if s.trellis.heat = 0 then (if ue * va > ve * ua then 1 else if ue * va < ve * ua then 2 else 0)
        else (if ue * va < ve * ua then 1 else if ue * va > ve * ua then 2 else 0)
      if h = 1 then true else if h = 2 then false else waitsLonger u v

/-- Insert in order. -/
def insertUnit (s : State) (u : WUnit) : List WUnit → List WUnit
  | [] => [u]
  | v :: t => if before s true u v then u :: v :: t else v :: insertUnit s u t

/-- R192: the places that the units of one training context have in an order go to them by kind: `pool` holds these units by kind. -/
def byKind : List WUnit → List WUnit → List WUnit
  | [], _ => []
  | u :: t, pool =>
    if u.kind ≤ 3 then
      match pool.find? fun v => v.ctx == u.ctx with
      | some v => v :: byKind t (delFirst (fun w => w.id == v.id) pool)
      | none => u :: byKind t pool
    else u :: byKind t pool

/-- The candidates of a decision: ready units that may start, and saved ones, in the order of R366, in which a training context's own units
stand by R192 (DESIGN CHOICE, log 95). -/
def candidates (s : State) : List WUnit :=
  let l := (s.units.filter fun u => (u.st == 1 && mayStart s u) || u.st == 4).foldr (insertUnit s) []
  byKind l ([0, 1, 2].flatMap fun k => l.filter fun u => u.kind ≤ 3 && kindRank u == k)

/-! ### Plots (R370) -/

/-- Whether a core takes a unit of a context; one that still runs a chain of Dister's does not. -/
def coreFree (s : State) (reserved : List Nat) (c n : Nat) : Bool :=
  (s.core n).mode == .idle && !(s.core n).chained && !(s.core n).testing && (s.ctx c).cores.contains n && !reserved.contains n

/-- The plots of a unit's size: index and cores. -/
def plotsOf (s : State) (ds : SweepDesc) : List (Nat × List Nat) :=
  if ds.plotsz = 0xFF then [(0, List.range 128)]
  else (List.range (128 / plotSize s.plotsz)).map fun p => (p, countFrom (p * plotSize s.plotsz) (plotSize s.plotsz))

/-- R385: the temperature that a core counts at, in 0.1 °C. -/
def coreTemp (s : State) (n : Nat) : Int :=
  let c := s.core n
  match c.failAt with
  | some t => if t + 1000000 ≤ s.now then ((s.trellis.tjmax : Int) - 1) * 10 else c.temp
  | none => c.temp

def hottest (s : State) (l : List Nat) : Int := l.foldl (fun m n => max m (coreTemp s n)) (-32768)
def coldest (s : State) (l : List Nat) : Int := l.foldl (fun m n => min m (coreTemp s n)) 32767

/-- R370, step 2. -/
def betterPlot (s : State) (p q : Nat × List Nat) : Bool :=
  if s.trellis.vtarget ≤ 600 then coldest s p.2 > coldest s q.2 else hottest s p.2 < hottest s q.2

/-- R370: the key under which a unit's affinity plot is kept: the micro-batch of a training unit, the context of a
serving one. -/
def affinityKey (u : WUnit) : Nat × Nat × Nat := if u.kind ≥ 4 then (u.ctx, 0, 0) else (u.ctx, u.step, u.index)

/-- R370: the plot that a unit takes among the free ones. -/
def choosePlot (s : State) (u : WUnit) (free : List (Nat × List Nat)) : Option (Nat × List Nat) :=
  let aff := if u.kind = 3 then none else
    (s.affinity.find? fun e => (e.1, e.2.1, e.2.2.1) == affinityKey u).bind fun e => free.find? fun p => p.1 == e.2.2.2
  match aff with
  | some p => some p
  | none => match free with
    | [] => none
    | a :: l => some (l.foldl (fun m p => if betterPlot s p m then p else m) a)

/-! ### Starting a unit (R126, R189, R383) -/

/-- A change marks every running unit of another context as not solo (R365). -/
def unsolo (s : State) (c : Nat) : State :=
  { s with units := s.units.map fun u => if u.ctx != c && (u.st == 2 || u.st == 3 || u.st == 5) then { u with soloRun := false } else u }

/-- A slice begins: SLICE less the overrun carried (R371, R372). -/
def startSlice (s : State) (id c : Nat) : State :=
  let x := s.ctx c
  if x.deadline then s
  else (s.modUnit id fun u => { u with sliceAt := s.now, sliceLen := (imageD s).slice * 1000000 - x.carry }).modCtx c fun x => { x with carry := 0 }

/-- R383: the rows lie in the half of the banks that the class is given. -/
def halfOk (s : State) (c : Nat) (ds : SweepDesc) : Bool :=
  let e := (imageD s).classtab.getD (s.ctx c).cls {}
  e.bankhalf == 0 || (24576 * (e.bankhalf - 1) ≤ ds.rowBase && ds.rowBase + ds.rowCount ≤ 24576 * e.bankhalf)

/-- Start a unit on a plot. -/
def startUnit (s : State) (u : WUnit) (plot : Nat × List Nat) : State :=
  let ds := unitDesc s u
  let w := (s.ctx u.ctx).sweep.getD {}
  if !halfOk s u.ctx ds then s.modSweep u.ctx fun w => { w with failing := some stBADPARAM }
  else
    let alone := !s.cores.any fun e => e.2.busy && e.2.ctx != u.ctx
    let seed2 := if u.kind ≥ 4 then w.doneSteps else u.index
    let s1 := ((List.range plot.2.length).zip plot.2).foldl (fun s e =>
      startProgram s e.2 u.ctx (ds.prog + e.1 * ds.pstride) ds.rowBase ds.rowCount ds.trap
        [w.rseed, BitVec.ofNat 64 u.step, BitVec.ofNat 64 seed2, BitVec.ofNat 64 e.1]) (unsolo s u.ctx)
    let s2 := u.packets.foldl (fun s e => s.modTray e.1 fun t =>
      { t with packets := modFirst (fun p => p.st == .claimed && p.seq == e.2) (fun p => { p with started := true }) t.packets }) s1
    let s3 := { s2 with
      stash := if u.kind = 1 ∧ !stashHeld s u then s2.stash ++ [({ ctx := u.ctx, step := u.step, mb := u.index } : StashSlot)] else s2.stash
      affinity := if u.kind = 3 then s2.affinity else s2.affinity.filter (fun (e : Nat × Nat × Nat × Nat) => (e.1, e.2.1, e.2.2.1) != affinityKey u)
        ++ [((affinityKey u).1, (affinityKey u).2.1, (affinityKey u).2.2, plot.1)]
      schedPhase := if u.kind = 3 then 2 else if u.kind < 3 then 1 else s2.schedPhase
      schedStep := if u.kind ≤ 3 then u.step else s2.schedStep }
    let s4 := s3.modUnit u.id fun v => { v with
      st := 2, plot := plot.1, cores := plot.2, coresDone := [], flags := 0, tStart := s.now, resumedAt := s.now, ranNs := 0
      rows := [], drained := false, replay := false, soloRun := alone, energy := 0, ctr0 := plot.2.map (fun n => (n, curCtr s3 n)), tot := [] }
    let s5 := startSlice (if u.kind ≥ 4 then takeRows s4 u else s4) u.id u.ctx
    ((List.range plot.2.length).zip plot.2).foldl (fun s e =>
      let a := ds.prog + e.1 * ds.pstride
      if a % 16 ≠ 0 ∧ (s.core e.2).mode = .running then programFault s e.2 0x0A 0 a 0 a else s) s5

/-- R369: the units that the heat preference passes over when `u` is chosen. -/
def passOver (s : State) (u : WUnit) (cands : List WUnit) : State :=
  let hit := cands.filter fun v => v.id != u.id && (rankedFirst s u v).isNone && v.ctx != u.ctx && before s false v u
  { s with
    units := s.units.map fun v => if hit.any (fun h => h.id == v.id) then { v with passed := v.passed + 1, passedAt := some (v.passedAt.getD s.now) } else v
    trellis := { s.trellis with heatskip := s.trellis.heatskip + hit.length } }

/-- One decision over the candidates in order: the state with one unit started, or the cores held for units that wait
for theirs and the units left waiting. A unit of another plot size makes the Trellis wait for that size (R191). -/
def decide1 (cands : List WUnit) : List WUnit → List Nat → List WUnit → State → Option State × List WUnit × State
  | [], _, waiting, s => (none, waiting, s)
  | u :: rest, held, waiting, s =>
    let ds := unitDesc s u
    if u.st = 4 then
      if u.cores.all (coreFree s held u.ctx) then decide1 cands rest (held ++ u.cores) waiting s
      else decide1 cands rest held (waiting ++ [u]) s
    else if ds.plotsz ≠ 0xFF ∧ (ds.plotsz ≠ s.plotsz ∨ s.plotWait) then
      decide1 cands rest held waiting (if s.plotWait then s else { s with plotWait := true, plotNext := ds.plotsz })
    else
      match choosePlot s u ((plotsOf s ds).filter fun p => p.2.all (coreFree s held u.ctx)) with
      | some p => (some (startUnit (passOver s u cands) u p), [], s)
      | none => decide1 cands rest (if ds.plotsz = 0xFF then List.range 128 else held) (waiting ++ [u]) s

/-! ### Pre-emption requests (R131, R371) -/

/-- The entry of a core whose AMUL or FMUL is taking vectors from the weight intake queue. -/
def QWord.taking (e : QWord) : Bool := e.gate.isNone && !e.done && isMulticast e.word && !e.taken.isEmpty

/-- R76, R113: a member gives back the vectors that it has taken beyond the one at which the slowest member of its plot stands, `level`
vectors before the end of the intake queue. -/
def giveBack (level : Nat) (r : Run) : Run :=
  match r.q.find? QWord.taking with
  | none => r
  | some e =>
    let k := min e.taken.length (level - vecCount r.eng.intake)
    { r with q := modFirst QWord.taking (fun e => { e with taken := e.taken.take (e.taken.length - k) }) r.q
             eng := { r.eng with intake := (e.taken.drop (e.taken.length - k)).map (InItem.vec · false) ++ r.eng.intake } }

/-- R76, R113: the members of a plot stop at the same vector of the stream: the vectors left at the slowest member are left at each. -/
def alignPlot (s : State) (u : WUnit) : State :=
  let on := u.cores.filter fun n => (s.core n).mode == .running && (s.core n).run.q.any fun e => e.gate.isNone && !e.done && isMulticast e.word
  let level := (on.map fun n => vecCount (s.core n).run.eng.intake).foldl max 0
  on.foldl (fun s n => s.modRun n (giveBack level)) s

/-- R131, step 1, on every core of a unit; a core that restores holds the request (R136). -/
def requestStop (s : State) (u : WUnit) : State :=
  let s := alignPlot s u
  let s1 := u.cores.foldl (fun s n =>
    match (s.core n).mode with
    | .running => s.modCore n fun c => { c with mode := .stopping, reqAt := some s.now }
    | .restoring => s.modCore n fun c => { c with reqHeld := true }
    | _ => s) s
  s1.modUnit u.id fun v => if v.st = 2 then { v with st := 3 } else v

/-- R371: whether a waiting unit pre-empts a running one. -/
def mayPreempt (s : State) (w v : WUnit) : Bool :=
  let p := (s.ctx v.ctx).prio
  let guarded := decide (v.resumedAt + 200000 ≤ s.now)
  v.st == 2 && !isDeadline s v && v.ctx != w.ctx
    && (if w.st = 4 then v.cores.any w.cores.contains else v.cores.all (s.ctx w.ctx).cores.contains)
    && (isDeadline s w
        || (guarded && (p + 2 ≤ effPrio s w || (v.sliceAt + v.sliceLen ≤ s.now && p ≤ effPrio s w))))

/-- R371: the better victim of two. -/
def victimBefore (s : State) (u v : WUnit) : Bool :=
  let pu := (s.ctx u.ctx).prio
  let pv := (s.ctx v.ctx).prio
  let su := s.now - u.sliceAt
  let sv := s.now - v.sliceAt
  pu < pv || (pu == pv && (sv < su || (sv == su && v.plot < u.plot)))

/-- R371: pre-empt for a waiting unit. -/
def preemptFor (s : State) (w : WUnit) : State :=
  match s.units.filter (mayPreempt s w) with
  | [] => s
  | a :: l =>
    let v := l.foldl (fun m u => if victimBefore s u m then u else m) a
    ((requestStop s v).modCtx v.ctx fun x => { x with preempts := x.preempts + 1 }).modTrellis fun t => { t with preempt := t.preempt + 1 }

/-- R371: slices that end with no other unit waiting restart. -/
def restartSlices (s : State) (waiting : List WUnit) : State :=
  if waiting.isEmpty then
    (s.units.filter fun u => u.st == 2 && !isDeadline s u && decide (u.sliceAt + u.sliceLen ≤ s.now)).foldl (fun s u => startSlice s u.id u.ctx) s
  else s

/-- The Trellis decides until no further unit starts, and then pre-empts for the units left waiting, one for each beyond
those that are being pre-empted already. -/
def trellisDecide : Nat → State → State
  | 0, s => s
  | fuel + 1, s =>
    let s1 := markReady ((liveCtxs s).foldl makeWindow s)
    let cands := candidates s1
    match decide1 cands cands [] [] s1 with
    | (some s2, _, _) => trellisDecide fuel s2
    | (none, waiting, s2) =>
      let busy := (s2.units.filter fun u => u.st == 3).length
      restartSlices ((waiting.drop busy).foldl preemptFor s2) waiting

/-! ### Serving boundaries and KV (R200 to R205) -/

/-- R201: the local and far parts of a sequence's reservation, in bytes. -/
def reserveOf (im : Image) (maxlen : Nat) : Nat × Nat :=
  let b := ceilDiv maxlen 64
  (roundUp (min b (im.localBlocks + 2) * (im.pagesPerBlock * im.kvPage) + b * (im.pagesPerBlock * 140)) 4096,
   (b - im.localBlocks) * im.pagesPerBlock * im.kvPage)

/-- R352: the far pool's size in bytes. -/
def farPool (x : Ctx) : Nat := (x.kvFar.map fun e => e.2.2).foldl (· + ·) 0

/-- R201: whether a join fits the free pools and a free entry. -/
def joinFits (s : State) (x : Ctx) (q : Seqn) : Bool :=
  kvUsed x + q.locB ≤ x.kvLocal * 0x100000 && kvFarUsed x + q.farB ≤ farPool x
    && (x.seqs.filter fun q => q.st ≥ 3).length < 4096
    && ((s.ctxs.map fun e => (e.2.seqs.filter fun q => q.st ≥ 3).length).foldl (· + ·) 0) < 65536

/-- Insert a leave in the order of arrival; a sequence at MAXLEN comes after those that have arrived (R203). -/
def insertLeave (q : Seqn) : List Seqn → List Seqn
  | [] => [q]
  | v :: t => if (match q.leaveAseq, v.leaveAseq with | some a, some b => decide (a < b) | some _, none => true | none, _ => false) then q :: v :: t else v :: insertLeave q t

/-- Table 9-6, step 1: leaves, in order of arrival, and sequences at MAXLEN. -/
def takeLeaves (s : State) (c : Nat) : State × Nat :=
  let leaves (q : Seqn) : Bool := q.st == 4 || (q.st == 3 && decide (q.maxlen ≤ q.l))
  let gone := ((s.ctx c).seqs.filter leaves).foldr insertLeave []
  let s1 := s.modCtx c fun x => { x with seqs := x.seqs.filter fun q => !leaves q }
  (gone.foldl (fun s q => match q.leaveAseq with | some a => settle s c a dDONE stOK q.l | none => s) s1, gone.length)

/-- Table 9-6, steps 2 and 3: joins in order of arrival, up to the first that does not fit. -/
def takeJoins (c : Nat) : List Seqn → Bool → State → State × Nat
  | [], _, s => (s, 0)
  | q :: rest, ok, s =>
    if ok && joinFits s (s.ctx c) q then
      let (s2, n) := takeJoins c rest true (settle (admitSeq s c q) c q.joinAseq dDONE stOK (((s.ctx c).sweep.map Sweep.step).getD 0))
      (s2, n + 1)
    else if q.st = 2 then
      takeJoins c rest false s
    else
      let s1 := s.modCtx c fun x => { x with
        seqs := modFirst (fun e => e.id == q.id) (fun e => { e with st := 2, status := stNOMEM }) x.seqs, defers := x.defers + 1 }
      takeJoins c rest false (teleCtx s1 c 3 [q.id, stNOMEM, s.now])

/-- R200, R205: the step boundary of a context, and how many joins and leaves it handled. -/
def boundary (s : State) (c : Nat) : State × Nat :=
  let (s1, a) := takeLeaves (switchPages s c) c
  let (s2, b) := takeJoins c ((s1.ctx c).seqs.filter fun q => q.st == 1 || q.st == 2) true s1
  (s2, a + b)

/-! ### The end of units, steps and sweeps -/

/-- The result of a SWEEP_RUN (R354). -/
def sweepResult (w : Sweep) : Nat := w.doneSteps % 2 ^ 32 + w.flags.toNat * 2 ^ 32 + w.rakeFlags % 2 ^ 16 * 2 ^ 48

/-- R353: a drain counts the SWEEP_RUNs that settle under it. -/
def countDrained (s : State) : State :=
  match (s.ctx 0).cmds.find? fun k => k.op == 0x21 && k.started with
  | some k => if s.draining.isSome then modCmd s 0 k.aseq fun k => { k with mark := k.mark + 1 } else s
  | none => s

/-- A sweep ends: it settles, its unstarted units return their packets, its stash slots are free, and the STOP commands
that asked for its end settle (R354). -/
def sweepEnd (s : State) (c disp st : Nat) : State :=
  match (s.ctx c).sweep with
  | none => s
  | some w =>
    let us := s.units.filter fun u => u.ctx == c
    let s1 := us.foldl (fun s u => u.packets.foldl (fun s e => unclaimPkt s e.1 e.2) s) s
    let s2 := { (s1.modCtx c fun x => { x with sweep := none }) with
      units := s1.units.filter (fun u => u.ctx != c), stash := s1.stash.filter (fun t => t.ctx != c)
      schedPhase := if w.serving then s1.schedPhase else 0 }
    let s3 := countDrained (settle s2 c w.aseq disp st (sweepResult w))
    (((s3.ctx c).cmds.filter fun k => k.op == 0x40 && k.started && k.aseq != w.aseq && k.fld 1 1 % 2 == 1).map Cmd.aseq).foldl
      (fun s a => settle s c a dDONE stOK 0) s3

/-- R365: a solo unit enters its descriptor's estimate. -/
def noteSolo (s : State) (u : WUnit) (a stall : Nat) : State :=
  let e := tget {} s.solo u.desc
  if u.soloRun && decide (e.n < 4) then
    { s with solo := tset s.solo u.desc { n := e.n + 1, a := e.a + a, s := e.s + stall, e := e.e + u.energy, maxA := max e.maxA a, maxS := max e.maxS stall } }
  else s

/-- Saturating 8.8 ratio (R381). -/
def ratio88 (a b : Nat) : Nat := if b = 0 then 0xFFFF else min 0xFFFF (a * 256 / b)

/-- R381: SLOWDOWN and QUEUE over the last 100 ms. -/
def refreshSlow (s : State) (c : Nat) : State :=
  s.modCtx c fun x =>
    let l := x.window.filter fun r => s.now < r.at0 + 100000000
    let sum (f : UnitRec → Nat) : Nat := (l.map f).foldl (· + ·) 0
    if l.isEmpty then { x with window := [], unitsWin := 0 }
    else { x with window := l, unitsWin := l.length, slowdown := ratio88 (sum UnitRec.beats) (sum UnitRec.solo), queue := ratio88 (sum UnitRec.queue) (sum UnitRec.run) }

/-- The measurements that a completed unit leaves (R365, R381). -/
def noteUnit (s : State) (u : WUnit) : State :=
  let best := u.tot.foldl (fun (m : Nat × List Nat) e => if m.2.getD 0 0 + m.2.getD 4 0 < e.2.getD 0 0 + e.2.getD 4 0 then e else m) (u.cores.getD 0 0, [])
  let a := best.2.getD 0 0 + best.2.getD 4 0
  let rate := (s.core best.1).rate
  let stall := if rate = 0 then 0 else best.2.getD 1 0 * 10000 / rate
  let run := u.ranNs + (s.now - u.resumedAt)
  let (sa, ss, _) := soloOf s u.desc
  let s1 := s.modCtx u.ctx fun x => { x with window := x.window ++
    [{ at0 := s.now, beats := run * rate / 10000, solo := sa + ss * rate / 10000, queue := s.now - u.tReady, run := run }] }
  refreshSlow (noteSolo s1 u a stall) u.ctx

/-- A serving step ends when no unit of the context is left that was claimed whole. -/
def servingStep (s : State) (c : Nat) : State :=
  match (s.ctx c).sweep with
  | none => s
  | some w =>
    if !w.serving || w.igrDone.isEmpty || s.units.any (fun u => u.ctx == c && u.st != 0 && u.st != 6) || w.phase != 1 then s
    else
      let s1 := (s.modCtx c fun x => { x with steps := x.steps + 1 }).modSweep c fun w =>
        { w with doneSteps := w.doneSteps + 1, step := (w.step + 1) % 2 ^ 32, igrDone := [], phase := if (s.ctx c).deadline then 2 else 1 }
      if w.stop ∨ (w.nsteps ≠ 0 ∧ w.nsteps ≤ w.doneSteps + 1) then sweepEnd s1 c dDONE stOK else s1

/-! ### Chains of the reduce-scatter and the all-gather (R195, R304) -/

/-- The chains of the image that a phase releases. -/
def chainsOf (s : State) (phase : Nat) : List Nat :=
  ((List.range (imageD s).chains.length).zip (imageD s).chains).filterMap fun e => if e.2.phase = phase then some e.1 else none

/-- Whether Dister may release a chain of context `c`: its core is idle and its mover ring done, and the neighbour's data has been
signalled. -/
def chainReady (s : State) (c : Nat) (x : Chain) : Bool :=
  (s.core x.core).mode == .idle && !(s.core x.core).testing && (!(s.core x.core).chained || (s.core x.core).ctx == c)
    && (let r := s.ring x.core x.mover x.ring; r.live.isEmpty && (r.halted || !r.bound || decide (r.released ≤ r.next)))
    && (match x.peg with
        | some (v, k) => (match vpidOk s c v with | some p => decide (k ≤ (s.peg p).value) | none => false)
        | none => true)

/-- Dister releases a chain: it takes the signalled count, binds the ring with RETRY = 3 (R294) and releases the descriptors. The ring runs on
its idle core for the context. -/
def releaseChain (s : State) (c : Nat) (x : Chain) : State :=
  let s1 := match x.peg with
    | some (v, k) => (match vpidOk s c v with | some p => s.setPeg p { s.peg p with value := (s.peg p).value - k } | none => s)
    | none => s
  (s1.modCore x.core fun e => { e with ctx := c }).modRing x.core x.mover x.ring fun _ =>
    { bound := true, dister := true, base := x.base, log2n := x.log2n, retry := 3, released := x.count }

/-- Dister releases what it can of the chains of a context's phase. -/
def releaseChains (s : State) (c : Nat) : State :=
  (s.ctx c).chains.foldl (fun s i =>
    let x := (imageD s).chains.getD i {}
    if chainReady s c x then (releaseChain s c x).modCtx c fun y => { y with chains := y.chains.filter (· != i) } else s) s

/-- R188 to R198: a unit whose cores have all completed: its packets retire, and later work is enabled. -/
def finishUnit (s : State) (u : WUnit) : State :=
  let s0 := chargeUnit s u
  let u := (s0.units.find? fun v => v.id == u.id).getD u
  let x := s0.ctx u.ctx
  let late := x.deadline && (!x.inPeriod || x.tend ≤ s0.now)
  let s1 := noteUnit s0 u
  let s2 := u.packets.foldl (fun s e => match (s.tray e.1).find .claimed e.2 with
    | some p => if late then retirePkt s e.1 p dEXPIRED stEXPIRED else retirePkt s e.1 p dDONE stOK
    | none => s) s1
  let s3 := { s2 with units := s2.units.filter fun v => v.id != u.id }
  let s4 := s3.modSweep u.ctx fun w => { w with flags := w.flags ||| u.flags }
  if u.kind ≥ 4 then
    let s5 := if late then s4.modCtx u.ctx fun x => { x with expired := x.expired + 1 } else advanceRows s4 u
    servingStep (s5.modSweep u.ctx fun w => { w with igrDone := w.igrDone ++ [u.desc] }) u.ctx
  else if u.kind = 1 then s4.modSweep u.ctx fun w => { w with fwdDone := w.fwdDone + 1 }
  else if u.kind = 2 then s4.modSweep u.ctx fun w => { w with igrDone := ninsert w.igrDone u.index }
  else
    let wn := (imageD s).window
    let s5 := { s4 with stash := s4.stash.filter fun t => !(t.ctx == u.ctx && t.step == u.step && t.mb / wn == u.index) }
    let last := (s.ctx u.ctx).sweep.map (fun w => decide (w.m ≤ (u.index + 1) * wn)) == some true
    let s6 := s5.modSweep u.ctx fun w => { w with wgrDone := w.wgrDone + 1, phase := if last then 3 else w.phase }
    if last then s6.modCtx u.ctx fun x => { x with fenceClosed := true, chains := chainsOf s 3 } else s6

/-- A core reports its program complete (R118, R209). -/
def coreDone (s : State) (n : Nat) : State :=
  let s1 := match unitOn s n with
    | some u => (chargeUnit s u).modUnit u.id fun v => { v with coresDone := ninsert v.coresDone n, flags := v.flags ||| (s.core n).run.eng.flags }
    | none => s
  s1.modCore n fun c => { c with mode := .idle }

/-- The units that are complete. -/
def finishUnits (s : State) : State :=
  (s.units.filter fun u => (u.st == 2 || u.st == 3) && !u.cores.isEmpty && u.cores.all u.coresDone.contains).foldl finishUnit s

/-- R353, R437, R442: a sweep that fails or is cancelled ends when none of its units runs; a rake phase in force goes on. -/
def endBroken (s : State) (c : Nat) : State :=
  match (s.ctx c).sweep with
  | none => s
  | some w =>
    if s.units.any (fun u => u.ctx == c && u.st ≥ 2 && u.st ≤ 5) then s
    else match w.failing with
      | some st => sweepEnd s c dFAULTED st
      | none => if w.cancelling then sweepEnd s c dCANCELLED stCANCELLED else s

/-- Whether a serving context stands at a boundary outside its periods' rule: no unit of the step has started. -/
def atBoundary (s : State) (c : Nat) : Bool :=
  let x := s.ctx c
  !x.deadline && (match x.sweep with | some w => w.serving && w.igrDone.isEmpty | none => false)
    && !s.units.any (fun u => u.ctx == c && u.st ≥ 2 && u.st ≤ 5)

/-- Whether a boundary has work: a leave, a sequence at MAXLEN, a join, or a block that has been copied. -/
def boundaryWork (x : Ctx) : Bool := x.seqs.any fun q => q.st == 1 || q.st == 4 || q.st == 2 || (q.st == 3 && q.maxlen ≤ q.l) || q.blocks.any fun b => b.st == 2

/-- R394: a harvest holds back the next rake phase. -/
def holdsPhase (x : Ctx) : Bool := (x.harvest.map Harvest.hold).getD false

/-- The next rake phase of a context whose last window has ended (R216). -/
def beginPhases (s : State) : State :=
  if s.rphase.active then s
  else match (liveCtxs s).find? fun c => match (s.ctx c).sweep with | some w => !w.serving && w.phase == 3 && !holdsPhase (s.ctx c) | none => false with
    | some c => phaseBegin s c
    | none => s

/-- Everything that Dister and the Trellis do of themselves once a command has had its effect. -/
def schedule (s : State) : State :=
  let s1 := beginPhases ((liveCtxs s).foldl endBroken (finishUnits s))
  let s2 := (liveCtxs s1).foldl (fun s c =>
    if !atBoundary s c then s
    else
      let s' := if boundaryWork (s.ctx c) then (boundary s c).1 else s
      if ((s.ctx c).sweep.map Sweep.stop) == some true then sweepEnd s' c dDONE stOK else s') s1
  let s3 := (liveCtxs s2).foldl (fun s c => kvPump (releaseChains s c) c) s2
  trellisDecide (s3.units.length + 1) s3

/-! ### The end of a rake phase (R225, R226, R240) -/

/-- The step record (Table 10-8). -/
def stepRecord (s : State) (p : RakePhase) : List Byte × Nat × Nat :=
  let st := if p.ue ≠ 0 then stUNCORR else if !p.rejected.isEmpty || p.bedmis != 0 then stSTEP else stOK
  let fl := b2n (!p.rejected.isEmpty) + 2 * b2n (p.bedmis != 0) + 4 * b2n (p.nonfinite != 0) + 8 * b2n (p.fallbacks != 0)
    + 16 * b2n (p.ue != 0) + 32 * b2n p.stale + 64 * b2n p.baddesc
  (leBytes 4 p.step ++ leBytes 2 st ++ leBytes 2 fl ++ leBytes 4 p.applied ++ leBytes 4 p.dups ++ leBytes 4 p.rejected.length
    ++ leBytes 2 ((p.rejected.head?).getD 0xFFFF) ++ leBytes 2 0 ++ leBytes 4 p.bedmis ++ leBytes 4 p.nonfinite ++ leBytes 4 p.refreshes
    ++ leBytes 4 p.fallbacks ++ leBytes 8 p.at0 ++ leBytes 8 s.now ++ leBytes 8 0, st, fl)

/-- R225: COUNT of every enabled, unfrozen group that was not rejected. -/
def bumpCounts (s : State) (p : RakePhase) : State :=
  ((enabledGroups s).filter fun g => !groupFrozen s g && !p.rejected.contains g).foldl (fun s g =>
    writeLE s (groupAt s g + 8) 4 ((expected (groupRec s g) p.step + 1) % 2 ^ 32)) s

/-- R225, step 1: the blocks are handled: the COUNTs are set, once. -/
def countPhase (s : State) : State :=
  if s.rphase.counted then s else let s1 := bumpCounts s s.rphase; { s1 with rphase := { s1.rphase with counted := true } }

/-- R225, step 2: whether a refresh is still to run; a halted rake runs none. -/
def refreshLeft (s : State) : Bool := (List.range 8).any fun r => !(s.rake r).refresh.isEmpty && !(s.rake r).halted

/-- R225, step 3: the phase in force ends: its record, and the step's completion. -/
def phaseEnd (s : State) : State :=
  let p := s.rphase
  let c := p.ctx
  let s1 := s
  let (rec', st, fl) := stepRecord s1 p
  let s2 := { s1 with rphase := { p with active := false, counted := false, stale := false, baddesc := false }, lastPhase := some (c, p.step), lastRec := rec', schedPhase := 4
                      rakes := s1.rakes.map fun (e : Nat × Rake) => (e.1, { e.2 with gram := [], refresh := [] }) }
  let s3 := (if p.tele = 0 then s2 else deviceCommit s2 p.tele rec').modCtx c fun x => { x with chains := x.chains ++ chainsOf s 4 }
  match (s2.ctx c).sweep with
  | none => s3.modCtx c fun x => { x with lastStep := some p.step, steps := x.steps + 1 }
  | some w =>
    let s4 := (s3.modSweep c fun w => { w with
      doneSteps := w.doneSteps + 1, step := (w.step + 1) % 2 ^ 32, worst := worse w.worst st, rakeFlags := w.rakeFlags ||| fl
      fwdDone := 0, igrDone := [], wgrDone := 0, phase := 1 }).modCtx c fun x => { x with lastStep := some p.step, steps := x.steps + 1 }
    if w.stop ∨ w.nsteps ≤ w.doneSteps + 1 then sweepEnd s4 c dDONE (worse w.worst st) else s4

/-- Whether every expected block has been handled (R225). -/
def phaseDone (s : State) : Bool := s.rphase.active && (s.rphase.counted || s.rphase.want.all s.rphase.resolved.contains)

end Sys2Proof.Machine
end

