-- ==== Sys2Proof/Machine/Slices.lean ====
section
/-! DEFINITION. Pre-emption, save and resume (R131 to R136), deadline periods (R208 to R211), commitments (R380) and the
change of the plot configuration (R191). -/

namespace Sys2Proof.Machine

/-! ### Pre-emption (R131 to R133, R372) -/

/-- Whether a peg request is a signal, arrival or preset in flight (R131, step 7). -/
def PegOp.inFlight : PegOp → Bool
  | .signal _ => true
  | .arrive _ _ => true
  | .preset _ => true
  | _ => false

/-- R131, steps 4 to 7: no word of units 1, 3, 4, 6 and 7 is in progress, and nothing of the movers and the peg unit is outstanding. -/
def atRest (s : State) (n : Nat) : Bool :=
  !(s.core n).run.q.any (fun e => [1, 3, 4, 6, 7].contains e.unit && e.gate.isNone && e.done && !e.fin)
    && moverOut s n 0 == 0 && moverOut s n 1 == 0 && !s.pegReqs.any (fun r => r.core == n && r.op.inFlight)

/-- R131, steps 7 to 9: core `n` reaches its pre-emption point and its save starts. -/
def preemptionPoint (s : State) (n : Nat) (nonpre : Bool) : State :=
  let c := s.core n
  if c.mode ≠ .stopping ∨ !atRest s n then s
  else
    let d := s.now - c.reqAt.getD s.now
    let late := min 48000 (d - 2000)
    let s1 := dropWait { s with pegReqs := s.pegReqs.filter fun r => r.core != n } (.core n)
    let lp := !(s.spReserve && !c.resFull)
    let s2 := (if lp then joinMove s1 n else s1).modCore n fun c => { c with
      mode := .saving, stopNs := d, nonpre := nonpre, pointAt := s.now, reqAt := none, saveTarget := lp }
    -- R372: the overrun of a plot is charged once, at its last core
    match unitOn s n with
    | some u =>
      let prior := (u.cores.filter fun k => k != n && (s.core k).mode == .saving).map fun k => min 48000 ((s.core k).stopNs - 2000)
      let extra := late - prior.foldl max 0
      if isDeadline s u then s2 else s2.modCtx u.ctx fun x => { x with carry := x.carry + extra, overTotal := x.overTotal + extra }
    | none => s2

/-- A saved unit is ready again from its pre-emption point (R366, R367). -/
def unitSaved (s : State) (n : Nat) : State :=
  match s.units.find? fun u => u.st == 3 && u.cores.contains n with
  | none => s
  | some u =>
    if u.cores.any fun k => (s.core k).busy && (s.core k).ctx == u.ctx then s
    else s.modUnit u.id fun v => { v with st := 4, ranNs := v.ranNs + ((s.core n).pointAt - v.resumedAt), tReady := (s.core n).pointAt }

/-- R136: an uncorrectable error of a save or a restore tears the context of core `n` down. -/
def moveFault (s : State) (n addr : Nat) : State :=
  (tearDown s (s.core n).ctx stUNCORR none { source := 1, index := n, addr := addr }).modFaults fun f => { f with ueNew := true }

/-- R131, steps 9 and 10; R133, R134, R136. -/
def saveComplete (s : State) (n : Nat) : State :=
  let c := s.core n
  if c.mode ≠ .saving ∨ !moves s n then s
  else if runBad c.run then moveFault s n 0
  else
    let s0 := match unitOn s n with | some u => chargeUnit s u | none => s
    let id := ((unitOn s n).map WUnit.id).getD 0
    let v : Saved := { ctx := c.ctx, core := n, inReserve := !c.saveTarget, plotsz := s.plotsz, at0 := c.pointAt, unit := id, run := c.run }
    let s1 := leaveMove (writeSlot { s0 with saved := s0.saved ++ [v] } v) n
    let clean (m : Mover) : Mover := { m with rings := [{}, {}, {}, {}] }
    let s2 := s1.modCore n fun c => { c with
      mode := .idle, saveNs := s.now - c.pointAt, resFull := c.resFull || !c.saveTarget, resCtx := if c.saveTarget then c.resCtx else c.ctx
      run := { c.run.stop with mov0 := clean c.run.mov0, mov1 := clean c.run.mov1 } }
    unitSaved s2 n

/-! ### Resume (R135, R136) -/

/-- RESUME_CONTEXT: a saved unit whose cores are free starts its restore, under the configuration it was saved in. -/
def resumeContext (s : State) (id : Nat) : State :=
  match s.units.find? fun u => u.id == id && u.st == 4 with
  | none => s
  | some u =>
    let vs := s.saved.filter fun v => v.unit == id
    if vs.isEmpty ∨ vs.any (fun v => v.plotsz != s.plotsz) ∨ !u.cores.all (coreFree s [] u.ctx) then s
    else
      (vs.foldl (fun s v => (if v.inReserve then s else joinMove s v.core).modCore v.core fun c => { c with mode := .restoring, ctx := u.ctx })
        (unsolo s u.ctx)).modUnit id fun v =>
        { v with st := 5 }

/-- R131, step 7: the waits that a restored peg unit registers again. -/
def rewait (s : State) (n : Nat) : State :=
  let r := (s.core n).run
  match r.peg.state, r.q.find? (fun e => e.unit == 10 && e.gate.isNone && !e.done) with
  | 0, _ => s
  | 4, _ => s
  | _, none => s
  | k, some e =>
    let c := (s.core n).ctx
    let op : PegOp := if k = 1 then .wait (wf e.word 32 32) (wf e.word 20 1 == 1) else if k = 2 then .slotWait 4 else .slotWait (wf e.word 20 2)
    { s with pegReqs := s.pegReqs ++ [{ core := n, ctx := c, vpid := r.peg.vpid, phys := (vpidPhys s c r.peg.vpid).getD 0, op := op }] }

/-- What a restore puts back: the saved state, beside the registers of the core that Tables 6-13 and 6-14 leave out. -/
def Run.restored (now saved : Run) : Run :=
  let mover (a b : Mover) : Mover :=
    { b with bytes := a.bytes, retries := a.retries, nocredit := a.nocredit, halts := a.halts, haltCause := a.haltCause, haltIndex := a.haltIndex, haltRing := a.haltRing }
  { saved with
    eng := { saved.eng with ctr := (now.eng.ctr.filter fun e => !savedCounters.contains e.1).foldl (fun t e => tput 0 t e.1 e.2) (saved.eng.ctr.filter fun e => savedCounters.contains e.1) }
    mov0 := mover now.mov0 saved.mov0, mov1 := mover now.mov1 saved.mov1
    peg := { saved.peg with refStatus := now.peg.refStatus, refNode := now.peg.refNode, refVpid := now.peg.refVpid } }

/-- SAVED_STATE_RESTORED: core `n` continues from its pre-emption point, or takes the request it held (R136). -/
def stateRestored (s : State) (n : Nat) : State :=
  let c := s.core n
  match s.saved.find? fun v => v.core == n && v.ctx == c.ctx && (unitOn s n).any (fun u => u.id == v.unit) with
  | none => s
  | some v =>
    if c.mode ≠ .restoring ∨ !moves s n then s
    else if slotBad s v then moveFault (noteBad s (slotAt s v) slotBytes) n (slotAt s v)
    else
      let s1 := leaveMove { (noteRead s (slotAt s v) slotBytes) with saved := s.saved.filter fun w => !(w.core == n && w.unit == v.unit) } n
      let s2 := s1.modCore n fun c => { c with
        mode := .running, run := c.run.restored v.run, reqHeld := false
        resFull := if v.inReserve then false else c.resFull, resCtx := if v.inReserve then 0 else c.resCtx }
      let s3 := (rewait s2 n).modUnit v.unit fun u => { u with ctr0 := (u.ctr0.filter fun e => e.1 != n) ++ [(n, curCtr s2 n)] }
      let s4 := if c.reqHeld then s3.modCore n fun c => { c with mode := .stopping, reqAt := some s.now } else s3
      match s4.units.find? fun u => u.id == v.unit with
      | none => s4
      | some u =>
        if u.cores.any fun k => (s4.core k).mode == .restoring then s4
        else
          let held := u.cores.any fun k => (s4.core k).mode == .stopping
          let s5 := startSlice (s4.modUnit u.id fun w => { w with st := 2, resumedAt := s.now }) u.id u.ctx
          if held then requestStop s5 { u with st := 2 } else s5

/-! ### Beat rates (R17) and commitments (R380) -/

/-- Table 1-5 in hundredths of a Gbeat/s, rows from 850 mV down by 50 mV, columns from 25 °C by 20 °C. -/
def rateTable : List (List Nat) :=
  [[208, 202, 196, 190, 183], [184, 179, 175, 170, 164], [167, 162, 156, 150, 144], [145, 142, 138, 135, 131],
   [123, 121, 120, 118, 116], [94, 95, 96, 96, 95], [66, 68, 70, 72, 73]]

/-- R17: the rate at a voltage in mV and a temperature in 0.1 °C, in Gbeat/s × 1,000,000, by bilinear interpolation. -/
def beatRate (mv : Nat) (t : Int) : Nat :=
  let tc := (max 250 (min 1050 t)).toNat - 250
  let v := max 550 (min 850 mv)
  let i := (850 - v) / 50
  let dv := (850 - v) % 50
  let j := tc / 200
  let dt := tc % 200
  let g (a b : Nat) : Nat := (rateTable.getD (min a 6) []).getD (min b 4) 0
  (g i j * (50 - dv) + g (i + 1) j * dv) * (200 - dt) + (g i (j + 1) * (50 - dv) + g (i + 1) (j + 1) * dv) * dt

/-- R380: the lowest multiple of 5 mV at which `a` beats fit in `ns`, from `mv` up. -/
def commitSearch (a ns : Nat) (t : Int) : Nat → Nat → Option Nat
  | 0, _ => none
  | fuel + 1, mv => if beatRate (mv - 15) t * ns ≥ a * 1000000 ∧ 0 < ns then some mv else commitSearch a ns t fuel (mv + 5)

/-- R376: the ceiling. -/
def ceiling (s : State) : Nat :=
  let c := min s.trellis.vceil ((s.image.map Image.vmax).getD 850)
  if s.trellis.avserr || s.trellis.curFail then min 750 c else c

/-- R365, R380: A and S of a context's serving-step unit: the larger solo maximum of its descriptors. -/
def stepMax (s : State) (c : Nat) : Nat × Nat :=
  match (s.ctx c).sweep with
  | none => (0, 0)
  | some w =>
    let m (d : Nat) : Nat × Nat := let e := tget {} s.solo d
      if e.n < 4 then (((descOf s d).map SweepDesc.beats).getD 0, 0) else (e.maxA, e.maxS)
    let a := m w.fwd
    let b := m w.igr
    if a.1 + a.2 < b.1 + b.2 then b else a

/-- R380: the commitment of a context for `tav` ns; it is never lowered within a period. -/
def commit (s : State) (c tav : Nat) (fresh : Bool) : State :=
  let (a, st) := stepMax s c
  let t := hottest s (List.range 128) + 50
  let top := ceiling s
  let x := s.ctx c
  let want := if a = 0 then some 565 else commitSearch a (tav - st) t 58 565
  let (v, late) := match want with
    | some v => if top < v then (top, true) else (v, false)
    | none => (top, true)
  let v' := if fresh then v else max v x.vcommit
  s.modCtx c fun x => { x with
    vcommit := v', overcommit := if fresh then late else x.overcommit || late, broken := if fresh then false else x.broken
    rateC := beatRate (s.trellis.vplan.getD v' - 15) t / 100 }

/-- R380: the time of a period that serving units have, after `n` joins and leaves. -/
def availNs (x : Ctx) (n : Nat) : Nat := x.period - 60000 - 2000 * n

/-! ### The plot configuration (R191) -/

/-- Whether a multicast stream is active: a mover 0 that streams on a running core. -/
def streaming (s : State) : Bool :=
  s.cores.any fun e => e.2.mode == .running && e.2.run.mov0.rings.any fun r => r.live.any Desc.streaming

/-- R191: the change completes at an instant that meets its conditions. -/
def plotReconfig (s : State) : State :=
  if s.plotWait && !streaming s && s.saved.all (fun v => v.plotsz == s.plotNext) && !s.ctxs.any (fun e => e.2.live && e.2.deadline && e.2.inPeriod)
      && s.units.all (fun u => !(u.st == 2 || u.st == 3 || u.st == 5) || (unitDesc s u).plotsz == 0xFF) then
    { s with plotsz := s.plotNext, plotWait := false, reconf := s.reconf + 1 }
  else s

/-! ### Periods (R208, R210) -/

/-- The boundary and the commitment of a period, which starts. -/
def beginPeriod (s : State) (c : Nat) : State :=
  let s1 := (s.modCtx c fun x => { x with inPeriod := true, gapWait := false }).modSweep c fun w => { w with phase := if w.serving then 1 else w.phase, igrDone := [] }
  let stop := ((s1.ctx c).sweep.map fun w => w.serving && w.stop) == some true
  let (s2, n) := boundary s1 c
  let s3 := if stop then sweepEnd s2 c dDONE stOK else s2
  if (s3.ctx c).sweep.isSome then
    commit (s3.modCtx c fun x => { x with tav := availNs x n }) c (availNs (s3.ctx c) n) true
  else s3

/-- PERIOD_START: the first period of a deadline context begins at PSTART, or the one in progress. -/
def periodStart (s : State) (c : Nat) : State :=
  let x := s.ctx c
  if !x.live || x.faulted || !x.deadline || x.inPeriod || x.period == 0 then s
  else
    let s1 := reach s x.pstart
    let k := (s1.now - x.pstart) / x.period
    beginPeriod (s1.modCtx c fun x => { x with periodNo := k, tend := x.pstart + (k + 1) * x.period }) c

/-- R209, R211: a unit that has started and not completed, or that a fence abandoned and that has not started again. -/
def WUnit.expires (u : WUnit) : Bool := (u.st ≥ 2 && u.st ≤ 5) || u.replay

/-- R210: a packet in a tray that does not reset for the period outlives it. -/
def outlives (s : State) (e : Nat × Nat) : Bool := !(s.tray e.1).periodic

/-- R209: the packets of an expired unit that no period reset takes retire EXPIRED. -/
def expirePackets (s : State) (u : WUnit) : State :=
  (u.packets.filter (outlives s)).foldl (fun s e => match (s.tray e.1).packets.find? fun p => (p.st == .ready || p.st == .claimed) && p.seq == e.2 with
    | some p => retirePkt s e.1 p dEXPIRED stEXPIRED
    | none => s) s

/-- Table 9-8, step 1: the started units of a context stop without a save and expire; their number. A unit that has not started
stays where its packets stay. -/
def stopUnits (s : State) (c : Nat) : State × Nat :=
  let us := s.units.filter fun u => u.ctx == c && u.expires
  let s1 := us.foldl (fun s u => stopUnit (chargeUnit s u) u) s
  let s2 := us.foldl expirePackets (dropSaved s1 fun v => us.any fun u => u.id == v.unit)
  ({ s2 with units := s2.units.filter fun u => u.ctx != c || (!u.expires && !u.packets.isEmpty && u.packets.all (outlives s)) }, us.length)

/-- Table 9-8, step 2: the commands of the period. -/
def expireCmds (s : State) (c : Nat) : State :=
  ((s.ctx c).cmds.filter fun k => k.period.isSome && (!k.started || k.op == 0x62)).foldl (fun s k =>
    settle (dropWait s (.host c k.aseq)) c k.aseq dEXPIRED stEXPIRED 0) s

/-- R261: the PERIODIC pegs of a context. -/
def restorePegs (s : State) (c : Nat) : State :=
  ((ownedPegs s c).filter fun p => (s.peg p).periodic).foldl (fun s p => releasePeg s p (s.peg p).resetTo) s

/-- R191: while the Trellis waits for another plot configuration, whether a further deadline context's period has ended and its PERIOD_END
has not come. -/
def gapOpen (s : State) : Bool :=
  s.plotWait && s.ctxs.any fun e => e.2.live && e.2.deadline && !e.2.faulted && e.2.inPeriod && decide (e.2.tend ≤ s.now)

/-- R191, R210: the gap between periods: once no period that has ended is left, the change of configuration comes where it waits, and the
next periods begin. -/
def openGap (s : State) : State :=
  if gapOpen s then s
  else
    match (liveCtxs s).filter fun c => (s.ctx c).gapWait with
    | [] => s
    | l => l.foldl beginPeriod (plotReconfig s)

/-- PERIOD_END: Table 9-8. -/
def periodEnd (s : State) (c : Nat) : State :=
  let x := s.ctx c
  if !x.live || x.faulted || !x.deadline || !x.inPeriod then s
  else
    let s0 := reach s x.tend
    let started := s0.units.any (fun u => u.ctx == c && u.st ≥ 2 && u.st ≤ 5) || (x.sweep.map fun w => !w.igrDone.isEmpty && w.phase == 1) == some true
    let (s1, n) := stopUnits s0 c
    let s2 := expireCmds s1 c
    let s3 := ((workTrays s2 c).filter fun t => (s2.tray t).periodic).foldl (fun s t => periodReset s t fun _ => true) s2
    let s4 := (restorePegs s3 c).modCtx c fun x => { x with
      expired := x.expired + n, periodNo := (x.periodNo + 1) % 2 ^ 32, tend := x.tend + x.period, inPeriod := false, vcommit := 0, rateC := 0
      overcommit := false, broken := false, gapWait := true }
    let s5 := s4.modSweep c fun w => if started then { w with step := (w.step + 1) % 2 ^ 32 } else w
    openGap s5

end Sys2Proof.Machine
end

