-- ==== Sys2Proof/Machine/CmdCtx.lean ====
section
/-! DEFINITION. Commands on sessions, contexts, the stage and trays (R337, R344 to R354): the checks of a header and what each
command does when it starts. -/

namespace Sys2Proof.Machine

/-! ### Table 14-7 -/

/-- The opcodes of Table 14-7. -/
def knownOps : List Nat :=
  [0x01, 0x02, 0x10, 0x11, 0x12, 0x20, 0x21, 0x30, 0x31, 0x40, 0x41, 0x42, 0x50, 0x51, 0x60, 0x61, 0x62, 0x63, 0x70, 0x71, 0x72,
   0x80, 0x81, 0x90, 0xA0, 0xB0, 0xC0]

/-- Class C of Table 14-7. -/
def isConcurrent (op : Nat) : Bool := [0x21, 0x40, 0x41, 0x42, 0x62, 0x80, 0x81, 0xA0].contains op

/-- The Ring column: 0 context 0 only, 1 context 0 acting on TARGET, 2 a context's own ring, 3 either of the last two. -/
def ringRule (op : Nat) : Nat :=
  if op = 0x11 ∨ op = 0x12 then 1 else if op = 0x63 then 3
  else if [0x30, 0x31, 0x40, 0x41, 0x42, 0x60, 0x61, 0x62, 0x70, 0x71, 0x80, 0x81].contains op then 2 else 0

/-- Sections that a CTX_CONFIG mask names. -/
def configSections (par : List Byte) : List Nat := (List.range 7).filter fun i => bitsAt (leNat (par.take 1)) i 1 == 1

/-- The NPARAM that Table 14-7 requires. -/
def nparamOf (op : Nat) (par : List Byte) : Nat :=
  match op with
  | 0x02 => 0
  | 0x11 => 0
  | 0x12 => 1 + (configSections par).length + b2n ((configSections par).contains 3)
  | 0x30 => 1 + ceilDiv (leNat ((par.drop 6).take 1)) 4
  | 0x40 => 2
  | 0x50 => 3
  | _ => 1

/-- R337, check 2, Table 14-5: the version that a command, its flags and its sections need. -/
def needVersion (k : Cmd) : Nat :=
  let base := match k.op with
    | 0x50 => 0x200
    | 0x51 => 0x200
    | 0x72 => 0x200
    | 0xC0 => 0x200
    | 0x63 => 0x201
    | 0x41 => 0x300
    | 0x42 => 0x300
    | 0x40 => if k.fld 0 1 = 1 then 0x300 else 0x100
    | 0x12 =>
      let l := configSections k.par
      if l.contains 1 then 0x301
      else if l.any (fun i => i == 2 || i == 4 || i == 5) || (l.contains 0 && bitsAt (k.fld 0x42 1) 0 1 == 1) then 0x300
      else if l.contains 6 then 0x202 else 0x100
    | 0x60 => if k.fld 0 1 = 0 ∧ (k.fld 1 1 = 2 ∨ k.fld 1 1 = 3) then 0x301 else 0x100
    | 0x81 => if bitsAt (k.fld 0x0A 1) 0 1 = 1 then 0x302 else 0x100
    | 0xA0 => if bitsAt (k.fld 4 1) 0 1 = 1 then 0x302 else 0x100
    | 0x21 => if k.fld 0 1 = 1 then 0x302 else 0x100
    | _ => 0x100
  if bitsAt k.hdr.flags 2 1 = 1 then max base 0x300 else base

/-- R337, checks 1 to 5. -/
def headerStatus (s : State) (c : Nat) (k : Cmd) : Nat :=
  let h := k.hdr
  let rule := ringRule k.op
  if h.rsvd || decide (7 < h.flags) || decide (4095 < h.target) || h.haddr % 64 != 0 || (h.haddr == 0 && h.hlen != 0)
      || (h.target != 0 && !(rule == 1 || (rule == 3 && c == 0))) then stBADPARAM
  else if !knownOps.contains k.op then stBADOP
  else if s.sess.opened && decide (s.sess.version < needVersion k) then stVERSION
  else if (c = 0 ∧ rule = 2) ∨ (c ≠ 0 ∧ rule < 2) then stNOTPERM
  else if h.nparam ≠ nparamOf k.op k.par then stBADPARAM
  else if (!s.sess.opened && k.op != 1) || (s.ctx c).faulted then stWRONG
  else stOK

/-- R14: whether a byte of the parameters outside the listed fields is non-zero. -/
def parRsvd (k : Cmd) (fields : List (Nat × Nat)) : Bool :=
  ((List.range k.par.length).zip k.par).any fun e => e.2 != 0 && !fields.any fun f => f.1 ≤ e.1 && decide (e.1 < f.1 + f.2)

/-- R360: the PERIOD flag where the ring's context has no deadline, or on a command that never carries it. -/
def periodBad (x : Ctx) (k : Cmd) : Bool :=
  bitsAt k.hdr.flags 2 1 == 1 && (!x.deadline || k.op == 0x40 || k.op == 0x41 || k.op == 0x42)

/-! ### Memory of contexts (R162, R351) -/

/-- Bytes of save areas of a context. -/
def saveBytes (x : Ctx) : Nat := x.cores.length * 2432 * 1024

/-- R193: the stash region: STASH_SLOTS of the largest forward descriptor's STASH bytes. -/
def stashBytes (im : Image) : Nat := im.stashSlots * ((im.sweeps.filter fun d => d.kind == 1).map SweepDesc.stash).foldl max 0

/-- R30, R162: the items of Table 7-15 that an image's regions give, each region rounded up to 256 B; the local KV pages stand apart. -/
def imageBytes (im : Image) : Nat :=
  (((im.beds.map (·.2)) ++ [im.wgrad.2, (im.heads.map fun h => roundUp h 64).foldl (· + ·) 0, stashBytes im, im.heapBytes]).map fun n =>
    roundUp n 256).foldl (· + ·) 0

/-- R351: the bytes of the stage heap that a context has for itself alone: its save areas, its local KV pool and, while it runs the image, the
buffers that the image declares for each context that does. -/
def ctxHeap (s : State) (x : Ctx) (runs : Bool) : Nat :=
  saveBytes x + x.kvLocal * 0x100000 + (if runs then ((s.image.map Image.ctxBytes).getD 0) else 0)

/-- Bytes of the stage heap in use: the image's regions, the contexts' save areas and buffers, and the local KV pages, which are what the
image declares or, where that is more, the contexts' pools (DESIGN CHOICE, log 87). -/
def heapUsed (s : State) : Nat :=
  let sum (f : Ctx → Nat) : Nat := ((s.ctxs.filter fun e => e.2.live && e.1 != 0).map fun e => f e.2).foldl (· + ·) 0
  let im := s.image.getD { stashSlots := 0 }
  imageBytes im + sum saveBytes + sum (fun x => if x.sweep.isSome then roundUp im.ctxBytes 256 else 0) + roundUp (max im.kvBytes (sum fun x => x.kvLocal * 0x100000)) 256

def heapSize (s : State) : Nat := hdmStart s - heapStart s

/-! ### Destroying a context (R350) -/

/-- Release a tray; its counters stay until it is configured again (R186). -/
def releaseTray (s : State) (n : Nat) : State :=
  let t := s.tray n
  (releaseReaders s n).setTray n { commits := t.commits, lost := t.lost, rewound := t.rewound, nocredit := t.nocredit }

/-- R350, steps 1 to 3. -/
def destroyCtx (s : State) (t : Nat) : State :=
  let s1 := settleAll (stopContext s t stPROGFAULT) t dCANCELLED stCANCELLED
  let s2 := ((s1.trays.filter fun e => e.2.ctx == t && decide (64 ≤ e.1)).map (·.1)).foldl releaseTray s1
  let vs := (s2.ctx t).vpids.map (·.1)
  let s3 := pegSwap (freePegs s2 t vs) t vs
  { s3.setCtx t {} with
    affinity := s3.affinity.filter fun (e : Nat × Nat × Nat × Nat) => e.1 != t }

/-- Contexts other than 0, in ascending order. -/
def otherCtxs (s : State) : List Nat := (liveCtxs s).filter (· ≠ 0)

/-! ### Sessions (R344 to R347) -/

/-- Table 14-5. -/
def versions : List Nat := [0x100, 0x101, 0x102, 0x103, 0x200, 0x201, 0x202, 0x300, 0x301, 0x302]

/-- SESSION_OPEN. It locks the console, where a test from an unlocked console runs only when that test ends (R478). -/
def startSessionOpen (s : State) (c : Nat) (k : Cmd) : State :=
  let lo := k.fld 0 2
  let hi := k.fld 2 2
  let fl := k.fld 4 1
  match (versions.filter fun v => lo ≤ v && v ≤ hi).getLast? with
  | none => if parRsvd k [(0, 5)] || decide (3 < fl) || decide (hi < lo) then refuse s c k.aseq stBADPARAM else refuse s c k.aseq stVERSION
  | some v =>
    if parRsvd k [(0, 5)] || decide (3 < fl) || decide (hi < lo) then refuse s c k.aseq stBADPARAM
    else if fl ≠ 0 ∧ v < 0x202 then refuse s c k.aseq stVERSION
    else if s.sess.opened && fl % 2 == 0 then refuse s c k.aseq stBUSY
    else
      let adopt := bitsAt fl 1 1 == 1
      let l := otherCtxs s
      let s1 := if adopt then l.foldl (fun s t => s.modCtx t fun x => { x with orphan := false, fresh := true }) s else l.foldl destroyCtx s
      let held := !s.svc.locked && s.svc.running.any Test.console
      let s2 := { (s1.modFaults fun f => { f with hostlost := false }) with
        sess := { s1.sess with opened := true, version := v, number := s1.sess.number + 1 }
        svc := { s1.svc with locked := !held, lockAfter := held } }
      settle s2 c k.aseq dDONE stOK (v + (if adopt then l.length else 0) * 2 ^ 16)

/-- SESSION_CLOSE settles last of the session's commands on context 0: once no earlier one runs (R346). -/
def closeSession (s : State) : State :=
  match (s.ctx 0).cmds with
  | k :: _ => if k.op = 0x02 ∧ k.started then { settle s 0 k.aseq dDONE stOK k.mark with sess := { s.sess with opened := false, version := 0 } } else s
  | [] => s

/-- SESSION_CLOSE: every context is destroyed, in ascending order. -/
def startSessionClose (s : State) (c : Nat) (k : Cmd) : State :=
  let l := otherCtxs s
  closeSession (modCmd (l.foldl destroyCtx s) c k.aseq fun k => { k with mark := l.length })

/-! ### Contexts (R350 to R352, R364) -/

/-- The set bits of a mask, of `n` bits. -/
def maskBits (n x : Nat) : List Nat := (List.range n).filter fun i => bitsAt x i 1 == 1

/-- CTX_CREATE. -/
def startCtxCreate (s : State) (c : Nat) (k : Cmd) : State :=
  let want := k.fld 0 2
  let cores := maskBits 128 (k.fld 0x10 16)
  let x : Ctx := { live := true, prio := k.fld 2 1, cls := k.fld 3 1, pegQuota := k.fld 4 2, vector := k.fld 6 2, memQuota := k.fld 8 4
                   cores := cores, cmdBase := k.fld 0x20 8, cmdLog2 := k.fld 0x28 1, cmplLog2 := k.fld 0x29 1, cmplBase := k.fld 0x30 8 }
  let bad := parRsvd k [(0, 12), (0x10, 26), (0x30, 8)] || decide (4095 < want) || (want != 0 && (s.ctx want).live)
    || decide (7 < x.prio) || decide (15 < x.cls) || decide (4096 < x.pegQuota) || x.vector == 0 || decide (2047 < x.vector)
    || cores.isEmpty || decide (x.memQuota * 1024 < 2432 * cores.length) || x.cmdBase % 4096 != 0 || x.cmplBase % 4096 != 0
    || decide (x.cmdLog2 < 6) || decide (16 < x.cmdLog2) || decide (x.cmplLog2 < 6) || decide (16 < x.cmplLog2)
  if bad then refuse s c k.aseq stBADPARAM
  else
    let num := if want ≠ 0 then some want else (countFrom 1 4095).find? fun i => !(s.ctx i).live
    match num with
    | none => refuse s c k.aseq stNOCTX
    | some n =>
      let slots := slotsFor s x.cls cores.length
      if (s.image.isSome && decide (heapSize s < heapUsed s + saveBytes x)) || decide (slots.length < cores.length) then refuse s c k.aseq stNOMEM
      else settle (s.setCtx n { x with slots := slots }) c k.aseq dDONE stOK n

/-- CTX_DESTROY. -/
def startCtxDestroy (s : State) (c : Nat) (k : Cmd) : State :=
  let t := k.hdr.target
  if t = 0 ∨ !(s.ctx t).live then refuse s c k.aseq stBADPARAM
  else settle (destroyCtx s t) c k.aseq dDONE stOK 0

/-- The byte offset of a section's slot in the parameters of a CTX_CONFIG. -/
def sectionAt (par : List Byte) (i : Nat) : Nat :=
  64 * (1 + ((configSections par).filter (· < i)).length + b2n ((configSections par).contains 3 && decide (3 < i)))

/-- R349: extended data of a context's command: its bytes, or the status that settles it. -/
def readExt (s : State) (c : Nat) (a n : Nat) : Except Nat (List Byte) :=
  if !inRegion (s.ctx c) a n false then .error stWINDOW
  else if !s.cxl.up then .error stLINK
  else if (spanLines 64 a n).any s.hostPoison.contains then .error stUNCORR
  else .ok (readHost s a n)

/-- A region or grant: base with READ and WRITE, and size. -/
def regionOf (b n : Nat) : Region := { base := b / 4096 * 4096, size := n, read := bitsAt b 0 1 == 1, write := bitsAt b 1 1 == 1 }
def regionBad (b n : Nat) : Bool := bitsAt b 2 10 != 0 || n % 4096 != 0

/-- Bytes that one section of a CTX_CONFIG leaves reserved. -/
def sectionFields : Nat → List (Nat × Nat)
  | 0 => [(0, 3), (4, 12)]
  | 1 => [(0, 11), (0x10, 8)]
  | 2 => [(0, 9), (0x10, 9)]
  | 3 => [(0, 128)]
  | 4 => [(0, 64)]
  | 5 => [(0, 6)]
  | _ => [(0, 12), (0x10, 8)]

/-- The target's configuration after a CTX_CONFIG, or the status that refuses it. -/
def configured (s : State) (t : Nat) (k : Cmd) (far : List Byte) : Except Nat Ctx :=
  let x := s.ctx t
  let l := configSections k.par
  let f (i off n : Nat) : Nat := k.fld (sectionAt k.par i + off) n
  let has (i : Nat) : Bool := l.contains i
  let dl := bitsAt (f 0 2 1) 0 1 == 1
  let regs : Tab Region := (List.range 8).filterMap fun n => let z := f 3 (16 * n + 8) 8; if z = 0 then none else some (n, regionOf (f 3 (16 * n) 8) z)
  let grants : Tab Region := (List.range 4).filterMap fun n => let z := f 4 (16 * n + 8) 8; if z = 0 then none else some (n, regionOf (f 4 (16 * n) 8) z)
  let farN := f 5 4 2
  let ranges := (List.range farN).map fun i => (leNat ((far.drop (16 * i)).take 8), leNat ((far.drop (16 * i + 12)).take 2), leNat ((far.drop (16 * i + 8)).take 4) * 0x100000)
  let moved := has 0 && (partitioned s x.cls || partitioned s (f 0 1 1)) && x.cls != f 0 1 1
  let cls := if has 0 then f 0 1 1 else x.cls
  let slots := if moved then slotsFor (s.modCtx t fun x => { x with slots := [] }) cls x.cores.length else x.slots
  let placed := kvPlace (s.modCtx t fun x => { x with cls := cls, slots := slots, kvLocal := f 5 0 4 }) t
  let place := placed.getD (0, [])
  let bad :=
    k.fld 0 1 ≥ 128 || parRsvd k ((0, 1) :: l.flatMap fun i => (sectionFields i).map fun e => (sectionAt k.par i + e.1, e.2))
    || (t == 0 && l.any fun i => i != 2 && i != 3)
    || (has 0 && (decide (7 < f 0 0 1) || decide (15 < f 0 1 1) || decide (1 < f 0 2 1)
          || (dl && (decide (f 0 4 4 < 1000) || decide (10000000 < f 0 4 4))) || (!dl && f 0 4 4 != 0)))
    || (has 1 && (f 1 0 8 % 4096 != 0 || decide (4096 < f 1 8 2) || decide (f 1 10 1 < 4) || decide (16 < f 1 10 1) || f 1 16 8 % 64 != 0))
    || (has 2 && (f 2 0 8 % 64 != 0 || f 2 16 8 % 64 != 0
          || [f 2 8 1, f 2 0x18 1].any fun v => v != 0 && (decide (v < 3) || decide (16 < v))))
    || (has 3 && (List.range 8).any fun n => regionBad (f 3 (16 * n) 8) (f 3 (16 * n + 8) 8))
    || (has 4 && (List.range 4).any fun n => regionBad (f 4 (16 * n) 8) (f 4 (16 * n + 8) 8)
          || decide (s.hdmBytes < f 4 (16 * n) 8 / 4096 * 4096 + f 4 (16 * n + 8) 8))
    || (has 5 && (decide (1024 < farN) || decide (k.hdr.hlen < 16 * farN)
          || ranges.any (fun r => r.1 % 4096 != 0) || (List.range farN).any fun i => leNat ((far.drop (16 * i + 14)).take 2) != 0))
    || (has 6 && (f 6 0 8 % 4096 != 0 || f 6 16 8 % 4096 != 0 || decide (f 6 8 1 < 6) || decide (16 < f 6 8 1) || decide (f 6 9 1 < 6)
          || decide (16 < f 6 9 1) || f 6 10 2 == 0 || decide (2047 < f 6 10 2)))
  let quotaUse := ctxHeap s { x with kvLocal := f 5 0 4 } x.sweep.isSome
  if bad then .error stBADPARAM
  else if has 0 && x.sweep.isSome then .error stBUSY
  else if moved && (x.kvLocal != 0 || s.saved.any fun v => v.ctx == t) then .error stWRONG
  else if has 2 && (!x.htr0.live.isEmpty || !x.htr1.live.isEmpty) then .error stBUSY
  else if has 5 && (decide (f 5 0 4 * 0x100000 < kvUsed x) || decide ((ranges.map fun r => r.2.2).foldl (· + ·) 0 < kvFarUsed x)
      || decide (x.memQuota * 0x100000 < quotaUse)
      || (s.image.isSome && decide (heapSize s < heapUsed (s.modCtx t fun x => { x with kvLocal := f 5 0 4 })))) then .error stNOMEM
  else if (has 5 && placed.isNone) || decide (slots.length < x.slots.length) then .error stNOMEM
  else if has 6 && !x.fresh then .error stWRONG
  else
    let x0 := if has 0 then { x with prio := f 0 0 1, cls := cls, slots := slots, deadline := dl, period := f 0 4 4 * 1000, pstart := f 0 8 8
                                     inPeriod := x.inPeriod && dl && x.period == f 0 4 4 * 1000 && x.pstart == f 0 8 8 } else x
    let x1 := if has 1 then { x0 with hpegBase := f 1 0 8, hpegCount := f 1 8 2, evrLog2 := f 1 10 1, evrBase := f 1 16 8 } else x0
    let x2 := if has 2 then { x1 with htr0 := { base := f 2 0 8, log2n := f 2 8 1 }, htr1 := { base := f 2 16 8, log2n := f 2 0x18 1 } } else x1
    let x3 := if has 3 then { x2 with regions := regs } else x2
    let x4 := if has 4 then { x3 with grants := grants } else x3
    let x5 := if has 5 then { x4 with kvLocal := f 5 0 4, kvFar := ranges
                                      kvAt := place.1, kvSegs := place.2 } else x4
    .ok (if has 6 then { x5 with cmdBase := f 6 0 8, cmdLog2 := f 6 8 1, cmplLog2 := f 6 9 1, vector := f 6 10 2, cmplBase := f 6 16 8
                                 cmdTail := 0, cmdRead := 0, badOps := [], accepted := x5.cmds.length, cmplHead := 0, cmplIdx := 0 } else x5)

/-- R352: the records of a context that are held move to its new completion ring, from index 0. -/
def moveHeld (s : State) (t : Nat) : State :=
  let x := s.ctx t
  let (l, n) := s.cxl.held.foldl (fun (acc : List HeldRec × Nat) r => match r.jr with
    | some (c, _) =>
      if c = t then
        let i := acc.2
        let b5 := (r.bytes.getD 5 0).toNat
        let ph := bitsAt b5 0 2 + (if i / 2 ^ x.cmplLog2 % 2 = 0 then 4 else 0)
        (acc.1 ++ [{ r with addr := x.cmplBase + i % 2 ^ x.cmplLog2 * 32, jr := some (t, i), bytes := modAt r.bytes 5 fun _ => BitVec.ofNat 8 ph }], i + 1)
      else (acc.1 ++ [r], acc.2)
    | none => (acc.1 ++ [r], acc.2)) ([], 0)
  (s.modCxl fun y => { y with held := l }).modCtx t fun x => { x with cmplIdx := n, accepted := x.accepted + n }

/-- CTX_CONFIG. R337 gives no order among a command's own checks: the status of its extended data comes before a non-zero reserved field
(DESIGN CHOICE, log 93). -/
def startCtxConfig (s : State) (c : Nat) (k : Cmd) : State :=
  let t := k.hdr.target
  if !(s.ctx t).live ∧ t ≠ 0 then refuse s c k.aseq stBADPARAM
  else if (s.ctx t).faulted then refuse s c k.aseq stWRONG
  else
    let l := configSections k.par
    let farN := if l.contains 5 then k.fld (sectionAt k.par 5 + 4) 2 else 0
    match (if farN = 0 then .ok [] else readExt s c k.hdr.haddr (16 * farN)) with
    | .error st => refuse s c k.aseq st
    | .ok far =>
      match configured s t k far with
      | .error st => refuse s c k.aseq st
      | .ok x =>
        let s1 := s.setCtx t x
        let s2 := if l.contains 6 then moveHeld s1 t else s1
        settle s2 c k.aseq dDONE stOK 0

/-! ### The stage (R30, R154, R162, R187, R191, R193, R353, R365, R382) -/

/-- R124, R139: a row window that reaches into the control region, into an enabled reserve, or past the last row. -/
def windowBad (im : Image) (base n : Nat) : Bool :=
  decide ((if im.reserve then 43776 else 49152) < base + n) || (decide (0 < n) && decide (base < 44288) && decide (43776 < base + n))

/-- Table 9-1, R139: what makes a sweep descriptor invalid; `i` is its place in the table. -/
def sweepBad (im : Image) (i : Nat) (d : SweepDesc) : Bool :=
  d.rsvd || d.kind == 0 || decide (5 < d.kind) || (decide (5 < d.plotsz) && d.plotsz != 0xFF) || d.id != i
    || (d.kind == 3 && d.intray != 0) || (d.kind != 3 && (decide (d.intray < 64) || decide (32767 < d.intray)))
    || decide (127 < d.trap) || windowBad im d.rowBase d.rowCount

/-- R382: what makes a CLASSTAB invalid. -/
def classBad (im : Image) : Bool :=
  let ent (i : Nat) : ClassEnt := im.classtab.getD i {}
  let per (m : Nat) : Nat := if m = 1 then 2 else if m = 2 then 3 else if m = 3 then 4 else if m = 4 then 6 else 12
  let pkgs (e : ClassEnt) : List Nat := if e.pkgmode = 0 then [] else countFrom (e.pkgsub * (12 / per e.pkgmode)) (12 / per e.pkgmode)
  decide (16 < im.classtab.length)
    || (List.range 16).any fun i =>
      let e := ent i
      e.rsvd || decide (5 < e.pkgmode) || decide (2 < e.bankhalf) || (e.bankhalf != 0 && !im.split)
        || (e.pkgmode != 0 && (decide (per e.pkgmode ≤ e.pkgsub) || !im.tractModes.any fun m => m.2 == e.pkgmode))
        || (List.range i).any fun j =>
          let f := ent j
          (pkgs e).any (pkgs f).contains || (e.bankhalf != 0 && e.bankhalf == f.bankhalf)

/-- R187, R191, R193, R365, Table 9-2: what STAGE_LOAD refuses with ST_BAD_PARAM. -/
def imageBad (im : Image) : Bool :=
  let sizes := ((im.sweeps.filter fun d => d.kind ≥ 4 && d.plotsz != 0xFF).map SweepDesc.plotsz).eraseDups
  decide (256 < im.sweeps.length) || ((List.range im.sweeps.length).zip im.sweeps).any (fun e => sweepBad im e.1 e.2)
    || decide (1 < sizes.length) || im.m == 0 || decide (65535 < im.m) || im.window == 0 || im.m % im.window != 0 || decide (im.m < im.depth)
    || decide (im.stashSlots < im.window + min im.depth (im.m - im.window)) || decide (im.m + im.depth < im.stashSlots)
    || im.localBlocks == 0 || decide (262144 < im.localBlocks) || decide (64 < im.recent) || decide (im.chunk < 64) || decide (65536 < im.chunk)
    || im.chunk % 64 != 0 || im.kvPage % 512 != 0 || im.kvPage == 0 || decide (im.vmax < 550) || decide (850 < im.vmax) || im.slice == 0
    || decide (100 < im.slice) || decide (65536 < im.groupCount) || im.tractModes.any (fun m => decide (m.1 < 5) || decide (1023 < m.1) || decide (5 < m.2))
    || classBad im || (im.plan.map (planBad im)).getD false || (im.headsOnly && !im.beds.isEmpty)

/-- R30, R162: whether the image fits beside the contexts, with a pool of `nres` tracts that holds the tray areas in use. -/
def imageFits (s : State) (im : Image) (nres : Nat) : Bool :=
  let s1 := { s with nRes := nres, image := some im }
  heapStart s1 ≤ hdmStart s1 && heapUsed s1 ≤ heapSize s1 && (poolUsed s).all fun a => a.1 + a.2 ≤ heapStart s1

/-- STAGE_LOAD. -/
def startStageLoad (s : State) (c : Nat) (k : Cmd) : State :=
  let im := k.img.getD {}
  let src := k.fld 0 8
  let len := k.fld 8 8
  let nr := k.fld 0x10 1
  let nres := if nr = 0 then 16 else nr
  let node := src / 2 ^ 48
  let a := src % 2 ^ 48
  if parRsvd k [(0, 17)] || (nr != 0 && decide (nr < 4)) || decide (128 < nr) || (node != 0xFFFE && node != s.salt.node && node != 0xFFFF) then refuse s c k.aseq stBADPARAM
  else if s.image.isSome || s.draining.isSome then refuse s c k.aseq stWRONG
  else if node = 0xFFFE ∧ !inRegion (s.ctx c) a len false then refuse s c k.aseq stWINDOW
  else if node ≠ 0xFFFE ∧ !(hdmStart s ≤ a && inLp a len) then refuse s c k.aseq stWINDOW
  else if node = 0xFFFE ∧ !s.cxl.up then refuse s c k.aseq stLINK
  else if (if node = 0xFFFE then (spanLines 64 a len).any s.hostPoison.contains else isPoisoned s a len) then refuse s c k.aseq stUNCORR
  else if im.fmtVer < 0x400 ∨ 0x402 < im.fmtVer then refuse s c k.aseq stVERSION
  else if !im.digestOk then refuse s c k.aseq stDIGEST
  else if !imageFits s im nres then refuse s c k.aseq stNOMEM
  else if imageBad im then refuse s c k.aseq stBADPARAM
  else
    let modes := (s.tractModes.filter fun e => decide (e.1 < 5))
    let s1 := { s with
      image := some im, nRes := nres, spSplit := im.split, spReserve := im.reserve, solo := [], affinity := []
      tractModes := (im.tractModes.filter fun e => decide (5 + nres ≤ e.1)).foldl (fun t e => tput 0 t e.1 e.2) modes }
    match placeAll s1 with
    | none => refuse s c k.aseq stNOMEM
    | some s2 => settle (setMeas (writePieces s2 (im.content.map fun e => (e.1, [e.2]))) 7 im.digest) c k.aseq dDONE stOK im.fmtVer

/-- STAGE_DRAIN: it starts, and settles when the stage is empty (R353). -/
def startStageDrain (s : State) (c : Nat) (k : Cmd) : State :=
  if parRsvd k [(0, 1)] || decide (1 < k.fld 0 1) then refuse s c k.aseq stBADPARAM
  else if s.image.isNone || s.draining.isSome then refuse s c k.aseq stWRONG
  else
    let run := (liveCtxs s).filter fun t => (s.ctx t).sweep.isSome
    let s1 := { s with draining := some (k.fld 0 1) }
    if k.fld 0 1 = 1 then run.foldl (fun s t => s.modSweep t fun w => { w with cancelling := true }) s1 else s1

/-- R188: the READY packets of a tray whose unit has no END packet yet: those of a producer slot behind its last END, or of the
tray where its units span slots. -/
def partialUnit (t : Tray) (across : Bool) (p : Packet) : Bool :=
  p.st == .ready && !((t.packets.dropWhile fun q => q.seq != p.seq).any fun q => q.st == .ready && q.endp && (across || q.slot == p.slot))

/-- R438: a drain cancels the packets of units whose END packet never committed. -/
def drainPartials (s : State) : State :=
  ((imageD s).sweeps.filter fun d => d.intray != 0).foldl (fun s d =>
    let t := s.tray d.intray
    if t.kind = 1 then (t.packets.filter (partialUnit t (d.kind == 5))).foldl (fun s p => retirePkt s d.intray p dCANCELLED stCANCELLED) s else s) s

/-- R353: the drain ends when no SWEEP_RUN runs, no rake phase is active and no harvest runs. -/
def finishDrain (s : State) : State :=
  if s.draining.isNone || s.rphase.active || s.ctxs.any (fun e => e.2.sweep.isSome || e.2.harvest.isSome) then s
  else
    let s1 := (liveCtxs s).foldl (fun s t =>
      let x := s.ctx t
      let s1 := (x.seqs.filter fun q => q.st == 1 || q.st == 2).foldl (fun s q => settle s t q.joinAseq dCANCELLED stCANCELLED 0) s
      let s2 := x.seqs.foldl (fun s q => match q.leaveAseq with | some a => settle s t a dDONE stOK q.l | none => s) s1
      s2.modCtx t fun x => { x with seqs := [] }) (drainPartials s)
    let s2 := setMeas { s1 with image := none, draining := none, spReserve := false, schedPhase := 0 } 7 (fillBytes 32 0)
    match (s2.ctx 0).cmds.find? fun k => k.op == 0x21 && k.started with
    | some k => settle s2 0 k.aseq dDONE stOK k.mark
    | none => s2

/-! ### Trays (R172, R178, R181, R185, R354) -/

/-- The lowest free range of the pool that fits `mib` MiB. -/
def poolPlace (s : State) (mib : Nat) : Option Nat := ((freeRanges s).find? fun r => mib * 0x100000 ≤ r.2).map (·.1)

/-- The slots that a TRAY_CONFIG gives. -/
def configSlots (k : Cmd) (fmt maxpkt words : Nat) : Tab Slot :=
  if fmt = 1 then [(0, { enabled := true, pktAvail := maxpkt, wordAvail := words, pktLimit := maxpkt, wordLimit := words })]
  else (List.range (k.fld 6 1)).map fun i =>
    (i, { enabled := true, node := k.fld (0x40 + 16 * i) 2, pktAvail := k.fld (0x44 + 16 * i) 4, pktLimit := k.fld (0x44 + 16 * i) 4
          wordAvail := k.fld (0x48 + 16 * i) 4, wordLimit := k.fld (0x48 + 16 * i) 4 })

/-- TRAY_CONFIG. R337 gives no order among a command's own checks: ST_VERSION of FMTVER comes before a non-zero reserved field (DESIGN
CHOICE, log 93), and with KIND 0 every other field counts as reserved (DESIGN CHOICE, log 94). -/
def startTrayConfig (s : State) (c : Nat) (k : Cmd) : State :=
  let n := k.fld 0 2
  let kind := k.fld 2 1
  let fl := k.fld 3 1
  let fmt := bitsAt fl 1 2
  let nslot := k.fld 6 1
  let maxpkt := k.fld 8 4
  let words := k.fld 0x0C 4
  let tmo := k.fld 0x10 4
  let t := s.tray n
  let sl := configSlots k 2 0 0
  if decide (32767 < n) || decide (3 < kind) then refuse s c k.aseq stBADPARAM
  else if n < 64 ∨ (t.kind ≠ 0 ∧ t.ctx ≠ c) then refuse s c k.aseq stWRONG
  else if kind = 0 then
    if parRsvd k [(0, 3)] then refuse s c k.aseq stBADPARAM
    else if !t.packets.isEmpty || t.kind == 0 then refuse s c k.aseq stWRONG
    else settle (releaseTray s n) c k.aseq dDONE stOK 0
  else if fmt ≠ 1 ∧ fmt ≠ 2 then refuse s c k.aseq stVERSION
  else
    let bad := parRsvd k ([(0, 7), (8, 12)] ++ (List.range nslot).map fun i => (0x40 + 16 * i, 12))
      || (List.range nslot).any (fun i => k.fld (0x42 + 16 * i) 2 != 0)
      || decide (15 < fl) || decide (k.fld 5 1 < k.fld 4 1) || decide (7 < k.fld 5 1) || decide (16 < nslot) || (kind != 1 && nslot != 0)
      || maxpkt == 0 || decide (65536 < maxpkt) || words == 0 || decide (tmo < 100) || decide (100000 < tmo)
      || decide (maxpkt < (sl.map fun e => e.2.pktLimit).foldl (· + ·) 0) || decide (words < (sl.map fun e => e.2.wordLimit).foldl (· + ·) 0)
    if bad then refuse s c k.aseq stBADPARAM
    else if !t.packets.isEmpty then refuse s c k.aseq stWRONG
    else
      let s1 := s.setTray n { t with mib := 0 }
      let mib := areaMib words maxpkt
      match poolPlace s1 mib with
      | none => refuse s c k.aseq stNOMEM
      | some base =>
        let t1 : Tray := { kind := kind, readmode := bitsAt fl 0 1 == 1, fmtver := fmt, pmin := k.fld 4 1, pmax := k.fld 5 1
                           periodic := bitsAt fl 3 1 == 1, ctx := c, maxpkt := maxpkt, timeout := tmo, base := base, mib := mib, ringWords := words
                           slots := if kind = 1 then configSlots k fmt maxpkt words else [] }
        settle ((releaseReaders s1 n).setTray n t1) c k.aseq dDONE stOK base

/-- TRAY_FLUSH: READY packets settle CANCELLED, or are lost (R181). -/
def startTrayFlush (s : State) (c : Nat) (k : Cmd) : State :=
  let n := k.fld 0 2
  let t := s.tray n
  if parRsvd k [(0, 2)] || decide (32767 < n) then refuse s c k.aseq stBADPARAM
  else if n < 64 ∨ t.kind = 0 ∨ t.ctx ≠ c then refuse s c k.aseq stWRONG
  else
    let m := (t.packets.filter fun p => p.st == .ready || p.st == .open).length
    settle (flushTray s n dCANCELLED stCANCELLED) c k.aseq dDONE stOK m

end Sys2Proof.Machine
end

