-- ==== Sys2Proof/Machine/CmdWork.lean ====
section
/-! DEFINITION. Commands on work: SWEEP_RUN, sequences, rakes, pegs, windows and routes (R200 to R202, R229, R230 to R233, R262 to
R265, R286, R291, R354 to R356). -/

namespace Sys2Proof.Machine

/-! ### SWEEP_RUN (R354) -/

/-- Whether a descriptor of the image has a kind. -/
def kindIs (s : State) (id kind : Nat) : Bool := ((descOf s id).map SweepDesc.kind) == some kind

/-- Whether a schedule block of `n` segments at a local address is refused (R229). -/
def schedBad (s : State) (a n : Nat) : Bool := decide (4096 < n) || (List.range n).any fun i => segBad (readMem s (a + 32 * i) 32)

/-- SWEEP_RUN with STOP = 1: the running one is asked to end, or the command settles at once. -/
def startSweepStop (s : State) (c : Nat) (k : Cmd) : State :=
  if (s.ctx c).sweep.isSome then s.modSweep c fun w => { w with stop := true } else settle s c k.aseq dDONE stOK 0

/-- R402: FREEZE and RHOLD clear in every group that a restore holds. -/
def liftHold (s : State) : State :=
  ((List.range (groupCount s)).filter fun g => (groupRec s g).rhold).foldl (fun s g =>
    let b := readLE s (groupAt s g) 1
    writeMem s (groupAt s g) (leBytes 1 (setBits (setBits b 1 1 0) 7 1 0))) s

/-- SWEEP_RUN; the buffers that the image declares for each context are charged when it starts (R351; DESIGN CHOICE, log 108). One that would
start during a drain of mode 1 is cancelled with the others (R353); during a drain of mode 0 it is refused (log 44). -/
def startSweepRun (s : State) (c : Nat) (k : Cmd) : State :=
  let x := s.ctx c
  let mode := k.fld 0 1
  let w : Sweep := { aseq := k.aseq, serving := mode == 1, tele := k.fld 2 2, rseed := BitVec.ofNat 64 (k.fld 8 8), first := k.fld 0x10 4
                     nsteps := k.fld 0x14 4, m := k.fld 0x18 2, fwd := if mode = 1 then k.fld 0x18 2 else k.fld 0x1A 2
                     igr := if mode = 1 then k.fld 0x1A 2 else k.fld 0x1C 2, wgr := k.fld 0x1E 2, sched := k.fld 0x20 8, nseg := k.fld 0x28 2
                     shard := k.fld 0x30 8, nshard := k.fld 0x38 4, step := k.fld 0x10 4 }
  let rsvd := parRsvd k [(0, 4), (8, 34), (0x30, 12)]
  if rsvd || decide (1 < mode) || decide (1 < k.fld 1 1) then refuse s c k.aseq stBADPARAM
  else if k.fld 1 1 = 1 then startSweepStop s c k
  else if s.draining = some 1 then countDrained (settle s c k.aseq dCANCELLED stCANCELLED 0)
  else if s.image.isNone || s.draining.isSome then refuse s c k.aseq stWRONG
  else
    let tele := w.tele != 0 && ((s.tray w.tele).kind != 3 || (s.tray w.tele).ctx != c)
    let bad := periodBad x k || tele || (if mode = 1 then !kindIs s w.fwd 4 || !kindIs s w.igr 5
      else x.deadline || w.m != (imageD s).m || !kindIs s w.fwd 1 || !kindIs s w.igr 2 || !kindIs s w.wgr 3 || w.nsteps == 0
        || schedBad s w.sched w.nseg)
    if bad then refuse s c k.aseq stBADPARAM
    else if x.memQuota * 0x100000 < ctxHeap s x true ∨ heapSize s < heapUsed s + roundUp (imageD s).ctxBytes 256 then refuse s c k.aseq stNOMEM
    else
      let lift := mode == 0 && (x.restored.map fun n => (n + 1) % 2 ^ 32) == some w.first
      let s1 := (if lift then liftHold s else s).modCtx c fun x => { x with sweep := some w, restored := if lift then none else x.restored }
      if mode = 1 then s1 else { s1 with schedStep := w.step, schedPhase := if x.fenceClosed then s1.schedPhase else 1 }

/-! ### Sequences (R200 to R202, R355) -/

/-- SEQ_JOIN: checked when accepted, then it waits for a boundary. -/
def startSeqJoin (s : State) (c : Nat) (k : Cmd) : State :=
  let x := s.ctx c
  let id := k.fld 0 4
  let maxlen := k.fld 4 4
  let (lb, fb) := reserveOf (imageD s) maxlen
  if parRsvd k [(0, 12)] || periodBad x k || maxlen == 0 || decide (16777216 < maxlen) || k.fld 8 4 == 0 || decide (maxlen < k.fld 8 4)
      || x.seqs.any (fun q => q.id == id) then refuse s c k.aseq stBADPARAM
  else if (x.sweep.map Sweep.serving) != some true then refuse s c k.aseq stWRONG
  else if x.kvLocal * 0x100000 < lb ∨ farPool x < fb then refuse s c k.aseq stNOMEM
  else s.modCtx c fun x => { x with seqs := x.seqs ++ [{ id := id, st := 1, maxlen := maxlen, locB := lb, farB := fb, at0 := s.now, joinAseq := k.aseq, entry := freeEntry x }] }

/-- SEQ_LEAVE: a join not yet admitted is withdrawn; a running sequence leaves at the next boundary. -/
def startSeqLeave (s : State) (c : Nat) (k : Cmd) : State :=
  let x := s.ctx c
  let id := k.fld 0 4
  match x.seqs.find? fun q => q.id == id && q.st != 4 with
  | none => refuse s c k.aseq stBADPARAM
  | some q =>
    if parRsvd k [(0, 4)] || periodBad x k then refuse s c k.aseq stBADPARAM
    else if q.st = 3 then s.modCtx c fun x => { x with seqs := modFirst (fun e => e.id == id) (fun e => { e with st := 4, leaveAseq := some k.aseq }) x.seqs }
    else
      let s1 := s.modCtx c fun x => { x with seqs := delFirst (fun e => e.id == id) x.seqs }
      settle (settle s1 c q.joinAseq dCANCELLED stCANCELLED 0) c k.aseq dDONE stOK q.l

/-! ### Rakes (R230, R232, R233) -/

/-- A heads-only stage, or none (R160). -/
def noRakes (s : State) : Bool := match s.image with | some im => im.headsOnly | none => true

/-- The words of a RAKE_PROGRAM. -/
def programWords (k : Cmd) : List Nat := (List.range (k.fld 1 1)).map fun i => k.fld (0x40 + 4 * i) 4

/-- The refusal of a RAKE_PROGRAM, or ST_OK. -/
def rakeProgramStatus (s : State) (k : Cmd) : Nat :=
  let n := k.fld 1 1
  if noRakes s then stWRONG
  else if parRsvd k [(0, 2), (0x40, 4 * n)] || decide (15 < k.fld 0 1) || n == 0 || decide (32 < n) || (programWords k).any rakeWordBad then stBADPARAM
  else stOK

/-- RAKE_PROGRAM takes effect. -/
def applyRakeProgram (s : State) (c : Nat) (k : Cmd) : State :=
  settle { s with rakeProgs := tput [] s.rakeProgs (k.fld 0 1) (programWords k) } c k.aseq dDONE stOK 0

/-- R227, R232, R233: what RAKE_GROUP refuses in a record. -/
def groupRecBad (l : List Byte) : Bool :=
  let x := parseGroup l
  let f (o n : Nat) : Nat := leNat ((l.drop o).take n)
  let unit (w : W32) : Bool := (!fvSign (ofF32 w) || fvZero (ofF32 w)) && !fvNan (ofF32 w) && gtF (.fin false 1 0) (ofF32 w)
  bitsAt (f 0 4) 16 16 != 0 || f 0x58 40 != 0 || !unit x.b1 || !unit x.b2
    || (if x.precond then
          (x.root != 1 && x.root != 2) || x.refresh == 0 || decide (65535 < x.refresh) || !unit x.sbeta
            || !(gtF (ofF32 x.eps0) (.fin false 0 0) && finite32 x.eps0) || x.rbase % 131072 != 0 || x.pbase % 131072 != 0 || x.phdr % 64 != 0
        else x.root != 0 || x.refresh != 0)

/-- The refusal of a RAKE_GROUP, or its records. -/
def rakeGroupData (s : State) (c : Nat) (k : Cmd) : Except Nat (List Byte) :=
  let n := k.fld 4 4
  if noRakes s then .error stWRONG
  else if parRsvd k [(0, 2), (4, 4)] || n == 0 || decide (65536 < k.fld 0 2 + n) || k.hdr.hlen != 128 * n
      || decide (groupCount s < k.fld 0 2 + n) then .error stBADPARAM
  else match readExt s c k.hdr.haddr (128 * n) with
    | .error st => .error st
    | .ok b => if (List.range n).any fun i => groupRecBad ((b.drop (128 * i)).take 128) then .error stBADPARAM else .ok b

/-- RAKE_GROUP takes effect: RHOLD is written as 0. -/
def applyRakeGroup (s : State) (c : Nat) (k : Cmd) : State :=
  match rakeGroupData s c k with
  | .error st => refuse s c k.aseq st
  | .ok b =>
    let n := k.fld 4 4
    let s1 := (List.range n).foldl (fun s i =>
      let l := (b.drop (128 * i)).take 128
      writeMem s (groupAt s (k.fld 0 2 + i)) (leBytes 1 (bitsAt ((l.getD 0 0).toNat) 0 7) ++ l.drop 1)) s
    settle s1 c k.aseq dDONE stOK n

/-- R233: a rake command takes effect now, or is held to the end of the phase. -/
def startRakeProgram (s : State) (c : Nat) (k : Cmd) : State :=
  let st := rakeProgramStatus s k
  if st ≠ stOK then refuse s c k.aseq st
  else if s.rphase.active then { s with rakeHeld := s.rakeHeld ++ [(c, k.aseq)] } else applyRakeProgram s c k

def startRakeGroup (s : State) (c : Nat) (k : Cmd) : State :=
  match rakeGroupData s c k with
  | .error st => refuse s c k.aseq st
  | .ok _ => if s.rphase.active then { s with rakeHeld := s.rakeHeld ++ [(c, k.aseq)] } else applyRakeGroup s c k

/-- The rake commands held to the end of a phase take effect in ring order. -/
def releaseRakeHeld (s : State) : State :=
  s.rakeHeld.foldl (fun s e => match (s.ctx e.1).cmds.find? fun k => k.aseq == e.2 with
    | some k => if k.op = 0x50 then applyRakeProgram s e.1 k else applyRakeGroup s e.1 k
    | none => s) { s with rakeHeld := [] }

/-! ### Pegs (R250, R262 to R265) -/

/-- The refusal that the fields of a PEG_ALLOC have in common, whatever its action. -/
def pegRangeBad (k : Cmd) : Bool :=
  let n := k.fld 4 2
  n == 0 || decide (4096 < k.fld 2 2 + n) || decide (2 < k.fld 0 1) || parRsvd k [(0, 18)] || decide (3 < k.fld 0x0C 1)

/-- PEG_ALLOC with ACTION 0. -/
def startPegAlloc (s : State) (c : Nat) (k : Cmd) : State :=
  let x := s.ctx c
  let first := k.fld 2 2
  let n := k.fld 4 2
  let mode := k.fld 1 1
  let home := k.fld 0x0D 1
  let fl := k.fld 0x0C 1
  if pegRangeBad k || (countFrom first n).any (fun v => (vpidPhys s c v).isSome) || mode == 0 || decide (3 < mode) || (mode == 2 && decide (1 < k.fld 8 4))
      || (mode == 3 && k.fld 6 2 == 0) || (decide (128 ≤ home) && home != 0xFF) || decide (k.fld 0x10 2 < k.fld 0x0E 2) then refuse s c k.aseq stBADPARAM
  else if x.pegQuota < x.vpids.length + n ∨ pegsFree s < n then refuse s c k.aseq stNOPEG
  else
    let ph := scanFree s 262144 n (if home = 0xFF then 0 else home * 2048)
    let s1 := ((List.range n).zip ph).foldl (fun s e =>
      (s.setPeg e.2 { mode := mode, value := k.fld 8 4, init := k.fld 8 4, parties := if mode = 3 then k.fld 6 2 else 0, owner := c, vpid := first + e.1
                      remote := bitsAt fl 0 1 == 1, periodic := bitsAt fl 1 1 == 1, nodeLo := k.fld 0x0E 2, nodeHi := k.fld 0x10 2 }).modCtx c
        fun x => { x with vpids := tset x.vpids (first + e.1) e.2 }) s
    settle (pegSwap s1 c (countFrom first n)) c k.aseq dDONE stOK n

/-- The refusal of a free or a reset, or ST_OK. -/
def pegRangeStatus (s : State) (c : Nat) (k : Cmd) : Nat :=
  let ps := (countFrom (k.fld 2 2) (k.fld 4 2)).map (vpidPhys s c)
  if pegRangeBad k || ps.any Option.isNone then stBADPARAM
  else if ps.any fun p => match p with | some i => !(s.peg i).waits.isEmpty | none => false then stBUSY else stOK

/-- PEG_ALLOC with ACTION 1. -/
def startPegFree (s : State) (c : Nat) (k : Cmd) : State :=
  let st := pegRangeStatus s c k
  if st ≠ stOK then refuse s c k.aseq st
  else
    let vs := countFrom (k.fld 2 2) (k.fld 4 2)
    settle (pegSwap (freePegs s c vs) c vs) c k.aseq dDONE stOK (k.fld 4 2)

/-- PEG_ALLOC with ACTION 2. -/
def startPegReset (s : State) (c : Nat) (k : Cmd) : State :=
  let st := pegRangeStatus s c k
  if st ≠ stOK then refuse s c k.aseq st
  else
    let s1 := (countFrom (k.fld 2 2) (k.fld 4 2)).foldl (fun s v => match vpidPhys s c v with
      | some p => s.setPeg p (s.peg p).resetTo
      | none => s) s
    settle (pegSwap s1 c []) c k.aseq dDONE stOK (k.fld 4 2)

/-- PEG_SIGNAL (R256, R263). -/
def startPegSignal (s : State) (c : Nat) (k : Cmd) : State :=
  let v := k.fld 0 2
  if parRsvd k [(0, 2), (4, 4)] || decide (4095 < v) then refuse s c k.aseq stBADPARAM
  else
    let (s1, st) := targetSignal (vpidRead s c v) c v (k.fld 4 4) true ⟨s.salt.node, 3, 0⟩
    if st = stOK then settle s1 c k.aseq dDONE stOK 0 else refuse s1 c k.aseq st

/-- The PEG_WAIT commands that wait on a peg. -/
def hostWaits (g : Peg) : Nat := (g.waits.filter fun w => match w.who with | .host _ _ => true | _ => false).length

/-- PEG_WAIT (R245, R264). -/
def startPegWait (s : State) (c : Nat) (k : Cmd) : State :=
  let v := k.fld 0 2
  let thresh := k.fld 4 4
  let s := vpidRead s c v
  match vpidOk s c v with
  | none => refuse s c k.aseq stBADPARAM
  | some p =>
    let g := s.peg p
    if parRsvd k [(0, 3), (4, 8)] || decide (4095 < v) || decide (1 < k.fld 2 1) || decide (10000000 < k.fld 8 4) || (g.mode == 1 && thresh == 0) then refuse s c k.aseq stBADPARAM
    else if g.poisoned then settle s c k.aseq dFAULTED stOWNERLOST 0
    else if 255 ≤ hostWaits g then refuse s c k.aseq stBUSY
    else applyWait s p { who := .host c k.aseq, k := thresh, consume := k.fld 2 1 == 1, phases := g.phases }

/-- The records of a dump: the 64-byte header (Table 11-7), and one record for each valid VPID. -/
def dumpBytes (s : State) (t first n : Nat) : List Byte :=
  let ps := (countFrom first n).filterMap (vpidPhys s t)
  leBytes 8 (1 + t * 2 ^ 16) ++ leBytes 4 ps.length ++ leBytes 4 (b2n s.pegEpoch) ++ leBytes 8 s.now ++ leBytes 8 s.now ++ fillBytes 32 0
    ++ ps.flatMap fun p => (s.peg p).bytes s.now

/-- Write bytes to a destination that a command names: host memory in the regions of `owner`, or local memory that context `t` may write. -/
def putDest (s : State) (owner t dest : Nat) (l : List Byte) (bad : Bool) : Except Nat State :=
  let a := dest % 2 ^ 48
  if dest / 2 ^ 48 = 0xFFFE then
    if !inRegion (s.ctx owner) a l.length true then .error stWINDOW
    else if !s.cxl.up then .error stLINK
    else .ok (putHost s a l bad)
  else if (dest / 2 ^ 48 == s.salt.node || dest / 2 ^ 48 == 0xFFFF) && ctxMem s t a l.length true then .ok (writeMem s a l bad)
  else .error stBADPARAM

/-- PEG_DUMP (R265). -/
def startPegDump (s : State) (c : Nat) (k : Cmd) : State :=
  let t := if c = 0 then k.hdr.target else c
  let n := k.fld 2 2
  if (s.ctx t).faulted then refuse s c k.aseq stWRONG
  else if parRsvd k [(0, 4), (8, 8)] || n == 0 || decide (4096 < k.fld 0 2 + n) || !(s.ctx t).live then refuse s c k.aseq stBADPARAM
  else
    let b := dumpBytes s t (k.fld 0 2) n
    match putDest s c t (k.fld 8 8) b false with
    | .error st => refuse s c k.aseq st
    | .ok s1 => settle s1 c k.aseq dDONE stOK (b.length / 64 - 1)

/-! ### Windows and routes (R286, R291) -/

/-- R291: whether a range is memory that a context may open a window on: never the control region, the reserve (R146) or a save slot (R135). -/
def windowMem (s : State) (c a n : Nat) (write : Bool) : Bool :=
  if inAperture a n then
    apCore a == apCore (a + n - 1) && (s.ctx c).cores.contains (apCore a)
      && (decide (apRow (a + n - 1) < 43776) || (decide (44288 ≤ apRow a) && !s.spReserve))
  else ctxMem s c a n write && !inSlot s (fun _ => true) a n

/-- WINDOW_OPEN. -/
def startWindowOpen (s : State) (c : Nat) (k : Cmd) : State :=
  let base := k.fld 0 8
  let size := k.fld 8 4
  let fl := k.fld 0x0C 1
  let w : Window := { base := base, size := size, read := bitsAt fl 0 1 == 1, write := bitsAt fl 1 1 == 1, atom := bitsAt fl 2 1 == 1, v1ok := bitsAt fl 3 1 == 1
                      anyctx := bitsAt fl 4 1 == 1, owner := c, rctx := k.fld 0x0E 2, valid := true, nodeLo := k.fld 0x10 2, nodeHi := k.fld 0x12 2 }
  let write := w.write || w.atom
  if parRsvd k [(0, 13), (0x0E, 6)] || decide (31 < fl) || base % 4096 != 0 || size == 0 || decide (2 ^ 28 ≤ size) || decide (w.nodeHi < w.nodeLo)
      || decide (4095 < w.rctx) || !windowMem s c base (size * 4096) false || (write && !windowMem s c base (size * 4096) true) then refuse s c k.aseq stBADPARAM
  else match (List.range 16384).find? fun i => !(tget {} s.salt.windows i).valid with
    | none => refuse s c k.aseq stNOWIN
    | some i => settle (winSwap (s.modSalt fun x => { x with windows := tput {} x.windows i w }) [i]) c k.aseq dDONE stOK i

/-- WINDOW_CLOSE: it settles after its swap, once the accesses that are held under the old generation have ended (R291). -/
def startWindowClose (s : State) (c : Nat) (k : Cmd) : State :=
  let i := k.fld 0 2
  let w := tget {} s.salt.windows i
  if parRsvd k [(0, 2)] || decide (16383 < i) || !w.valid then refuse s c k.aseq stBADPARAM
  else if w.owner ≠ c then refuse s c k.aseq stNOTPERM
  else
    let s1 := winSwap (s.modSalt fun x => { x with windows := tput {} x.windows i {} }) [i]
    if s.salt.snoopHeld.isEmpty then settle s1 c k.aseq dDONE stOK 0 else modCmd s1 c k.aseq fun k => { k with mark := s1.salt.swaps }

/-- A routing entry (Table 12-8). -/
def parseRoute (e : Nat) : Route :=
  { port := bitsAt e 0 3, valid := bitsAt e 3 1 == 1, alt := bitsAt e 4 3, altValid := bitsAt e 7 1 == 1, self := bitsAt e 8 1 == 1
    transitOk := bitsAt e 9 1 == 1, hops := bitsAt e 16 4 }

/-- The port that a node's messages take. -/
def portOf (s : State) (node : Nat) : Option Nat := routePort s node

/-- R286: where a generation of the routing table lies. -/
def routeBase (epoch : Bool) : Nat := if epoch then 0xE0000000 else 0xC8000000

/-- R286: a swap of the routing tables, whole, as one step (log 89). -/
def routeSwap (s : State) (es : List (Nat × Nat)) : State :=
  let put (s : State) (epoch : Bool) : State := es.foldl (fun s e => writeLE s (routeBase epoch + 8 * e.1) 8 e.2) s
  put ((put s (!s.salt.routeEpoch)).modSalt fun x => { x with routeEpoch := !x.routeEpoch }) s.salt.routeEpoch

/-- ROUTE_SET: the entries take effect with one swap; messages to nodes whose port changes are held back (R286). -/
def startRouteSet (s : State) (c : Nat) (k : Cmd) : State :=
  let first := k.fld 0 2
  let n := k.fld 2 2
  if parRsvd k [(0, 4)] || n == 0 || decide (4096 < n) || decide (65536 < first + n) || k.hdr.hlen != 8 * n then refuse s c k.aseq stBADPARAM
  else match readExt s c k.hdr.haddr (8 * n) with
    | .error st => refuse s c k.aseq st
    | .ok b =>
      let es := (List.range n).map fun i => leNat ((b.drop (8 * i)).take 8)
      if es.any fun e => bitsAt e 10 6 != 0 || bitsAt e 20 44 != 0 then refuse s c k.aseq stBADPARAM
      else
        let s1 := s.modSalt fun x => { x with
          routes := ((List.range n).zip es).foldl (fun t e => tput {} t (first + e.1) (parseRoute e.2)) x.routes
          swaps := x.swaps + 1 }
        let moved := (countFrom first n).filter fun d => portOf s d != portOf s1 d && s.salt.outs.any fun o => o.msg.dst == d
        settle ((routeSwap s1 ((countFrom first n).zip es)).modSalt fun x => { x with heldNodes := moved.foldl ninsert x.heldNodes }) c k.aseq dDONE stOK n

end Sys2Proof.Machine
end

