-- ==== Sys2Proof/Machine/Harvest.lean ====
section
/-! DEFINITION. HARVEST and RESTORE (chapter 16): what Dister does at each poll of the store, the election, the manifest, and
the verify and load passes of a restore. -/

namespace Sys2Proof.Machine

/-! ### Starting a harvest (R392) -/

/-- The step whose fence opens next while a training SWEEP_RUN runs. -/
def nextFence (x : Ctx) (w : Sweep) : Nat := if x.fenceClosed && w.phase == 1 then w.step - 1 else w.step

/-- A harvest begins: it holds back the rake phase of the next step (R394). -/
def harvestBegin (s : State) (c : Nat) : State := s.modHarvest c fun h => { h with begun := true, at0 := s.now, hold := true }

/-- HARVEST. -/
def startHarvest (s : State) (c : Nat) (k : Cmd) : State :=
  let x := s.ctx c
  let step := k.fld 0 4
  let man := k.fld 4 2
  let store := k.fld 8 8
  let h : Harvest := { aseq := k.aseq, step := step, manver := man, win := k.fld 6 2, store := store }
  if parRsvd k [(0, 16)] || periodBad x k || store / 2 ^ 48 == s.salt.node || store / 2 ^ 48 == 0xFFFF || store % 64 != 0
      || decide (16383 < h.win) then refuse s c k.aseq stBADPARAM
  else match s.image.bind Image.plan with
    | none => refuse s c k.aseq stWRONG
    | some p =>
      if (myRank s).isNone then refuse s c k.aseq stWRONG
      else if x.harvest.isSome then refuse s c k.aseq stBUSY
      else if man ≠ 1 ∧ man ≠ 2 then refuse s c k.aseq stVERSION
      else if man = 1 ∧ p.shards.any (fun h => h.kind == 2) then refuse s c k.aseq stVERSION
      else
        let s1 := s.modCtx c fun x => { x with harvest := some h }
        match x.sweep with
        | some w =>
          if !w.serving && decide (step < nextFence x w) then refuse s c k.aseq stSTEP
          else s1
        | none => if step = x.lastStep.getD 0xFFFFFFFF then harvestBegin s1 c else refuse s c k.aseq stSTEP

/-- R392: a harvest that waits for its step's fence begins when it opens. -/
def fenceHarvest (s : State) (c : Nat) : State :=
  match (s.ctx c).harvest with
  | some h => if !h.begun && some h.step == (s.ctx c).lastStep then harvestBegin s c else s
  | none => s

/-- R392: a harvest whose step the SWEEP_RUN settled before reaching. -/
def missedHarvest (s : State) (c : Nat) : State :=
  match (s.ctx c).harvest with
  | some h => if !h.begun && (s.ctx c).sweep.isNone && some h.step != (s.ctx c).lastStep then harvestEnd s c dFAULTED stSTEP else s
  | none => s

/-! ### The records of a store (Table 16-3, Table 16-5) -/

/-- A field of store bytes. -/
def fieldAt (l : List Byte) (off n : Nat) : Nat := leNat ((l.drop off).take n)

/-- Bytes of the harvest's store. -/
def hRead (s : State) (c off n : Nat) : List Byte :=
  match (s.ctx c).harvest with
  | some h => storeRead s h.store h.view off n
  | none => []

/-- Bytes of the harvest's generation. -/
def gRead (s : State) (c off n : Nat) : List Byte :=
  hRead s c (genOff (genSize (planD s)) (((s.ctx c).harvest.map Harvest.gen).getD 0) + off) n
def gWrite (s : State) (c off : Nat) (l : List Byte) : State :=
  storeWrite s c (genOff (genSize (planD s)) (((s.ctx c).harvest.map Harvest.gen).getD 0) + off) l

/-- A commit record. -/
structure CommitRec where
  valid : Bool
  hseq : Nat
  step : Nat
  bodylen : Nat
  digest : List Byte

def parseCommit (l : List Byte) : CommitRec :=
  { valid := fieldAt l 0 8 % 2 == 1, hseq := fieldAt l 8 8, step := fieldAt l 0x10 4, bodylen := fieldAt l 0x14 4, digest := (l.drop 0x20).take 32 }

/-- R397: whether the manifest of a slot is complete, given a reader of the slot. -/
def complete (rd : Nat → Nat → List Byte) : Bool :=
  let r := parseCommit (rd 0 64)
  let body := rd 64 r.bodylen
  r.valid && r.digest == digest 0 0 0 3 body && r.hseq == fieldAt body 8 8

/-- The HSEQs of the complete manifests, by slot. -/
def completeSlots (g size : Nat) (rd : Nat → Nat → List Byte) : List (Nat × Nat) :=
  (List.range g).filterMap fun i =>
    let at' (o n : Nat) : List Byte := rd (genOff size i + o) n
    if complete at' then some (i, (parseCommit (at' 0 64)).hseq) else none

/-- The state, status and step of rank r's record; one of another HSEQ is absent. -/
def rankState (s : State) (c : Nat) (h : Harvest) (r : Nat) : Nat × Nat × Nat :=
  let l := gRead s c (rankOff (planD s) r) 64
  if fieldAt l 0 8 = h.hseq then (fieldAt l 0x0C 1, fieldAt l 0x0E 2, fieldAt l 8 4) else (0, 0, h.step)

def nranks (s : State) : Nat := (planD s).nodes.length

/-- Whether every rank's record shows state `n` or later. -/
def allRanks (s : State) (c : Nat) (h : Harvest) (n : Nat) : Bool :=
  (List.range (nranks s)).all fun r => n ≤ (rankState s c h r).1 && (rankState s c h r).1 != 5

/-! ### Digest pass (Table 16-4, step 3) -/

/-- Whether the heads of a range of bed groups hold poison. -/
def headsPoisoned (s : State) (a n : Nat) : Bool := (List.range (n / 16384)).any fun i => isPoisoned s (a + 16384 * i) 0xC00

/-- The board entry of shard i of rank r. -/
def boardEntry (s : State) (h : Harvest) (r i : Nat) (d : Shard) : List Byte :=
  let mine := holds s d r
  let bad := if mine then isPoisoned s d.addr d.len else d.kind == 1 && headsPoisoned s d.addr d.len
  let l := readMem s d.addr d.len
  let hd := if d.kind = 1 ∨ mine then headDigest h.step i d l else fillBytes 32 0
  let fd := if mine then fullDigest h.step i d l else fillBytes 32 0
  let open' (x : List Byte) (j : Nat) : List Byte := if bad then Config.freeBytes (s.freeCtr + 2 * i + j) 32 else x
  leBytes 8 h.hseq ++ leBytes 4 h.step ++ leBytes 4 (b2n mine + 2 * b2n bad) ++ fillBytes 16 0 ++ open' hd 0
    ++ (if mine then open' fd 1 else fd) ++ fillBytes 32 0

/-- What the digest pass of rank `r` reads of a shard: all that it holds, or the heads. -/
def digestReads (s : State) (r : Nat) (d : Shard) : State :=
  if holds s d r then readIn s d.addr d.len
  else if d.kind = 1 then (List.range (d.len / 16384)).foldl (fun s i => readIn s (d.addr + 16384 * i) 0xC00) s
  else s

/-- The digest pass. -/
def digestPass (s : State) (c : Nat) (h : Harvest) (r : Nat) : State :=
  let p := planD s
  let s1 := ((List.range p.shards.length).zip p.shards).foldl (fun t e => digestReads (gWrite t c (boardOff p e.1 r) (boardEntry s h r e.1 e.2)) r e.2) s
  writeRank (takeFree s1 (2 * p.shards.length)) c 2 0

/-! ### Election (R396) -/

/-- A board entry that counts: HOLDER, POISON, HD and FD. -/
def entryOf (s : State) (c : Nat) (h : Harvest) (i r : Nat) : Option (Bool × Bool × List Byte × List Byte) :=
  let l := gRead s c (boardOff (planD s) i r) 128
  if fieldAt l 0 8 = h.hseq ∧ fieldAt l 8 4 = h.step then
    some (bitsAt (fieldAt l 12 4) 0 1 == 1, bitsAt (fieldAt l 12 4) 1 1 == 1, (l.drop 0x20).take 32, (l.drop 0x40).take 32)
  else none

/-- The value that more than half of `n` voters hold. -/
def majority (n : Nat) (votes : List (List Byte)) : Option (List Byte) := votes.find? fun v => n < 2 * (votes.filter (· == v)).length

/-- The election of one shard: the writer with HD and FD, or none, and DIVMASK. -/
structure Elected where
  writer : Nat
  hd : List Byte
  fd : List Byte
  div : Nat
  poisoned : Bool

/-- R396 for shard i. The heads of a PRECOND shard are its holders' (log 15). -/
def elect (s : State) (c : Nat) (h : Harvest) (i : Nat) (d : Shard) : Elected :=
  let rs := List.range (nranks s)
  let voters := if d.kind = 2 then rs.filter (holds s d) else rs
  let es := voters.filterMap fun r => (entryOf s c h i r).map fun e => (r, e)
  let good := es.filter fun e => !e.2.2.1
  let hv := majority voters.length (good.map fun e => e.2.2.2.1)
  let agree := good.filter fun e => holds s d e.1 && some e.2.2.2.1 == hv
  let fv := majority agree.length (agree.map fun e => e.2.2.2.2)
  let w := (agree.find? fun e => some e.2.2.2.2 == fv).map (·.1)
  let div := voters.filter fun r => match (es.find? fun e => e.1 == r) with
    | none => true
    | some e => e.2.2.1 || some e.2.2.2.1 != hv || (holds s d r && some e.2.2.2.2 != fv)
  { writer := if hv.isNone then 0xFF else w.getD 0xFF, hd := hv.getD [], fd := fv.getD [], div := (div.map fun r => 2 ^ r).foldl (· + ·) 0
    poisoned := (es.filter fun e => holds s d e.1).all fun e => e.2.2.1 }

def elections (s : State) (c : Nat) (h : Harvest) : List (Nat × Shard × Elected) :=
  let p := planD s
  ((List.range p.shards.length).zip p.shards).map fun e => (e.1, e.2, elect s c h e.1 e.2)

/-- Table 16-4, step 4. -/
def electionPass (s : State) (c : Nat) (h : Harvest) : State :=
  let es := elections s c h
  let p := planD s
  match es.find? fun e => e.2.2.writer == 0xFF with
  | some _ => harvestEnd s c dFAULTED (if (es.filter fun e => e.2.2.writer == 0xFF).any (fun e => e.2.2.poisoned) then stUNCORR else stDIGEST)
  | none =>
    let s1 := es.foldl (fun s e => gWrite s c (writOff p e.1)
      (leBytes 8 h.hseq ++ leBytes 4 e.1 ++ leBytes 1 e.2.2.writer ++ fillBytes 3 0 ++ leBytes 8 e.2.2.div ++ fillBytes 8 0)) s
    writeRank (s1.modHarvest c fun h => { h with electedAt := s.now }) c 3 0

/-- The writer of shard i, by the writ. -/
def writOf (s : State) (c i : Nat) : Nat × Nat :=
  let l := gRead s c (writOff (planD s) i) 32
  (fieldAt l 0x0C 1, fieldAt l 0x10 8)

/-! ### Write pass and commit (Table 16-4, steps 5 to 7) -/

/-- The write pass of rank r. -/
def writePass (s : State) (c : Nat) (h : Harvest) (r : Nat) : State :=
  let p := planD s
  let mine := ((List.range p.shards.length).zip p.shards).filter fun e => (writOf s c e.1).1 == r
  if mine.any fun e => isPoisoned s e.2.addr e.2.len then
    harvestEnd (mine.foldl (fun s e => noteBad s e.2.addr e.2.len) s) c dFAULTED stUNCORR
  else
    let s1 := mine.foldl (fun t e =>
      let l := readMem s e.2.addr e.2.len
      gWrite (gWrite (readIn t e.2.addr e.2.len) c (dataOff p + e.2.off) l) c (recOff p e.1)
        (leBytes 8 h.hseq ++ leBytes 4 h.step ++ leBytes 4 e.1 ++ leBytes 8 l.length ++ leBytes 8 s.now ++ fullDigest h.step e.1 e.2 l)) s
    writeRank (s1.modHarvest c fun h => { h with won := mine.map (·.1) }) c 4 0

/-- The shards whose record does not agree with the writ and the board. -/
def badRecords (s : State) (c : Nat) (h : Harvest) : Bool :=
  (elections s c h).any fun e =>
    let l := gRead s c (recOff (planD s) e.1) 64
    fieldAt l 0 8 != h.hseq || fieldAt l 8 4 != h.step || fieldAt l 12 4 != e.1 || fieldAt l 0x10 8 != e.2.1.len || (l.drop 0x20).take 32 != e.2.2.fd

def holderMask (s : State) (d : Shard) : Nat := (((List.range (nranks s)).filter (holds s d)).map fun r => 2 ^ r).foldl (· + ·) 0

/-- R398: the manifest. -/
def manifestBytes (s : State) (c : Nat) (h : Harvest) : List Byte :=
  let p := planD s
  let es := elections s c h
  let v2 := h.manver == 2
  let dv := v2 && es.any fun e => e.2.2.div != 0
  leBytes 2 h.manver ++ leBytes 2 (nranks s) ++ leBytes 4 p.shards.length ++ leBytes 8 h.hseq ++ leBytes 4 h.step ++ leBytes 4 (b2n dv)
    ++ leBytes 8 h.electedAt ++ ((imageD s).digest.take 32 ++ fillBytes (32 - (imageD s).digest.length) 0) ++ planDigest p ++ fillBytes 32 0
    ++ es.flatMap fun e =>
      leBytes 4 e.1 ++ leBytes 1 e.2.1.kind ++ leBytes 1 e.2.2.writer ++ leBytes 2 0 ++ leBytes 4 (fieldAt (gRead s c (recOff p e.1) 64) 8 4)
        ++ leBytes 4 0 ++ leBytes 8 e.2.1.off ++ leBytes 8 e.2.1.len ++ leBytes 8 (if v2 then e.2.2.div else 0) ++ leBytes 8 (holderMask s e.2.1)
        ++ fillBytes 16 0 ++ e.2.2.fd ++ e.2.2.hd

/-- Table 16-4, step 6: the manifest, once the records agree. -/
def manifestPass (s : State) (c : Nat) (h : Harvest) : State :=
  if badRecords s c h then harvestEnd s c dFAULTED stDIGEST
  else (gWrite s c 64 (manifestBytes s c h)).modHarvest c fun h => { h with st := 6 }

/-- R397: the commit record, once the manifest is visible. -/
def commitPass (s : State) (c : Nat) (h : Harvest) : State :=
  let n := 128 + 128 * (planD s).shards.length
  (gWrite s c 0 (leBytes 8 1 ++ leBytes 8 h.hseq ++ leBytes 4 h.step ++ leBytes 4 n ++ leBytes 8 s.now ++ digest 0 0 0 3 (gRead s c 64 n))).modHarvest c
    fun h => { h with st := 7 }

/-- Table 16-8: whether the commit record of this HSEQ is there, and the harvest settles. -/
def committed (s : State) (c : Nat) (h : Harvest) : Bool :=
  let r := parseCommit (gRead s c 0 64)
  r.valid && r.hseq == h.hseq

def diverged (s : State) (c : Nat) : Bool := (List.range (planD s).shards.length).any fun i => (writOf s c i).2 != 0

/-- R391, R393: the store header as the plan gives it. -/
def headerBytes (p : Plan) : List Byte :=
  leBytes 8 (1 + 0x10000 + (p.g - 1) * 2 ^ 32 + (p.shards.length - 1) * 2 ^ 48) ++ leBytes 8 (genSize p) ++ leBytes 8 (dataSize p) ++ planDigest p
    ++ fillBytes 8 0

/-- R393: the header and the commit records. -/
def openStore (s : State) (c r : Nat) : State :=
  let p := planD s
  let l := hRead s c 0 64
  if fieldAt l 0 8 % 2 = 0 then if r = 0 then storeWrite s c 0 (headerBytes p) else s
  else if (l.drop 0x18).take 32 != planDigest p || bitsAt (fieldAt l 0 8) 32 4 != p.g - 1 || bitsAt (fieldAt l 0 8) 48 16 != p.shards.length - 1 then
    harvestEnd s c dFAULTED stWRONG
  else
    let top := (completeSlots p.g (genSize p) (hRead s c)).foldl (fun m e => max m e.2) 0
    s.modHarvest c fun h => { h with hseq := top + 1, gen := (top + 1) % p.g }

/-- The first failure that other ranks' records show. -/
def peerFailure (s : State) (c : Nat) (h : Harvest) : Option Nat :=
  (List.range (nranks s)).findSome? fun r =>
    let (st, status, step) := rankState s c h r
    if st = 5 then some status else if st ≠ 0 ∧ step ≠ h.step then some stSTEP else none

/-- Whether the store cannot be reached, and the status (R391, R317). -/
def storeLost (s : State) (c : Nat) (h : Harvest) : Option Nat :=
  if h.store / 2 ^ 48 = 0xFFFE then
    if !s.cxl.up then some stLINK else if !inRegion (s.ctx c) (h.store % 2 ^ 48) 64 false then some stWINDOW
    else if (spanLines 64 (h.store % 2 ^ 48) 64).any s.hostPoison.contains then some stUNCORR else none
  else if (routePort s (h.store / 2 ^ 48)).isNone then some stLINK else none

/-- What one rank does next (Table 16-4). -/
def harvestStep (s : State) (c : Nat) : State :=
  match (s.ctx c).harvest, myRank s with
  | some h, some r =>
    if !h.begun then s
    else match h.failed.or (storeLost s c h) with
      | some st => harvestEnd s c dFAULTED st
      | none =>
        if !storeQuiet s c then s
        else if h.hseq = 0 then openStore s c r
        else match (if h.st = 0 then none else peerFailure s c h) with
          | some st => harvestEnd s c dFAULTED st
          | none =>
            if h.st = 0 then writeRank (if r = 0 then gWrite s c 0 (fillBytes 64 0) else s) c 1 0
            else if h.st = 1 then digestPass s c h r
            else if h.st = 2 then
              if r = 0 then (if allRanks s c h 2 then electionPass s c h else s)
              else if (rankState s c h 0).1 = 3 ∨ (rankState s c h 0).1 = 4 then writePass s c h r else s
            else if h.st = 3 then writePass s c h r
            else
              let s1 := if h.hold && allRanks s c h 2 then s.modHarvest c fun h => { h with hold := false } else s
              if h.st = 4 ∧ r = 0 ∧ allRanks s c h 4 then manifestPass s1 c h
              else if h.st = 6 then commitPass s1 c h
              else if committed s c h then harvestEnd s1 c dDONE (if diverged s c then stDIGEST else stOK) else s1
  | _, _ => s

/-- One poll: the rank goes on while its own writes are visible at once. -/
def harvestLoop (c : Nat) : Nat → State → State
  | 0, s => s
  | fuel + 1, s => harvestLoop c fuel (flushStore (harvestStep s c) c)

/-- What a poll read of the store. -/
def seeStore (s : State) (c : Nat) (seen : Cells) : State :=
  match (s.ctx c).harvest with
  | none => s
  | some h => if h.store / 2 ^ 48 = 0xFFFE then applyHost s seen
      else s.modHarvest c fun h => { h with view := seen.foldl (fun m e => tput 0 m e.1 e.2) h.view }

/-- HARVEST_POLL. -/
def harvestPoll (s : State) (c : Nat) (seen : Cells) : State := harvestLoop c 12 (flushStore (seeStore s c seen) c)

/-- HARVEST_TIMEOUT. -/
def harvestTimeout (s : State) (c : Nat) : State :=
  match (s.ctx c).harvest with
  | some h => if h.begun then harvestEnd (reach s (h.at0 + (planD s).htimeout * 1000000000)) c dEXPIRED stEXPIRED else s
  | none => s

/-- R395: a store write is answered. -/
def storeAck (s : State) (c st : Nat) : State :=
  if st = stOK then s else s.modHarvest c fun h => { h with failed := some (h.failed.getD st) }

/-! ### RESTORE (R400 to R403) -/

/-- A restore's reader: bytes of the store, or the status of a read that fails. -/
def restoreRead (s : State) (c store : Nat) (view : Tab Byte) (lost : List (Nat × Nat × Nat)) (off n : Nat) : Except Nat (List Byte) :=
  match lost.find? fun e => meets (e.1, e.2.1) (off, n) with
  | some e => .error e.2.2
  | none =>
    if store / 2 ^ 48 = 0xFFFE then readExt s c (store % 2 ^ 48 + off) n
    else if (routePort s (store / 2 ^ 48)).isNone then .error stLINK else .ok (storeRead s store view off n)

/-- R400: the heads of a shard's bed groups, each with a tail of zeros. -/
def readHeads (rd : Nat → Nat → Except Nat (List Byte)) (off n : Nat) : Except Nat (List Byte) :=
  (List.range (n / 16384)).foldlM (fun l i => (rd (off + 16384 * i) 0xC00).map fun b => l ++ b ++ fillBytes (16384 - 0xC00) 0) []

/-- The entries that a shard gives under a manifest (Table 16-9): none, or its reason. -/
def shardReason (s : State) (p : Plan) (rank hseq step i : Nat) (d : Shard) (body : List Byte) (rd : Nat → Nat → Except Nat (List Byte)) : Option Nat :=
  let ent := (body.drop (128 + 128 * i)).take 128
  let need := holds s d rank
  if !need && d.kind != 1 then none
  else match rd (recOff p i) 64, (if need then rd (dataOff p + d.off) d.len else readHeads rd (dataOff p + d.off) d.len) with
    | .ok r, .ok l =>
      if fieldAt r 0 8 ≠ hseq then some 5
      else if fieldAt r 8 4 ≠ step ∨ fieldAt ent 8 4 ≠ step then some 1
      else if need then (if fullDigest step i d l = (ent.drop 0x40).take 32 then none else some 2)
      else if headDigest step i d l = (ent.drop 0x60).take 32 then none else some 3
    | .ok r, .error _ => if fieldAt r 0 8 ≠ hseq then some 5 else some 4
    | .error _, _ => some 4

/-- The entries of one manifest: its shards' reasons, or 0x10 for the whole. -/
def manifestReasons (s : State) (p : Plan) (rank : Nat) (rd : Nat → Nat → Except Nat (List Byte)) : Nat × Nat × List (Nat × Nat) :=
  match rd 0 64 with
  | .error _ => (0, 0, [(0xFFFFFFFF, 0x10)])
  | .ok cr =>
    let r := parseCommit cr
    match rd 64 r.bodylen with
    | .error _ => (r.hseq, r.step, [(0xFFFFFFFF, 0x10)])
    | .ok body =>
      let ver := fieldAt body 0 2
      let img := (imageD s).digest.take 32 ++ fillBytes (32 - (imageD s).digest.length) 0
      if r.digest ≠ digest 0 0 0 3 body ∨ r.hseq ≠ fieldAt body 8 8 ∨ (ver ≠ 1 ∧ ver ≠ 2) ∨ (body.drop 0x20).take 32 ≠ img
          ∨ (body.drop 0x40).take 32 ≠ planDigest p ∨ fieldAt body 0x10 4 ≠ r.step then (r.hseq, r.step, [(0xFFFFFFFF, 0x10)])
      else (r.hseq, r.step, ((List.range p.shards.length).zip p.shards).filterMap fun e =>
        (shardReason s p rank r.hseq r.step e.1 e.2 body rd).map fun x => (e.1, x))

/-- Insert a slot in descending HSEQ order. -/
def insertSlot (a : Nat × Nat) : List (Nat × Nat) → List (Nat × Nat)
  | [] => [a]
  | b :: t => if b.2 < a.2 then a :: b :: t else b :: insertSlot a t

/-- The first manifest that passes, with the entries of those tried before it: slot, HSEQ, STEP. -/
def tryManifests (f : Nat → Nat × Nat × List (Nat × Nat)) : List (Nat × Nat) → Option (Nat × Nat × Nat) × List (Nat × Nat × Nat)
  | [] => (none, [])
  | (g, _) :: t =>
    let (hseq, step, bad) := f g
    if bad.isEmpty then (some (g, hseq, step), [])
    else
      let (r, l) := tryManifests f t
      (r, bad.map (fun e => (hseq, e.1, e.2)) ++ l)

/-- R403: the list, cut to the space. -/
def badList (n hseq : Nat) (es : List (Nat × Nat × Nat)) : List Byte :=
  let k := min es.length ((n - 32) / 16)
  (leBytes 4 es.length ++ leBytes 4 k ++ leBytes 8 hseq ++ fillBytes 16 0
    ++ (es.take k).flatMap fun e => leBytes 8 e.1 ++ leBytes 4 e.2.1 ++ leBytes 1 e.2.2 ++ fillBytes 3 0).take n

/-- The stage state with the shards that the rank needs (R401, R402): local memory as a load that meets nothing leaves it. -/
def loadShards (s : State) (p : Plan) (rank : Nat) (rd : Nat → Nat → List Byte) : State :=
  p.shards.foldl (fun s d =>
    let l := rd (dataOff p + d.off) d.len
    if holds s d rank then writeMem s d.addr l
    else if d.kind = 1 then (List.range (d.len / 16384)).foldl (fun s i => writeMem s (d.addr + 16384 * i) ((l.drop (16384 * i)).take 0xC00)) s
    else s) s

/-- R402: the pieces that a load writes: offset in the store's generation, local address, bytes. -/
def loadPieces (s : State) (p : Plan) (rank : Nat) (d : Shard) : List (Nat × Nat × Nat) :=
  let beds (n : Nat) : List (Nat × Nat × Nat) := (List.range (d.len / 16384)).map fun i => (dataOff p + d.off + 16384 * i, d.addr + 16384 * i, n)
  if d.kind = 1 then beds (if holds s d rank then 16384 else 0xC00)
  else if holds s d rank then [(dataOff p + d.off, d.addr, d.len)] else []

/-- R402: the second read of a shard's pieces fails, or differs from the first, at the end of the shard. -/
def loadFault (verify second : Nat → Nat → Except Nat (List Byte)) (l : List (Nat × Nat × Nat)) : Option Nat :=
  match l.findSome? fun e => match second e.1 e.2.2 with | .error st => some st | .ok _ => none with
  | some st => some st
  | none =>
    let same (e : Nat × Nat × Nat) : Bool := match verify e.1 e.2.2, second e.1 e.2.2 with | .ok a, .ok b => a == b | _, _ => false
    if l.all same then none else some stDIGEST

/-- R402: a load that meets a failure: the pieces up to it are written as the second read gives them, and its status. -/
def loadBroken (s : State) (p : Plan) (rank : Nat) (verify second : Nat → Nat → Except Nat (List Byte)) : Option (State × Nat) :=
  match p.shards.findSome? fun d => loadFault verify second (loadPieces s p rank d) with
  | none => none
  | some st =>
    let whole := p.shards.takeWhile fun d => (loadFault verify second (loadPieces s p rank d)).isNone
    let last := ((p.shards.drop whole.length).take 1).flatMap fun d =>
      (loadPieces s p rank d).takeWhile fun e => match second e.1 e.2.2 with | .ok _ => true | .error _ => false
    some ((whole.flatMap (loadPieces s p rank) ++ last).foldl (fun s e => match second e.1 e.2.2 with
      | .ok b => writeMem s e.2.1 b
      | .error _ => s) s, st)

/-- The groups whose records lie in GROUPS shards. -/
def shardedGroups (s : State) (p : Plan) : List Nat :=
  (List.range (groupCount s)).filter fun g => inRanges ((p.shards.filter fun d => d.kind == 3).map fun d => (d.addr, d.len)) (groupAt s g) 128

/-- R401: C of a group. -/
def expectedCount (step : Nat) (x : GroupRec) : Nat := (step + 1 + 2 ^ 32 - x.offset) % 2 ^ 32

/-- The checked beds of the held shards whose STEP differs, with their groups; `s` holds the loaded state. -/
def bedMismatches (s : State) (p : Plan) (rank step : Nat) : List (Nat × Nat × Nat) :=
  ((p.shards.filter fun d => d.kind == 1 && holds s d rank).flatMap fun d => countFrom 0 (d.len / 16384) |>.map fun i => d.addr + 16384 * i).flatMap fun bed =>
    (List.range 16).filterMap fun k =>
      let h := bedHdr s bed k
      let x := groupRec s h.group
      if !h.valid || h.frozen || groupFrozen s h.group || h.step == expectedCount step x then none else some (bed, k, h.group)

/-- The groups whose COUNT differs. -/
def countMismatches (s : State) (p : Plan) (step : Nat) : List Nat :=
  (shardedGroups s p).filter fun g => let x := groupRec s g; x.enabled && !x.freeze && x.count != expectedCount step x

/-- R401, ADOPT: the counters that are set. -/
def adoptCounts (s : State) (step : Nat) (gs : List Nat) (beds : List (Nat × Nat × Nat)) : State :=
  let s1 := beds.foldl (fun s e => writeLE s (tailAt e.1 e.2.1 + 4) 4 (expectedCount step (groupRec s e.2.2))) s
  gs.foldl (fun s g => writeLE s (groupAt s g + 8) 4 (expectedCount step (groupRec s g))) s1

/-- R402: FREEZE and RHOLD in every enabled group that had FREEZE = 0. -/
def holdGroups (s : State) : State :=
  ((enabledGroups s).filter fun g => !(groupRec s g).freeze).foldl (fun s g =>
    let b := readLE s (groupAt s g) 1
    writeMem s (groupAt s g) (leBytes 1 (setBits (setBits b 1 1 1) 7 1 1))) s

/-- RESTORE: `k.reads` is what it reads of its store. -/
def startRestore (s : State) (c : Nat) (k : Cmd) : State :=
  let x := s.ctx c
  let store := k.fld 0 8
  let adopt := bitsAt (k.fld 0x0A 1) 0 1 == 1
  let dest := k.fld 0x10 8
  let room := k.fld 0x18 4
  let host := store / 2 ^ 48 == 0xFFFE
  if parRsvd k [(0, 11), (0x10, 12)] || periodBad x k || decide (1 < k.fld 0x0A 1) || store / 2 ^ 48 == s.salt.node || store / 2 ^ 48 == 0xFFFF
      || store % 64 != 0 || decide (16383 < k.fld 8 2) then refuse s c k.aseq stBADPARAM
  else if x.sweep.isSome || x.harvest.isSome then refuse s c k.aseq stBUSY
  else match s.image.bind Image.plan, myRank s with
    | some p, some rank =>
      let s0 := if host then applyHost s k.reads.seen else s
      let view : Tab Byte := k.reads.seen.foldl (fun m e => tput 0 m e.1 e.2) []
      let rd := restoreRead s0 c store view k.reads.lost
      let second := restoreRead (if host then applyHost s0 k.reads.again else s0) c store (k.reads.again.foldl (fun m e => tput 0 m e.1 e.2) view) k.reads.lostAgain
      let finish (s1 : State) (hseq : Nat) (es : List (Nat × Nat × Nat)) (f : State → State) : State :=
        if room = 0 then f s1
        else match putDest s1 c c dest (badList room hseq es) false with
          | .error st => refuse s0 c k.aseq st
          | .ok s2 => f s2
      match rd 0 64 with
      | .error st => finish s0 0 [] fun t => refuse t c k.aseq st
      | .ok hd =>
        let size := fieldAt hd 8 8
        let slots : List (Nat × Nat) := if fieldAt hd 0 8 % 2 = 0 then [] else
          ((List.range (bitsAt (fieldAt hd 0 8) 32 4 + 1)).filterMap fun g => match rd (genOff size g) 64 with
            | .ok l => if (parseCommit l).valid then some (g, (parseCommit l).hseq) else none
            | .error _ => none).foldr insertSlot []
        let (found, bad) := tryManifests (fun g => manifestReasons s0 p rank fun o n => rd (genOff size g + o) n) slots
        match found with
        | none => finish s0 0 bad fun t => refuse t c k.aseq stSTEP
        | some (g, hseq, step) =>
          let s1 := loadShards s0 p rank fun o n => storeRead s0 store view (genOff size g + o) n
          let gs := countMismatches s1 p step
          let bs := bedMismatches s1 p rank step
          let all := (gs ++ bs.map fun e => e.2.2).eraseDups
          if !all.isEmpty && !adopt then
            finish s0 hseq (bad ++ all.map fun n => (hseq, n, 0x20)) fun t => refuse t c k.aseq stSTEP
          else match loadBroken s0 p rank (fun o n => rd (genOff size g + o) n) (fun o n => second (genOff size g + o) n) with
            | some (s2, st) => finish s2 hseq bad fun t => refuse t c k.aseq st
            | none =>
              finish (holdGroups (adoptCounts s1 step gs bs)) hseq bad fun t =>
                settle (t.modCtx c fun x => { x with lastStep := some step, restored := some step }) c k.aseq dDONE stOK step
    | _, _ => refuse s c k.aseq stWRONG

end Sys2Proof.Machine
end

