-- ==== Sys2Proof/Machine/Regs.lean ====
section
/-! DEFINITION. The register map (R127 and the register tables of every chapter): what a read of each address returns. Reads
here have no side effect; the RC field FMT_SATCNT is cleared only by FMT_SATCNT_READ. -/

namespace Sys2Proof.Machine

/-- A register from its fields: lowest bit, width and value. -/
def fields (l : List (Nat × Nat × Nat)) : Nat := (l.map fun e => e.2.2 % 2 ^ e.2.1 * 2 ^ e.1).foldl (· + ·) 0

/-! ### Core blocks (R127, R51, R74, R75, R91, R111, R112, R147, R267, R308, R386) -/

/-- Table 6-7. -/
def CoreMode.code : CoreMode → Nat
  | .idle => 0
  | .running => 1
  | .stopping => 2
  | .saving => 3
  | .restoring => 4
  | .tearing => 5
  | .fenced => 6

/-- A stationary or resident buffer's state: `op` loads it and `use` uses it. -/
def bufCode (r : Run) (full : Bool) (op use b : Nat) : Nat :=
  if r.q.any fun e => e.gate.isNone && wOp e.word == op && wf e.word 8 1 == b && e.done then 1
  else if r.q.any fun e => e.gate.isNone && wOp e.word == use && wf e.word 8 1 == b && (e.done || !e.taken.isEmpty) then 3
  else if full then 2 else 0

/-- A bank's state in Table 3-10. -/
def bankCode (r : Run) (b : Nat) : Nat :=
  let on (op : Nat) : Bool := r.q.any fun e => e.gate.isNone && wOp e.word == op && (banksOf e.word).contains b && (e.done || !e.taken.isEmpty)
  if on 3 then 2 else if on 4 then 3 else if on 2 then 1 else 0

def vecsIn (l : List InItem) : Nat := (l.filter fun i => match i with | .vec _ _ => true | .mark => false).length

/-- INSTQ (Tables 3-9, 5-11): the entries of the queue that unit `u` takes words from. -/
def entriesOf (r : Run) (u : Nat) : Nat := (r.q.filter fun e => (queueOf u).contains e.unit && !e.away).length

/-- ARR_STATUS (Table 3-9). -/
def arrStatus (s : State) (n : Nat) : Nat :=
  let r := (s.core n).run
  fields [(0, 2, bufCode r r.eng.sb0.full 1 2 0), (2, 2, bufCode r r.eng.sb1.full 1 2 1), (4, 2, bankCode r 0), (6, 2, bankCode r 1), (8, 2, bankCode r 2)
    , (10, 2, bankCode r 3), (12, 7, vecsIn r.eng.intake), (19, 4, entriesOf r 1), (23, 3, s.plotsz)
    , (26, 5, n / plotSize s.plotsz), (31, 1, b2n ((s.core n).mode == .fenced))]

/-- FUR_STATUS (Table 5-11). -/
def furStatus (s : State) (n : Nat) : Nat :=
  let r := (s.core n).run
  let on (op : Nat) : Bool := r.q.any fun e => e.gate.isNone && wOp e.word == op && (e.done || !e.taken.isEmpty)
  fields [(0, 2, bufCode r r.eng.rb0.full 0x21 0x22 0), (2, 2, bufCode r r.eng.rb1.full 0x21 0x22 1), (4, 2, if on 0x23 then 2 else if on 0x22 then 1 else 0)
    , (6, 6, vecsIn r.eng.direct), (12, 4, entriesOf r 4), (16, 1, b2n (r.mov1.rings.any fun g => g.live.any Desc.streaming))]

/-- Mover registers (Tables 12-19, 12-20). -/
def moverReg (s : State) (n m off : Nat) : Nat :=
  let x := s.mover n m
  let bits (f : Ring → Bool) : Nat := ((List.range 4).map fun r => b2n (f (x.rings.getD r {})) * 2 ^ r).foldl (· + ·) 0
  if off = 0 then fields [(0, 4, bits Ring.bound), (4, 4, bits Ring.halted), (8, 7, moverOut s n m), (15, 1, b2n (x.rings.any fun g => g.live.any Desc.streaming))]
  else if off = 8 then fields [(0, 16, x.haltCause), (16, 16, x.haltIndex), (32, 2, x.haltRing)]
  else if off = 0x10 then x.bytes else if off = 0x18 then x.retries else if off = 0x20 then x.nocredit else if off = 0x28 then x.halts
  else if off = 0x30 then ((List.range 4).map fun r => (x.rings.getD r {}).next % 2 ^ (x.rings.getD r {}).log2n % 65536 * 2 ^ (16 * r)).foldl (· + ·) 0
  else 0

/-- Peg unit registers (Table 11-9). -/
def pegUnitReg (s : State) (n off : Nat) : Nat :=
  let u := (s.core n).run.peg
  let slot (i : Nat) : Option PhaseSlot := (u.slots.getD i none)
  let sum (f : Nat → Nat) : Nat := ((List.range 4).map f).foldl (· + ·) 0
  if off = 0x380 then fields [(0, 3, u.state), (3, 12, u.vpid), (15, 4, sum fun i => b2n (slot i).isSome * 2 ^ i)
    , (19, 4, sum fun i => b2n (((slot i).map PhaseSlot.sense).getD false) * 2 ^ i), (32, 32, u.thresh)]
  else if off = 0x388 then sum fun i => ((slot i).map PhaseSlot.vpid).getD 0 % 4096 * 2 ^ (12 * i)
  else fields [(0, 16, u.refStatus), (16, 16, u.refNode), (32, 12, u.refVpid)]

/-- Core n's register block at a doubleword offset. -/
def coreReg (s : State) (n off : Nat) : Nat :=
  let c := s.core n
  let r := c.run
  let e := r.eng
  let f := c.fault
  if off = 0x000 then fields [(0, 12, c.ctx), (12, 3, c.mode.code), (15, 1, b2n c.resFull), (16, 12, c.resCtx)]
  else if off = 0x008 then r.progPc
  else if off = 0x010 then fields [(0, 16, r.rowBase), (16, 16, r.rowCount)]
  else if 0x040 ≤ off ∧ off < 0x090 then fields [(0, 32, tget 0 r.issued ((off - 0x40) / 8 + 1)), (32, 32, tget 0 r.done ((off - 0x40) / 8 + 1))]
  else if 0x0C0 ≤ off ∧ off < 0x140 then (tget 0 r.seeds ((off - 0xC0) / 8)).toNat
  else if off = 0x140 then fields [(0, 8, f.cause), (8, 4, f.unit), (12, 1, b2n f.multi), (16, 12, f.ctx), (31, 1, b2n f.valid)]
  else if off = 0x148 then f.pc
  else if off = 0x150 then f.word.toNat % 2 ^ 64
  else if off = 0x158 then f.word.toNat / 2 ^ 64
  else if off = 0x160 then f.data.toNat
  else if off = 0x168 then fields [(0, 20, c.stopNs), (20, 20, c.saveNs), (40, 1, b2n c.saveTarget), (41, 1, b2n c.nonpre)]
  else if off = 0x180 then e.flags.toNat + e.trap.toNat * 2 ^ 32
  else if off = 0x188 then e.satcnt
  else if off = 0x240 then c.rate
  else if off = 0x248 then arrStatus s n
  else if off = 0x250 then fields [(0, 16, e.pass01), (16, 16, e.pass23)]
  else if off = 0x2A8 then furStatus s n
  else if off = 0x300 then fields [(0, 1, b2n s.spSplit), (1, 1, b2n s.spReserve)]
  else if off = 0x308 then c.spCe + tget 0 e.ctr 0x308
  else if off = 0x310 then c.spUe + tget 0 e.ctr 0x310
  else if off = 0x318 then fields [(0, 16, c.ueRow), (16, 1, b2n c.ueControl), (17, 1, b2n c.ueWeed), (31, 1, b2n c.ueValid)
    , (32, 16, (s.badRows.filter fun k => k / 49152 == n).length)]
  else if off = 0x320 then fields [(0, 32, c.weedPasses), (32, 32, c.weedForced)]
  else if 0x380 ≤ off ∧ off < 0x398 then pegUnitReg s n off
  else if 0x400 ≤ off ∧ off < 0x440 then moverReg s n 0 (off - 0x400)
  else if 0x440 ≤ off ∧ off < 0x480 then moverReg s n 1 (off - 0x440)
  else if off = 0x500 then fields [(0, 16, ofSigned 16 c.temp), (16, 1, b2n c.tempFail)]
  else tget 0 e.ctr off

/-! ### Memory and trays (R156, R186) -/

def memReg (s : State) (off : Nat) : Nat :=
  if off = 0x10 then s.wbytes else if off = 0x18 then s.obytes
  else if 0x1000 ≤ off ∧ off < 0x1300 then tget 0 s.chanEcc ((off - 0x1000) / 8)
  else if 0x2000 ≤ off ∧ off < 0x4000 then
    let t := (off - 0x2000) / 8
    fields [(0, 3, tget 0 s.tractModes t), (3, 1, b2n (decide (t < 5)))]
  else 0

def slotReg (x : Slot) : Nat := fields [(0, 17, x.pktAvail), (17, 1, b2n x.enabled), (18, 28, x.wordAvail)]
def limitReg (x : Slot) : Nat := fields [(0, 17, x.pktLimit), (18, 28, x.wordLimit), (48, 16, x.node)]

def trayReg (s : State) (n off : Nat) : Nat :=
  let t := s.tray n
  let cnt (f : Packet → Bool) : Nat := (t.packets.filter f).length
  if off = 0x00 then fields [(0, 2, t.kind), (2, 1, b2n t.readmode), (3, 2, t.fmtver), (5, 3, t.pmin), (8, 3, t.pmax), (11, 1, b2n t.periodic), (12, 12, t.ctx)
    , (24, 17, t.maxpkt), (41, 17, t.timeout)]
  else if off = 0x08 then fields [(0, 48, t.base), (48, 16, t.mib)]
  else if off = 0x10 then fields [(0, 17, cnt fun p => p.st == .ready), (17, 17, cnt fun p => p.st == .claimed || p.st == .held), (34, 10, cnt fun p => p.st == .open)
    , (44, 3, t.waiters.length), (47, 1, b2n t.broken)]
  else if off = 0x18 then fields [(0, 32, t.words), (32, 17, cnt fun p => p.st != .gone)]
  else if off = 0x20 then t.commits else if off = 0x28 then t.lost else if off = 0x30 then t.rewound else if off = 0x38 then t.nocredit
  else if 0x40 ≤ off ∧ off < 0xC0 then slotReg (t.slot ((off - 0x40) / 8))
  else if 0xC0 ≤ off ∧ off < 0x140 then limitReg (t.slot ((off - 0xC0) / 8))
  else if 0x140 ≤ off ∧ off < 0x180 then
    let i := (off - 0x140) / 8
    (t.slot (2 * i)).last % 2 ^ 32 + (t.slot (2 * i + 1)).last % 2 ^ 32 * 2 ^ 32
  else 0

def poolReg (s : State) : Nat :=
  let l := (freeRanges s).map fun r => r.2 / 0x100000
  fields [(0, 32, l.foldl (· + ·) 0), (32, 32, l.foldl max 0)]

/-! ### Schedule, rakes and pegs (R212, R241, R267) -/

def schedReg (s : State) (off : Nat) : Nat :=
  if off = 0 then fields [(0, 32, s.schedStep), (32, 3, s.schedPhase)]
  else if off = 8 then match s.image with
    | some im => fields [(0, 16, im.stashSlots), (16, 16, s.stash.length), (32, 16, im.window), (48, 16, im.depth)]
    | none => 0
  else if off = 0x10 then fields [(0, 3, s.plotsz), (3, 3, s.plotNext), (6, 1, b2n s.plotWait)]
  else if off = 0x18 then s.reconf else 0

def ctxSchedReg (s : State) (c off : Nat) : Nat :=
  let x := s.ctx c
  if off = 0 then x.periodNo % 2 ^ 32 else if off = 8 then x.tend
  else if off = 0x10 then fields [(0, 13, (x.seqs.filter fun q => q.st ≥ 3).length), (13, 13, (x.seqs.filter fun q => q.st == 2).length)]
  else if off = 0x18 then fields [(0, 32, (x.kvLocal * 0x100000 - kvUsed x) / 0x100000), (32, 32, (farPool x - kvFarUsed x) / 0x100000)]
  else if off = 0x20 then x.expired else if off = 0x28 then x.defers else if off = 0x30 then x.steps else 0

def rakeReg (s : State) (r off : Nat) : Nat :=
  let k := s.rake r
  if off = 0 then fields [(0, 4, k.queue.length), (4, 3, k.gram.length), (7, 1, b2n s.rphase.active), (8, 1, b2n (s.rphase.counted && !k.refresh.isEmpty)), (9, 1, b2n k.halted)
    , (32, 32, if s.rphase.active then s.rphase.step else ((s.lastPhase.map (·.2)).getD 0))]
  else tget 0 k.ctr off

def pegReg (s : State) (off : Nat) : Nat := if off = 0 then fields [(0, 19, pegsFree s), (19, 1, b2n s.pegEpoch)] else tget 0 s.pegCtr off

/-! ### Saltpan, Trellis, start, faults, security and self-test (R306, R307, R386, R387, R424, R448, R468, R480) -/

def saltReg (s : State) (off : Nat) : Nat :=
  let x := s.salt
  if off = 0 then x.node
  else if off = 8 then fields [(0, 17, x.rspTimeout), (17, 1, b2n x.routeEpoch), (18, 1, b2n x.winEpoch)]
  else if off = 0x10 then x.late else if off = 0x18 then x.noroute else if off = 0x20 then x.winref else if off = 0x28 then x.swaps
  else if off = 0x30 then x.badmsg
  else if 0x100 ≤ off ∧ off < 0x300 then
    let p := s.port ((off - 0x100) / 0x40)
    let o := (off - 0x100) % 0x40
    if o = 0 then fields [(0, 3, p.state), (3, 2, p.version), (5, 4, p.lanes), (9, 1, b2n p.encrypt), (10, 1, b2n p.transit), (32, 16, p.peer)]
    else if o = 8 then p.fec else if o = 0x10 then p.replayCtr else if o = 0x18 then p.retrainCtr else if o = 0x20 then p.txb
    else if o = 0x28 then p.rxb else if o = 0x30 then p.crcCtr else 0
  else 0

def trellisReg (s : State) (off : Nat) : Nat :=
  let t := s.trellis
  if off = 0 then fields [(0, 2, t.heat), (2, 1, b2n t.ramping), (3, 1, b2n t.avserr), (4, 10, t.vtarget), (14, 10, t.vmeas), (24, 8, ofSigned 8 t.tmax)
    , (32, 16, t.pavg / 1000), (48, 16, t.plimit)]
  else if off = 8 then fields [(0, 10, t.vfloor), (10, 10, t.vceil), (20, 7, t.tjmax), (27, 10, t.floorEff), (37, 10, t.ceilEff), (47, 11, t.imeas)]
  else if off = 0x10 then t.energy / 1000 else if off = 0x18 then t.vsteps else if off = 0x20 then t.ticksHot else if off = 0x28 then t.crit
  else if off = 0x30 then t.overs else if off = 0x38 then t.preempt else if off = 0x40 then t.heatskip else if off = 0x48 then t.avserrs
  else if off = 0x50 then t.cal % 2 ^ 16 else 0

def ctxTrellisReg (s : State) (c off : Nat) : Nat :=
  let x := s.ctx c
  if off = 0 then fields [(0, 16, x.slowdown), (16, 16, x.queue), (32, 32, x.unitsWin)]
  else if off = 8 then fields [(0, 32, x.rateC), (32, 10, x.vcommit), (42, 1, b2n x.overcommit), (43, 1, b2n x.broken)]
  else if off = 0x10 then fields [(0, 32, x.carry), (32, 32, x.overTotal / 1000)]
  else if off = 0x18 then x.beats else if off = 0x20 then x.stallW else if off = 0x28 then x.stallStash else if off = 0x30 then x.stallStat
  else if off = 0x38 then x.preempts else 0

def startReg (s : State) (off : Nat) : Nat :=
  let t := s.start
  if off = 0 then fields [(0, 1, b2n t.warm), (1, 3, t.cause), (4, 4, t.phase), (8, 1, t.slot), (9, 1, b2n t.mesh), (10, 1, b2n t.nocfg), (11, 1, b2n t.selfrepair)
    , (12, 1, b2n t.retrained), (13, 1, b2n t.waitmesh), (14, 1, b2n t.recovery), (15, 1, b2n t.stopped), (16, 16, t.failst), (32, 32, t.imgver)]
  else if off = 8 then fields [(0, 16, t.tVerified), (16, 16, t.tMemup), (32, 16, t.tReady), (48, 16, t.hdr.starts)] else 0

def faultReg (s : State) (off : Nat) : Nat :=
  let f := s.faults
  let mask (l : List Nat) : Nat := (l.map fun n => 2 ^ n).foldl (· + ·) 0
  if off = 0 then fields [(0, 1, b2n f.fenceNew), (1, 1, b2n f.ueNew), (2, 1, b2n f.hwfNew), (3, 1, b2n f.jlost), (4, 1, b2n (jfull s)), (5, 1, b2n f.hostlost)
    , (6, 1, b2n f.nwait), (7, 4, f.lastCause)]
  else if off = 8 then mask (f.fenced.filter (· < 64))
  else if off = 0x10 then mask ((f.fenced.filter (64 ≤ ·)).map (· - 64))
  else if off = 0x18 then jUsed s % 2 ^ 20 else if off = 0x20 then f.lastSeq % 2 ^ 32 else if off = 0x28 then f.jfull else if off = 0x30 then f.jrepair
  else if off = 0x38 then f.recCtr else 0

/-- The security registers: attestation key derived while the identity is valid (R450, R451). -/
def secReg (s : State) (off : Nat) : Nat :=
  let d := s.ident
  if off = 0 then fields [(0, 1, b2n d.valid), (1, 1, b2n d.valid), (2, 8, ((List.range 8).map fun i => b2n (!(tget [] d.chains i).isEmpty) * 2 ^ i).foldl (· + ·) 0)
    , (10, 8, d.require), (18, 8, d.allow), (26, 8, ((List.range 8).map fun p => b2n (s.port p).encrypt * 2 ^ p).foldl (· + ·) 0)
    , (34, 1, b2n ((tget ({} : Spdm) d.links 8).st == 5))]
  else if 0x100 ≤ off ∧ off < 0x140 then (s.port ((off - 0x100) / 8)).authFail else 0

def testReg (s : State) (off : Nat) : Nat :=
  let v := s.svc
  if off = 0 then fields [(0, 8, v.lastBlock), (8, 8, v.lastTest), (16, 16, v.lastIndex), (32, 16, v.lastStatus), (48, 1, b2n (!v.running.isEmpty))
    , (49, 1, b2n v.testok), (50, 1, b2n v.lastConsole)]
  else if off = 8 then v.data else if off = 0x10 then v.passes else if off = 0x18 then v.fails else 0

/-- The doubleword at register offset `o` from local address 0x0200_0000_0000; unassigned offsets read as zero (R313). -/
def regAt (s : State) (o : Nat) : Nat :=
  if o < 0x00800000 then coreReg s (o / 0x10000) (o % 0x10000)
  else if 0x01000000 ≤ o ∧ o < 0x01004000 then memReg s (o - 0x01000000)
  else if 0x04000000 ≤ o ∧ o < 0x05000000 then trayReg s ((o - 0x04000000) / 0x200) (o % 0x200)
  else if o = 0x05000000 then fields [(0, 32, s.trayCe), (32, 16, s.trayUe), (48, 1, b2n s.trayUeNew)]
  else if o = 0x05000008 then poolReg s
  else if 0x06000000 ≤ o ∧ o < 0x06000020 then schedReg s (o - 0x06000000)
  else if 0x06100000 ≤ o ∧ o < 0x06140000 then ctxSchedReg s ((o - 0x06100000) / 0x40) (o % 0x40)
  else if 0x07000000 ≤ o ∧ o < 0x07000800 then rakeReg s ((o - 0x07000000) / 0x100) (o % 0x100)
  else if 0x07000800 ≤ o ∧ o < 0x07000840 then leNat ((s.lastRec.drop (o - 0x07000800)).take 8)
  else if 0x08000000 ≤ o ∧ o < 0x08000040 then pegReg s (o - 0x08000000)
  else if 0x09000000 ≤ o ∧ o < 0x09000300 then saltReg s (o - 0x09000000)
  else if 0x0A000000 ≤ o ∧ o < 0x0A000058 then trellisReg s (o - 0x0A000000)
  else if 0x0A100000 ≤ o ∧ o < 0x0A140000 then ctxTrellisReg s ((o - 0x0A100000) / 0x40) (o % 0x40)
  else if 0x0B000000 ≤ o ∧ o < 0x0B000010 then startReg s (o - 0x0B000000)
  else if 0x0C000000 ≤ o ∧ o < 0x0C000040 then faultReg s (o - 0x0C000000)
  else if 0x0D000000 ≤ o ∧ o < 0x0D000140 then secReg s (o - 0x0D000000)
  else if 0x0E000000 ≤ o ∧ o < 0x0E000020 then testReg s (o - 0x0E000000)
  else 0

/-! ### DEBUG_READ (R357) and the console's READ (R472) -/

/-- R357: whether a range may be read by DEBUG_READ: every address of Table 7-7 but tracts 0 to 4. -/
def debugRange (a n : Nat) : Bool :=
  (0xF0000000 ≤ a && inLp a n) || inAperture a n || (0x020000000000 ≤ a && decide (a + n ≤ 2 ^ 48))

/-- R260: where the copies of the peg records lie in Dister's log region, in tracts 0 to 3 (DESIGN CHOICE, log 90). -/
def logRegion : Nat := 0x40000000

/-- 64 bytes of LPDDR5X or scratchpad; peg records stand where R243 places them. -/
def debugLine (s : State) (l : Nat) : List Byte :=
  let a := l * 64
  if inAperture a 64 && decide (43776 ≤ apRow a) && decide (apRow a < 44032) then
    (s.peg (apCore a * 2048 + (apRow a - 43776) * 8 + a % 512 / 64)).bytes 0
  else readMem s a 64

/-- The bytes that a debug read returns. -/
def debugBytes (s : State) (a n : Nat) : List Byte :=
  if 0x020000000000 ≤ a then (List.range (n / 8)).flatMap fun i => leBytes 8 (regAt s (a - 0x020000000000 + 8 * i))
  else (((spanLines 64 a n).flatMap (debugLine s)).drop (a % 64)).take n

/-- Write host memory line by line, each with its own poison mark. -/
def putLines (s : State) (dest : Nat) (l : List (List Byte × Bool)) : State :=
  ((List.range l.length).zip l).foldl (fun s e => putHost s (dest + 64 * e.1) e.2.1 e.2.2) s

/-- DEBUG_READ. -/
def startDebugRead (s : State) (c : Nat) (k : Cmd) : State :=
  let src := k.fld 0 8
  let n := k.fld 8 4
  let dest := k.fld 0x10 8
  if parRsvd k [(0, 12), (0x10, 8)] || src % 64 != 0 || n % 64 != 0 || decide (0x1000000 < n) || !debugRange src n then refuse s c k.aseq stBADPARAM
  else if !inRegion (s.ctx c) dest n true then refuse s c k.aseq stWINDOW
  else if !s.cxl.up then refuse s c k.aseq stLINK
  else
    let lines := (List.range (n / 64)).map fun i => (debugBytes s (src + 64 * i) 64, isPoisoned s (src + 64 * i) 64)
    settle (putLines (readIn s src n) dest lines) c k.aseq dDONE (if isPoisoned s src n then stUNCORR else stOK) n

end Sys2Proof.Machine
end

