-- ==== Sys2Proof/Machine/Heat.lean ====
section
/-! DEFINITION. Heat, power and voltage (R22, R368 to R379, R384, R385): the tick of the Trellis, its AVSBus transactions, the
sensors and the heat records. Measured values are operands of their events (log 16). -/

namespace Sys2Proof.Machine

/-! ### AVSBus (R377, R378) -/

/-- R3: the package limit of the orderable code, in W. -/
def packageLimit (s : State) : Nat := if s.ident.highPower then 1500 else 1200

/-- R376: the effective ceiling; while AVSERR is set or current reads fail, CAL is 1.0. -/
def refreshCeil (s : State) : State :=
  s.modTrellis fun t => { t with ceilEff := ceiling s, cal := if t.avserr || t.curFail then 0x100 else t.cal }

/-- R378: a transaction fails for good: the first try and three retries count (log 17). -/
def avsFailed (s : State) : State :=
  refreshCeil (reportHw (s.modTrellis fun t => { t with avserr := true, vtarget := t.vacked, avserrs := t.avserrs + 4 }) 9 0)

/-- R378: a voltage read. -/
def voltageRead (s : State) (mv : Nat) : State :=
  s.modTrellis fun t =>
    let off := decide (t.vtarget + 15 < mv) || decide (mv + 15 < t.vtarget)
    { t with vmeas := mv, ramping := false, avserrs := t.avserrs + b2n off, vplan := if off then some mv else none }

/-- AVS_POLL: voltage, regulator temperature and status. -/
def avsPoll (s : State) (mv temp : Nat) (ack fault : Bool) : State :=
  if !ack then avsFailed s
  else
    let s1 := (voltageRead s mv).modTrellis fun t => { t with tavs := temp }
    if fault then avsFailed s1 else s1

/-- AVS_ALERT: the status is read at once. -/
def avsAlert (s : State) (ack fault : Bool) : State := if !ack || fault then avsFailed s else s

/-- The mean of a quantity over the ticks of the last 1 ms. -/
def tickMean (t : Trellis) (f : TickRec → Nat) : Nat := (t.ticks.map f).foldl (· + ·) 0 / max 1 t.ticks.length

/-- R374: CAL, the measured over the modelled core-rail power of the last 1 ms, within 0.5 to 2.0, in 8.8 fixed point; the last one stays
while nothing has been modelled. -/
def calOf (t : Trellis) : Nat :=
  let measured := t.amps.foldl (· + ·) 0 * (if t.vmeas = 0 then t.vtarget else t.vmeas) / max 1 t.amps.length
  let modelled := tickMean t TickRec.rail / 10
  if modelled = 0 then t.cal else max 0x80 (min 0x200 (measured * 256 / modelled))

/-- R377, R413: a current in the unit of the configuration record, in A (rounded down, log 16). -/
def avsAmps (s : State) (raw : Nat) : Nat :=
  let u := (config s.start.inputs).currentUnit
  raw * (if u = 0 then 100 else u) / 100

/-- CURRENT_READ: IMEAS and CAL (R373, R374), or a read that fails (R378). -/
def currentRead (s : State) (raw : Nat) (ack fault : Bool) : State :=
  if !ack || fault then (avsFailed (s.modTrellis fun t => { t with curFail := true }))
  else refreshCeil (s.modTrellis fun t =>
    let amps := avsAmps s raw
    let t1 := { t with imeas := amps, amps := (amps :: t.amps).take 20, curFail := false }
    { t1 with cal := calOf t1 })

/-! ### The energy model (R373 to R375) -/

/-- 2^(k / 200) × 2^32 for k = 1, 2, 4 ... 128. -/
def pow200 : List Nat := [4309878342, 4324841156, 4354922805, 4415715262, 4539857915, 4798711718, 5361538882, 6692972776]

/-- 2^((T − 85 °C) / 20 °C) for T in 0.1 °C, in units of 2^−32 (DESIGN CHOICE, log 107: to about one part in 10^9). -/
def leakFactor (t : Int) : Nat :=
  let x := (t - 850 + 10000).toNat
  let r := x % 200
  let frac := ((List.range 8).zip pow200).foldl (fun p e => if r.testBit e.1 then p * e.2 / 2 ^ 32 else p) (2 ^ 32)
  frac * 2 ^ (x / 200) / 2 ^ 50

/-- Table 15-3: the dynamic core-rail energy at a voltage in mV, from its value in fJ at 0.75 V, in nJ. -/
def dynAt (fj mv : Nat) : Nat := fj * mv ^ 2 / (750 ^ 2 * 1000000)

/-- Table 15-3: the leakage of the die over a tick at a voltage, in nJ, each core with its share of 120 W at its own temperature. -/
def leakAt (s : State) (mv : Nat) : Nat :=
  ((List.range 128).map fun n => 9375 * mv ^ 3 * leakFactor (coreTemp s n) / (750 ^ 3 * 2 ^ 32)).foldl (· + ·) 0

/-- Table 15-3: the energy of the package's edge over a tick that moves `bytes` of LPDDR5X traffic, in nJ. -/
def edgeAt (s : State) (bytes : Nat) : Nat :=
  125000 * ((List.range 8).filter fun p => decide (2 ≤ (s.port p).state)).length + 200000 + bytes * 3 / 100 + (if s.cxl.up then 200000 else 0)

/-- The beat-reference beats of the running cores over a tick. -/
def tickBeats (s : State) : Nat := ((s.cores.filter fun e => e.2.busy).map fun e => e.2.rate).foldl (· + ·) 0

/-- The dynamic energy of Table 15-3 since the start, in fJ at 0.75 V, but for the core base. -/
def totalFj (s : State) : Nat := (s.cores.map fun e => tget 0 e.2.run.eng.ctr ctrEnergy).foldl (· + ·) 0 + 60000 * s.rowAcc

/-- The work of a tick: dynamic energy in fJ at 0.75 V with the core base, and LPDDR5X bytes. -/
def tickWork (s : State) : Nat × Nat :=
  (totalFj s - s.trellis.lastFj + 830000 * tickBeats s, s.wbytes + s.obytes - s.trellis.lastBytes)

/-- R374: package energy of a tick at a voltage, in nJ, with the core-rail part calibrated. -/
def packageAt (s : State) (fj bytes mv : Nat) : Nat := (dynAt fj mv + leakAt s mv) * s.trellis.cal / 256 + edgeAt s bytes

/-- R375: the package power that the model predicts at another voltage for the work of the tick, in nJ a tick: dynamic items and LPDDR5X
bytes, up to 1.90 TB/s, scale with the rate at TMAX. -/
def predicted (s : State) (fj bytes mv : Nat) : Nat :=
  let r := beatRate s.trellis.vtarget (hottest s (List.range 128))
  let r' := beatRate mv (hottest s (List.range 128))
  packageAt s (fj * r' / max 1 r) (min 19000000 (bytes * r' / max 1 r)) mv

/-- The tick's record enters the last 1 ms, and what later ticks count from. -/
def noteTick (s : State) : State :=
  let (fj, bytes) := tickWork s
  let t := s.trellis
  let beats := tickBeats s
  let rec' : TickRec := { rail := dynAt fj t.vtarget + leakAt s t.vtarget, pkg := packageAt s fj bytes t.vtarget, stall := t.stalls - t.lastStalls
                          busy := min beats (t.waves - t.lastWaves), beats := beats }
  let t1 := { t with ticks := (rec' :: t.ticks).take 100, energy := t.energy + rec'.pkg, lastFj := totalFj s, lastBytes := s.wbytes + s.obytes
                     lastWaves := t.waves, lastStalls := t.stalls }
  { s with trellis := { t1 with pavg := tickMean t1 TickRec.pkg / 10 } }

/-- R375: a share of the reference beats of the last 1 ms, in 0.01 %. -/
def tickShare (t : Trellis) (f : TickRec → Nat) : Nat :=
  (t.ticks.map f).foldl (· + ·) 0 * 10000 / max 1 ((t.ticks.map TickRec.beats).foldl (· + ·) 0)

/-! ### The tick (R368, R373, R375, R376, R379, R380) -/

/-- The sensors at a tick. -/
def readTemps (s : State) (i : TickIn) : State :=
  let s1 := i.temps.foldl (fun s e => if e.1 < 128 then s.modCore e.1 fun c => { c with temp := e.2, tempFail := false, failAt := none } else s) s
  i.failed.foldl (fun s n => if n < 128 then s.modCore n fun c => { c with tempFail := true, failAt := some (c.failAt.getD s.now) } else s) s1

/-- The highest core temperature, in 0.1 °C. -/
def tmaxTenths (s : State) : Int := hottest s (List.range 128)

/-- Table 15-2: 0 COOL, 1 WARM, 2 HOT, 3 CRIT, from the temperatures in 0.1 °C and °C and the powers in mW. -/
def heatState (tmax : Int) (tjmax pavg plimit : Nat) : Nat :=
  let ht := (tjmax : Int) * 10 - tmax
  let hp := (plimit : Int) - pavg
  if ht ≤ 0 ∨ 105 * plimit < 100 * pavg then 3
  else if ht < 50 ∨ hp * 100 < 2 * plimit then 2
  else if 150 ≤ ht ∧ 10 * (plimit : Int) ≤ hp * 100 then 0 else 1

/-- R379: POWER_SET takes effect at the tick. -/
def applyPowerSet (s : State) : State :=
  match s.trellis.pendSet with
  | none => s
  | some (aseq, p, lo, hi, tj) =>
    let lim := if p = 0 then packageLimit s else p
    settle (s.modTrellis fun t => { t with plimit := lim, vfloor := lo, vceil := hi, tjmax := tj, pendSet := none }) 0 aseq dDONE stOK lim

/-- The contexts whose commitment is in force (R380). -/
def committedCtxs (s : State) : List Nat := (liveCtxs s).filter fun c => (s.ctx c).deadline && (s.ctx c).inPeriod && (s.ctx c).vcommit != 0

/-- R380: each commitment in force is computed again and never lowered. -/
def recommit (s : State) : State := (committedCtxs s).foldl (fun s c => commit s c (s.ctx c).tav false) s

def markBroken (s : State) (cs : List Nat) : State := cs.foldl (fun s c => s.modCtx c fun x => { x with broken := true }) s

/-- R376: VFLOOR, or 650 mV while a core reads below 25 °C, whichever is higher. -/
def coldFloor (s : State) : Nat := if coldest s (List.range 128) < 250 then max 650 s.trellis.vfloor else s.trellis.vfloor

/-- Table 15-4: the row that applies and the target before the band, in mV; `pNext` is P(VTARGET + 5 mV) in nJ a tick. -/
def voltageRow (s : State) (pNext : Nat) (tmax : Int) : Nat × Nat :=
  let t := s.trellis
  let tj := (t.tjmax : Int) * 10
  if t.heat = 3 then (1, coldFloor s)
  else if tj - 30 ≤ tmax ∨ 1000 * t.plimit < t.pavg then (2, t.vtarget - 10)
  else if 1000 ≤ tickShare t TickRec.stall then (3, t.vtarget - 5)
  else if tmax ≤ tj - 80 ∧ 5000 ≤ tickShare t TickRec.busy ∧ tickShare t TickRec.stall < 200 ∧ pNext ≤ 10000 * t.plimit ∧ !t.avserr ∧ !t.curFail then
    (4, t.vtarget + 5)
  else (5, t.vtarget)

/-- R376: the target within the band, with the commitments that break. -/
def band (s : State) (row want : Nat) : State × Nat :=
  let cs := committedCtxs s
  let top := ceiling s
  let floor := (cs.map fun c => (s.ctx c).vcommit).foldl max (coldFloor s)
  let s1 := s.modTrellis fun t => { t with floorEff := floor, ceilEff := top }
  if row = 1 then (markBroken s1 cs, min top want)
  else
    let s2 := if top < floor then markBroken s1 (cs.filter fun c => top < (s.ctx c).vcommit) else s1
    (s2, min top (max floor want))

/-- Table 15-6: a voltage step, where the target changes. -/
def voltageStep (s : State) (v : Nat) (ack : Bool) (readback : Option Nat) : State :=
  if v = s.trellis.vtarget then s
  else if !ack then avsFailed s
  else
    let s1 := s.modTrellis fun t => { t with vtarget := v, vacked := v, ramping := true, vsteps := t.vsteps + 1 }
    match readback with
    | some mv => voltageRead s1 mv
    | none => s1

/-- R374: the energy of a tick goes to the running units in proportion to their cores. -/
def shareEnergy (s : State) (e : Nat) : State :=
  let on (u : WUnit) : Bool := u.st == 2 || u.st == 3
  let total := ((s.units.filter on).map fun u => u.cores.length).foldl (· + ·) 0
  if total = 0 then s
  else { s with units := s.units.map fun u => if on u then { u with energy := u.energy + e * u.cores.length / total } else u }

/-- TICK. -/
def heatTick (s : State) (i : TickIn) : State :=
  let s0 := readTemps (applyPowerSet s) i
  let tmax := tmaxTenths s0
  let (fj, bytes) := tickWork s0
  let next := predicted s0 fj bytes (s0.trellis.vtarget + 5)
  let s1 := noteTick s0
  let h := heatState tmax s1.trellis.tjmax s1.trellis.pavg (1000 * s1.trellis.plimit)
  let s2 := recommit ((shareEnergy s1 (s1.trellis.energy - s0.trellis.energy)).modTrellis fun t => { t with
    heat := h, tmax := tmax / 10, ticksHot := t.ticksHot + b2n (h == 2), crit := t.crit + b2n (h == 3)
    overs := t.overs + b2n (decide (1000 * t.plimit < t.pavg)) })
  let (row, want) := voltageRow s2 next tmax
  let (s3, v) := band s2 row want
  voltageStep (refreshCeil s3) v i.ack i.readback

/-! ### Sensors, rates and records (R22, R384, R385) -/

/-- SENSOR_FAIL_TIMEOUT: the core counts as TJMAX − 1 °C, and a hardware fault is reported. -/
def sensorFail (s : State) (n : Nat) : State :=
  match (s.core n).failAt with
  | some t => reportHw (reach s (t + 1000000)) 0x0A n
  | none => s

/-- RATE_SAMPLE. -/
def rateSample (s : State) (n rate : Nat) : State := s.modCore n fun c => { c with rate := rate % 2 ^ 32 }

/-- Table 15-8, for a context or, as context 0, for the chip. -/
def heatRecord (s : State) (c : Nat) (cores : List Nat) (beats stall : Nat) (late broken : Bool) : List Byte :=
  let x := s.ctx c
  let t := s.trellis
  leBytes 8 s.now ++ leBytes 2 c ++ leBytes 1 t.heat ++ leBytes 1 (b2n t.avserr + 2 * b2n late + 4 * b2n broken) ++ leBytes 2 t.vtarget
    ++ leBytes 2 (ofSigned 16 (tmaxTenths s)) ++ leBytes 2 (t.pavg / 1000) ++ leBytes 2 t.plimit ++ leBytes 2 x.slowdown ++ leBytes 2 x.queue ++ leBytes 4 x.rateC
    ++ leBytes 4 ((cores.map fun n => (s.core n).rate).foldl (· + ·) 0 / max 1 cores.length) ++ leBytes 8 beats ++ leBytes 8 stall ++ fillBytes 16 0

/-- HEAT_RECORD. -/
def heatRecords (s : State) : State :=
  let cs := liveCtxs s
  let db (c : Nat) : Nat := (s.ctx c).beats - (s.ctx c).hrBeats
  let ds (c : Nat) : Nat := (s.ctx c).stallW - (s.ctx c).hrStall
  let sum (f : Nat → Nat) : Nat := (cs.map f).foldl (· + ·) 0
  let s1 := cs.foldl (fun t c => match (s.ctx c).sweep with
    | some w => if w.tele = 0 then t else deviceCommit t w.tele (heatRecord s c (s.ctx c).cores (db c) (ds c) (s.ctx c).overcommit (s.ctx c).broken)
    | none => t) s
  let s2 := deviceCommit s1 1 (heatRecord s 0 (List.range 128) (sum db) (sum ds) (cs.any fun c => (s.ctx c).overcommit) (cs.any fun c => (s.ctx c).broken))
  cs.foldl (fun t c => t.modCtx c fun x => { x with hrBeats := x.beats, hrStall := x.stallW }) s2

/-! ### POWER_SET (R357, R379) -/

/-- POWER_SET: it waits for the next tick. -/
def startPowerSet (s : State) (c : Nat) (k : Cmd) : State :=
  let p := k.fld 0 2
  let lo := k.fld 2 2
  let hi := k.fld 4 2
  let tj := k.fld 6 1
  if parRsvd k [(0, 7)] || decide (packageLimit s < p) || decide (lo < 550) || decide (hi < lo) || decide (850 < hi) || decide (105 < tj) then
    refuse s c k.aseq stBADPARAM
  else s.modTrellis fun t => { t with pendSet := some (k.aseq, p, lo, hi, tj) }

end Sys2Proof.Machine
end

