-- ==== Sys2Proof/Machine/StartUp.lean ====
section
/-! DEFINITION. Starts and resets (chapter 17, R434, R435, R446, R493, R494, R499): what each reset clears, the choice of
image, cold or warm, settlement at a warm start, READY, and boot over the board mesh. -/

namespace Sys2Proof.Machine

/-! ### Free byte strings, digests as numbers, READY -/

/-- `len` bytes from a string that the model leaves open. -/
def fixLen (l : List Byte) (len : Nat) : List Byte := (l ++ fillBytes len 0).take len

/-- A free byte string of the given length at the stream's present position. -/
def freeStr (s : State) (len : Nat) : List Byte := fixLen (Config.freeBytes s.freeCtr len) len

/-- R322: a change of READY raises vector 0. -/
def setReady (s : State) (b : Bool) : State := if s.cxl.ready = b then s else raiseVec (s.modCxl fun x => { x with ready := b }) 0

/-- R329: every configured IDE stream is active. -/
def ideUp (s : State) : Bool := (List.range s.cxl.ideStreams).all fun k => s.cxl.ideActive.testBit k

/-- R329: READY may be set. -/
def ideOk (s : State) : Bool := !s.cxl.ideReq || (ideUp s && s.ident.valid)

/-! ### What a reset leaves (R407, R446, Table 17-8) -/

/-- A part whose PWROK is low: nothing is kept but what the model counts outside the part. -/
def powerOff (s : State) : State :=
  { pending := s.pending, now := s.now, freeCtr := s.freeCtr, hostMem := s.hostMem, hostPoison := s.hostPoison }

/-- What survives a reset that preserves LPDDR5X (R407, R419), before the start decides whether it is used: memory, tract
modes, the journal with its context and tray tables, the fault log, held records, routes, owner chains and LINK_POLICY, the
resident image, the link presets of the ports (Table 7-8). -/
def logicReset (s : State) : State :=
  { powerOff s with
    mem := s.mem.filter (fun e => decide (e.1 < 0x00C000000000)), poison := s.poison, tractModes := s.tractModes
    nRes := s.nRes, hdmBytes := s.hdmBytes, image := s.image, spSplit := s.spSplit, spReserve := s.spReserve
    ctxs := s.ctxs, trays := s.trays
    salt := { routes := s.salt.routes, routeEpoch := s.salt.routeEpoch }
    ports := (s.ports.filter fun e => e.2.presets).map fun e => (e.1, { presets := true })
    cxl := { held := s.cxl.held, pendSums := s.cxl.pendSums, linkloss := s.cxl.linkloss, downAt := some s.now }
    sess := { s.sess with anchored := false }
    faults := { log := s.faults.log, lastSeq := s.faults.lastSeq, jrn := s.faults.jrn, jnext := s.faults.jnext
                jlost := s.faults.jlost, hostlost := s.faults.hostlost, quiesced := s.faults.quiesced, resetAt := s.now }
    ident := { require := s.ident.require, allow := s.ident.allow, chains := s.ident.chains, meas := s.ident.meas }
    start := { pwrok := true, hdr := s.start.hdr, parts := s.start.parts } }

/-- R260: copy every peg record to Dister's log region before a reset that Dister starts. -/
def copyPegs (s : State) : State := writeSparse s logRegion 0x1000000 (s.pegs.map fun e => (64 * e.1, e.2.bytes 0))

/-! ### The end of a start -/

/-- R164: Dister's telemetry trays 1 and 3, with areas in tracts 0 to 3. -/
def disterTray (base : Nat) : Tray :=
  { kind := 3, readmode := false, fmtver := 2, pmin := 0, pmax := 7, ctx := 0, maxpkt := 4096, ringWords := 4096
    base := base, mib := areaMib 4096 4096 }

/-- Table 19-2: the identity record. -/
def identRecord (s : State) : List Byte :=
  let code : List Byte := [0x59, 0x42, 0x31, 0x34, 0x31, 0x32, 0x2D, if s.ident.highPower then 0x48 else 0x41] ++ fillBytes 8 0
  let chain := tget [] s.ident.chains 0
  leBytes 16 s.ident.dieId ++ code ++ leBytes 2 0x00B1 ++ leBytes 2 (packageLimit s) ++ leBytes 4 s.start.imgver
    ++ leBytes 1 (b2n s.ident.valid + 2 * b2n s.start.selfrepair + 4 * b2n s.start.nocfg) ++ fillBytes 23 0
    ++ (if s.ident.valid then fixLen (Config.publicKey s.ident.attKey) 64 else fillBytes 64 0)
    ++ (if chain.isEmpty then fillBytes 32 0 else shake256 chain 32)

/-- R462: the measurements that a start sets. -/
def startMeas (s : State) (r : SignedRec) : State :=
  let i := s.start.inputs
  let l : List (Nat × List Byte) := [
    (1, fixLen Config.romDigest 32), (2, leBytes 32 r.digest), (3, leBytes 4 r.version ++ leBytes 1 s.start.slot ++ fillBytes 3 0),
    (4, if (configOf i).isSome then leBytes 32 i.cfg.digest else fillBytes 32 0),
    (5, if repairOk i then leBytes 32 i.repairRec.digest else fillBytes 32 0), (6, leBytes 32 r.keyDigest),
    (7, (s.image.map Image.digest).getD (fillBytes 32 0)), (9, shake256 (identRecord s) 32)]
  if s.ident.meas.isEmpty then
    s.modIdent fun d => { d with meas := l.foldl (fun m e => tput {} m e.1 { value := e.2, ts := s.now }) [] }
  else l.foldl (fun s e => setMeas s e.1 e.2) s

/-- R451: the identity seed. -/
def idSeed (i : StartInputs) : List Byte := shake256 (leBytes 16 i.dieId ++ i.pufBits) 64

/-- R452: a derivation under a six-character label, whose last three characters vary. -/
def derive (i : StartInputs) (name : List Byte) (len : Nat) : List Byte :=
  shake256 ([0x59, 0x42, 0x2D] ++ name ++ leBytes 16 i.dieId ++ idSeed i) len

/-- R451: the identity is valid when the repair record is there and the seed with label "YB-CHK" gives its tag (DEDUCED, log 111: in the form
of R452's derivations). -/
def idValid (i : StartInputs) : Bool := repairOk i && derive i [0x43, 0x48, 0x4B] 32 == i.tag

/-- R451, R452, R454, R460: what the PUF and the repair record give. -/
def startIdent (s : State) : State :=
  let i := s.start.inputs
  let ok := repairOk i
  s.modIdent fun d => { d with
    dieId := i.dieId, valid := idValid i, attKey := if idValid i then derive i [0x41, 0x54, 0x54] 96 else [], highPower := ok && i.part == 1
    chains := tput [] d.chains 0 (if ok then i.chain else []) }

/-- R422: a secondary's boot link, its port toward position 0. -/
def bootPort (s : State) (p : Nat) : Bool := s.start.bootsrc && p == 7 - s.start.pos

/-- R422, step 1: the ROM trains the boot link by full search; it never sets PRESETS. -/
def bootLink (s : State) : State :=
  let p := 7 - s.start.pos
  match s.start.inputs.ports[p]? with
  | some r => trainPort (s.modPort p fun x => { x with presets := false }) p r
  | none => s

/-- R270, R288: train the ports with what a start found; a boot link that is up stays up. -/
def startPorts (s : State) : State :=
  ((List.range s.start.inputs.ports.length).filter fun p => decide (p < 8) && !(bootPort s p && decide (2 ≤ (s.port p).state))).foldl (fun s p => trainPort s p (s.start.inputs.ports.getD p {})) s

/-- R272: a NODE that a start restores makes the chip send a TRAIN record on every port that is up. -/
def restoreNode (s : State) (node : Nat) : State :=
  let s1 := s.modSalt fun x => { x with node := node }
  if node = 0xFFFF then s1
  else (List.range 8).foldl (fun s p => if (s.port p).state ≥ 2 then sendControl s p (.train (ownTrain s p)) else s) s1

/-- R415: keep a training record by die ID: the slot that holds the die ID, or the least recent of sixteen. -/
def keepTraining (s : State) (die : Nat) (rec' : List Byte) : State :=
  s.modStart fun t =>
    let others := t.parts.filter (fun e => !(e.1 == 3 && e.2.1 == die))
    let old := others.filter (fun e => e.1 == 3)
    let drop := if old.length ≥ 16 then old.head? else none
    { t with parts := others.filter (fun e => some e != drop) ++ [(3, die, rec')] }

/-- R276: a MGMT message of mesh boot. -/
def bootMsg (s : State) (p code part off : Nat) (words : List Byte) : State :=
  sendMgmt s p (code + 256 * part) off (words ++ fillBytes ((64 - words.length % 64) % 64) 0)

/-- Send a part in pieces of at most 256 words, and its BOOT_END (Table 17-9). -/
def bootPart (s : State) (p code part status : Nat) (l : List Byte) : State :=
  let pieces := chunks 16384 (l.length / 16384 + 1) l
  let s1 := ((List.range pieces.length).zip pieces).foldl (fun s e => bootMsg s p code part (16384 * e.1) e.2) s
  bootMsg s1 p 0x03 part 0 (leBytes 8 l.length ++ shake256 l 32 ++ leBytes 2 status)

/-- R415: a training record of 128 KiB: what it holds in R415's order, the PHY settings free, and the digest (widths DESIGN CHOICE,
log 112). -/
def trainingBytes (s : State) : List Byte :=
  let i := s.start.inputs
  let head := leBytes 16 s.ident.dieId ++ i.pkgRegs.flatMap (leBytes 8) ++ leBytes 4 10667 ++ leBytes 4 (config i).rails
    ++ i.pkgTemps.flatMap fun t => leBytes 2 (ofSigned 16 t)
  let body := head ++ freeStr s (0x20000 - 32 - head.length)
  body ++ shake256 body 32

/-- R415: the record written after a full or preserving training: into flash, or through TRAIN_PUT to position 0. -/
def writeTraining (s : State) : State :=
  let l := trainingBytes s
  let s1 := takeFree s 1
  if s.start.bootsrc then bootPart s1 (7 - s.start.pos) 0x04 3 stOK l else keepTraining s1 s.ident.dieId l

/-- R447: the record of the reset, its cause and the registers that report it. -/
def reportReset (s : State) : State :=
  let c := s.faults.lastCause
  let hw := c == 4 || c == 5
  reportFault ((s.modFaults fun f => { f with hwfNew := f.hwfNew || hw }).modCxl fun x => { x with uncorrectable := true })
    { status := if hw then stHWFAULT else stOK, source := if c = 4 then 0x0C else 0x0B, action := 4 }

/-- Steps that both starts share once the memory is in place: trays 1 and 3, identity, ports, fences of failed cores, the
journal header, NODE, Mem_Active, READY, TESTOK and the measurements. -/
def finishStart (s : State) (r : SignedRec) (hdr : JHeader) (retrain : Bool) : State :=
  let i := s.start.inputs
  let cfg := config i
  let s1 := ((startIdent s).modStart fun t => { t with hdr := hdr, phase := 0xF, dister := true, waitmesh := false }).modFaults fun f =>
    { f with startJseq := f.jnext }
  let s2 := startPorts { s1 with trays := tset (tset s1.trays 1 (disterTray 0x80000000)) 3 (disterTray 0x80200000), hdmBytes := sBytes i }
  let s3 := restoreNode s2 hdr.node
  let s4 := (s3.modCxl fun x => { x with memActive := !x.up || x.flit256, ideReq := cfg.ideRequired, warm := s.start.warm
                                         linkloss := !x.held.isEmpty })
  let s5 := reportReset (s4.modTrellis fun t => { t with plimit := packageLimit s4 })
  let s6 := i.badCores.foldl fenceCore s5
  let s7 := startMeas (if retrain then writeTraining s6 else s6) r
  -- R414: without a repair record the console reports the die ID
  let s8 := s7.modSvc fun v => { v with testok := i.badCores.isEmpty, out := if s.start.selfrepair then [i.dieId] else [] }
  -- R501: a regulator that does not answer at step 4 leaves the boot voltage, and R378 applies
  let s9 := if i.avsAnswers then s8 else avsFailed s8
  if ideOk s9 then setReady s9 true else s9

/-- R423: a start stops, and the console reports the cause. -/
def stopStart (s : State) (phase st : Nat) (recovery dister : Bool) : State :=
  let s1 := (s.modStart fun t => { t with phase := phase, stopped := true, failst := st, recovery := recovery, dister := dister, waitmesh := false }).modSvc
    fun v => { v with out := [st] }
  if dister then
    logFault s1 { status := if s.faults.lastCause ≥ 4 then stHWFAULT else stOK, source := if s.faults.lastCause = 4 then 0x0C else 0x0B, action := 4 }
  else s1

/-! ### Cold start (R418) -/

/-- R327: what host-managed device memory holds after a cold start is open. -/
def hdmFill (s : State) : Tab Byte :=
  Memory.write [] (0x00C000000000 - sBytes s.start.inputs)
    ((List.range (sBytes s.start.inputs)).map fun d => Config.openByte s.freeCtr d)

/-- Steps 6 to 10: LPDDR5X cleared, tract modes of Table 7-8, empty journal, nothing of any context. -/
def coldClear (s : State) (cause : Nat) : State :=
  let k : State := powerOff s
  { k with
    mem := hdmFill s, freeCtr := s.freeCtr + 1, tractModes := [(4, 5)], ports := s.ports.filter fun e => bootPort s e.1
    start := { s.start with warm := false, cause := cause, hdr := {} }
    cxl := { downAt := some s.now }, faults := { lastCause := s.faults.lastCause } }

/-- The journal header that a start writes (R416). -/
def newHeader (s : State) (r : SignedRec) (node starts : Nat) : JHeader :=
  let i := s.start.inputs
  { valid := true, dieId := i.dieId, pos := i.pos, bootsrc := i.bootsrc, uartv := i.uartv, node := node, starts := starts
    imgver := r.version, journalVer := r.journalVer, s := sBytes i, ts := s.now
    cfgDigest := if (configOf i).isSome then i.cfg.digest else 0 }

def coldFinish (s : State) (r : SignedRec) : State := finishStart s r (newHeader s r 0xFFFF 0) true

/-! ### Warm start (R417, R419, R434, R435) -/

/-- R417: the first condition that fails, or none. -/
def coldCause (s : State) (r : SignedRec) : Option Nat :=
  let i := s.start.inputs
  let h := s.start.hdr
  if s.faults.lastCause = 0 then some 0
  else if !h.valid || (!i.hdrAOk && !i.hdrBOk) then some 1
  else if h.dieId != i.dieId || h.stepping != 0x00B1 || h.pos != i.pos || h.bootsrc != i.bootsrc || h.uartv != i.uartv then some 2
  else if h.journalVer != r.journalVer then some 3
  else if h.cfgDigest != (if (configOf i).isSome then i.cfg.digest else 0) || h.s != sBytes i then some 4
  else none

/-- R435: how a started command or a claimed packet settles after the last reset. -/
def resetDisp (cause : Nat) : Nat × Nat := if cause = 1 ∨ cause = 2 then (dCANCELLED, stCANCELLED) else (dFAULTED, stHWFAULT)

/-- R432: read the journal: entries lost in both copies go, with a fault record each; entries lost in one copy are
rewritten. Returns the lost entries. -/
def readJournal (s : State) : State × List JEntry :=
  let i := s.start.inputs
  let lost := s.faults.jrn.filter (fun e => i.badBoth.contains e.jseq)
  let ones := s.faults.jrn.filter (fun e => i.badOne.contains e.jseq && !i.badBoth.contains e.jseq)
  let s1 := s.modFaults fun f =>
    { f with jrn := f.jrn.filter (fun e => !i.badBoth.contains e.jseq), jlost := f.jlost || !lost.isEmpty
             jrepair := f.jrepair + ones.length + b2n (!i.hdrAOk) }
  (lost.foldl (fun s e => logFault (s.modFaults fun f => { f with ueNew := true })
    { status := stUNCORR, source := 6, addr := e.jseq }) s1, lost)

/-- R428: an item with a lost entry of its own receives no disposition. -/
def lostCmd (lost : List JEntry) (c aseq : Nat) : Bool := lost.any fun e => decide (e.type < 0x11) && e.ctx == c && e.seq == aseq
def lostPkt (lost : List JEntry) (n seq : Nat) : Bool := lost.any fun e => decide (0x11 ≤ e.type) && e.tray == n && e.seq == seq

/-- R430: the FREE entry of a packet whose tray ends. -/
def freed (s : State) (n : Nat) (p : Packet) : State :=
  jAppend s { type := 0x15, ctx := (s.tray n).ctx, tray := n, seq := p.seq, idx := p.pseq }

/-- Step 3: settle a work tray's packets; open ones are rewound and their producers receive no answer (step 2). -/
def settleTray (lost : List JEntry) (s : State) (n : Nat) : State :=
  let d := resetDisp s.faults.lastCause
  (s.tray n).packets.foldl (fun s p =>
    if lostPkt lost n p.seq then s
    else if p.st = .ready then freed (psettle s n p dCANCELLED stCANCELLED) n p
    else if p.st = .claimed then freed (psettle s n p d.1 d.2) n p
    else if p.st = .gone && p.seq != 0 then freed s n p else s) s

/-- Step 4: settle a context's commands in ASEQ order. -/
def settleCtx (lost : List JEntry) (s : State) (c : Nat) : State :=
  let d := resetDisp s.faults.lastCause
  (s.ctx c).cmds.foldl (fun s k =>
    if lostCmd lost c k.aseq then s
    else if !k.started then settle s c k.aseq dCANCELLED stCANCELLED 0
    else if k.op = 0x62 then settle s c k.aseq dFAULTED stOWNERLOST 0
    else settle s c k.aseq d.1 d.2 0) s

/-- R434: steps 1 to 6. A context's vector stays with its held records. -/
def warmSettle (s : State) : State :=
  let clean := { s with ctxs := s.ctxs.map fun e => (e.1, { e.2 with sweep := none, harvest := none }) }
  let (s1, lost) := readJournal clean
  let s2 := ((s1.trays.filter fun e => e.2.kind == 1).map (·.1)).foldl (settleTray lost) s1
  let s3 := (s2.ctxs.map (·.1)).foldl (settleCtx lost) s2
  let s4 : State := { s3 with
    trays := []
    ctxs := (s3.ctxs.filter fun e => s3.cxl.held.any fun h => h.irq == some e.1).map fun e => (e.1, ({ vector := e.2.vector } : Ctx)) }
  let keep (e : JEntry) : Bool := !jDone { s4 with sess := { s4.sess with anchored := false } } e && !(if e.type < 0x11 then lostCmd lost e.ctx e.seq else lostPkt lost e.tray e.seq)
  let s5 := s4.modFaults fun f => { f with hostlost := f.hostlost || s4.sess.opened, quiesced := false, jrn := f.jrn.filter keep }
  { s5 with sess := { s4.sess with opened := false, anchored := false } }

/-- R415: the training record is valid for this start. -/
def trainingValid (i : StartInputs) : Bool := match i.training with
  | some t => t.digestOk && t.dieId == i.dieId && t.regs == i.pkgRegs && t.rate == 10667 && t.rails == (config i).rails
      && t.temps.length == i.pkgTemps.length && (t.temps.zip i.pkgTemps).all fun e => decide (e.1 - 150 ≤ e.2) && decide (e.2 ≤ e.1 + 150)
  | none => false

def warmFinish (s : State) (r : SignedRec) : State :=
  let i := s.start.inputs
  let retrain := !trainingValid i
  let s1 := warmSettle (s.modStart fun t => { t with warm := true, cause := 0, retrained := retrain })
  finishStart s1 r (newHeader s r s.start.hdr.node (s.start.hdr.starts + 1)) retrain

/-! ### A start from its inputs -/

/-- Steps 2 to 10 of Table 17-6, or 2 to 9 of Table 17-7, once the parts are there. -/
def runStart (s : State) : State :=
  let i := s.start.inputs
  let warmTry := s.faults.lastCause != 0
  match chooseImage i with
  | none => stopStart s (if warmTry then 3 else 4) stAUTH true false
  | some (slot, r) =>
    let s1 := s.modStart fun t => { t with
      slot := slot, imgver := r.version, nocfg := (configOf i).isNone, selfrepair := !repairOk i, dister := true
      tVerified := i.tVerified, tMemup := i.tMemup, tReady := i.tReady }
    if !i.memTrains then stopStart s1 (if warmTry then 4 else 6) stHWFAULT false true
    else
      match coldCause s1 r with
      | none => if i.badArray then stopStart s1 6 stHWFAULT false true else warmFinish s1 r
      | some c =>
        let s2 := coldClear s1 c
        if i.badArray then stopStart s2 8 stHWFAULT false true else coldFinish s2 r

/-- R421: BOOT_REQ to position 0 for the parts of a mask, bit k for part k. -/
def askParts (s : State) (mask : Nat) : State :=
  bootMsg s (7 - s.start.pos) 0x01 0 0
    (leBytes 16 s.start.inputs.dieId ++ leBytes 1 s.start.pos ++ leBytes 1 (b2n (s.faults.lastCause != 0)) ++ leBytes 2 0x00B1 ++ leBytes 1 mask)

/-- R422, step 1: the ROM trains the boot link. -/
def meshBegin (s : State) : State :=
  askParts ((bootLink s).modStart fun t => { t with phase := if s.faults.lastCause = 0 then 4 else 3, meshPart := 0, meshData := [], meshTries := 0, meshDone := [] }) 0x1E

/-- R408, R418, R419: begin the start that follows a reset. -/
def beginStart (s : State) (cause : Nat) (i : StartInputs) : State :=
  let s0 := (s.modFaults fun f => { f with lastCause := cause }).modStart fun t =>
    { t with inputs := i, pos := i.pos, bootsrc := i.bootsrc, uartv := i.uartv, pwrok := true
             parts := if i.bootsrc then t.parts else i.parts, mesh := i.bootsrc }
  if i.bootsrc then (if i.meshAnswers then runStart (bootLink s0) else meshBegin s0)
  else if !i.flashAnswers then stopStart s0 (if cause = 0 then 4 else 3) stHWFAULT false false
  else runStart s0

/-! ### Power and resets (R407, R446, R493, R494, R499) -/

/-- The part runs: PWROK is high and the hardware trip has not acted. -/
def powered (s : State) : Bool := s.start.pwrok && !s.start.tripped

/-- R418: the rising edge of PWROK. -/
def powerOn (s : State) (i : StartInputs) : State := if s.start.pwrok then s else beginStart (powerOff s) 0 i

/-- R446: a reset that preserves LPDDR5X; R499: every reset but power-on is ignored after a trip. -/
def warmReset (s : State) (cause : Nat) (i : StartInputs) : State :=
  if powered s then beginStart (logicReset s) cause i else s

/-- R446: before a reset that Dister starts it sets QUIESCED and copies the peg records. -/
def quiesce (s : State) : State := (copyPegs s).modFaults fun f => { f with quiesced := true }

/-- R499: the hardware trip. -/
def hardwareTrip (s : State) : State :=
  if powered s then
    let s1 := ((s.cores.filter fun e => e.2.busy).map (·.1)).foldl (fun s n => stopCore s n .idle false) s
    { (s1.modStart fun t => { t with tripped := true }).modTrellis (fun t => { t with vtarget := 550, vacked := 550 }) with
      rakes := s1.rakes.map fun e => (e.1, { e.2 with halted := true }) }
  else s

/-- R420, R331: PERST# resets only the CXL port; the link trains at its deassertion. -/
def linkWidthOk (w : Nat) : Bool := w == 4 || w == 8 || w == 16

/-! ### Boot over the board mesh (R421, R422) -/

/-- A secondary's ROM waits for its parts. -/
def meshWaiting (s : State) : Bool := s.start.bootsrc && !s.start.dister && !s.start.stopped && s.start.pwrok

/-- R421: position 0 answers BOOT_REQ. -/
def bootReq (s : State) (p die pos mask : Nat) : State :=
  if s.start.pos != 0 || !s.start.dister || decide (6 < p) || (s.port p).version != 2 || decide ((s.port p).state < 2) || pos != p + 1 then s
  else ((List.range 4).map (· + 1)).foldl (fun s k =>
    if mask.testBit k then
      let own := if k = 2 ∨ k = 3 then die else 0
      let l := match s.start.parts.find? (fun e => e.1 == k && e.2.1 == own) with
        | some e => e.2.2
        | none => []
      bootPart s p 0x02 k stOK l
    else s) s

/-- Put the bytes of a piece at their offset. -/
def placeAt (l : List Byte) (off : Nat) (b : List Byte) : List Byte := (l ++ fillBytes (off - l.length) 0).take off ++ b ++ l.drop (off + b.length)

/-- R421: BOOT_DATA at a secondary. -/
def bootData (s : State) (p part off : Nat) (bytes : List Byte) : State :=
  if meshWaiting s && bootPort s p && (s.port p).version == 2 then
    s.modStart fun t => { t with meshPart := part, meshData := placeAt (if t.meshPart = part then t.meshData else []) off bytes }
  else s

/-- The parts of 1 to 4 that a secondary still needs. -/
def meshWanted (s : State) : Nat := (((List.range 5).drop 1).filter fun k => !s.start.meshDone.contains k).foldl (fun n k => n + 2 ^ k) 0

/-- R422: BOOT_END. A secondary checks the part; position 0 stores the training record that it closes. -/
def bootEnd (s : State) (p part len : Nat) (digest : List Byte) (status : Nat) : State :=
  if meshWaiting s && bootPort s p && (s.port p).version == 2 then
    let data := if s.start.meshPart = part then s.start.meshData else []
    let good := status == stOK && (if len = 0 then part != 1 else decide (len ≤ data.length) && shake256 (data.take len) 32 == digest)
    if good then
      let s1 := s.modStart fun t => { t with meshDone := ninsert t.meshDone part, meshPart := 0, meshData := [] }
      if meshWanted s1 = 0 then runStart s1 else s1
    else s.modStart fun t => { t with meshPart := 0, meshData := [] }
  else
    match s.start.trainPut with
    | some (die, l) =>
      if s.start.pos == 0 && s.start.dister && decide (p ≤ 6) && decide (len ≤ l.length) && shake256 (l.take len) 32 == digest then
        bootMsg ((keepTraining s die (l.take len)).modStart fun t => { t with trainPut := none }) p 0x03 3 0
          (leBytes 8 len ++ digest ++ leBytes 2 stOK)
      else s
    | none => s

/-- R421, R415: TRAIN_PUT at position 0; a BOOT_END closes it. -/
def trainPut (s : State) (p die : Nat) (bytes : List Byte) : State :=
  if s.start.pos == 0 && s.start.dister && decide (p ≤ 6) && (s.port p).version == 2 && decide ((s.port p).state ≥ 2) then
    s.modStart fun t => { t with trainPut := match t.trainPut with
      | some (d, l) => if d = die then some (d, l ++ bytes) else some (die, bytes)
      | none => some (die, bytes) }
  else s

/-- R422: a part is missing, fails its digest, or no BOOT_END came in 100 ms: BOOT_REQ again, up to ten times, and then
WAITMESH. -/
def bootRetry (s : State) : State :=
  if !meshWaiting s || s.start.waitmesh then s
  else if s.start.meshTries < 10 then
    askParts (s.modStart fun t => { t with meshTries := t.meshTries + 1, meshPart := 0, meshData := [] }) (meshWanted s)
  else s.modStart fun t => { t with waitmesh := true }

/-- R422: the whole sequence again, every 1 s. -/
def meshRestart (s : State) : State := if meshWaiting s && s.start.waitmesh then meshBegin s else s

end Sys2Proof.Machine
end

