-- ==== Sys2Proof/Machine/Ident.lean ====
section
/-! DEFINITION. Identity and signing (chapter 19) and the mailboxes (R328, R335): the SPDM exchanges, the vendor-defined
requests, link encryption, IDE keys and ATTEST. -/

namespace Sys2Proof.Machine

/-! ### Responses (the code numbers are SPDM 1.3's, PRESUMED, log 18) -/

def State.link (s : State) (l : Nat) : Spdm := tget {} s.ident.links l
def State.modLink (s : State) (l : Nat) (f : Spdm → Spdm) : State := s.modIdent fun d => { d with links := tput {} d.links l (f (tget {} d.links l)) }

/-- R457: one SPDM message in a MGMT message, its length first; one that 256 words do not hold has no carriage (log 69). -/
def spdmSend (s : State) (p code : Nat) (data : List Byte) : State :=
  let msg := leBytes 4 (4 + data.length) ++ leBytes 1 (if code % 128 = 4 then 0x10 else 0x13) ++ leBytes 1 code ++ leBytes 2 0 ++ data
  if 16384 < msg.length then s else sendMgmt s p 0x10 0 (msg ++ fillBytes ((64 - msg.length % 64) % 64) 0)

/-- Answer a request with a response. On a port the end with the lower node ID is the requester and sends the request, and the other end
the response (R457); a request's code is its response's with bit 7 set. -/
def spdmAnswer (s : State) (l code : Nat) (data : List Byte) : State :=
  let s1 := s.modLink l fun x => { x with rsp := code, data := data }
  if 8 ≤ l then s1
  else if s.salt.node < (s.port l).peer then (if code = 0x7F then s1 else spdmSend s1 l (code + 128) [])
  else spdmSend s1 l code data

/-- ERROR with an ErrorCode. -/
def spdmError (s : State) (l err : Nat) : State := spdmAnswer s l 0x7F (leBytes 1 err)
def errInvalid : Nat := 0x01
def errUnexpected : Nat := 0x04
def errUnspecified : Nat := 0x05
def errUnsupported : Nat := 0x07

/-- R457: whether requests of a link reach the device: DOE 0 over CXL, MGMT messages on a port that is up at version 2
(version 1 carries no SPDM, R469). -/
def linkReaches (s : State) (l : Nat) : Bool :=
  s.start.dister && (if l < 8 then decide ((s.port l).state ≥ 2) && (s.port l).version == 2 else s.cxl.up)

/-- R451: requests while the identity is not valid; `least` is the state that the exchange needs. -/
def spdm (s : State) (l least : Nat) (f : State → State) : State :=
  if !linkReaches s l then s
  else if !s.ident.valid then spdmError s l errUnspecified
  else if (s.link l).st < least then spdmError s l errUnexpected
  else f s

/-- SHA3-384 (R458), by FIPS 202's permutation (log 12). -/
def sha3_384 (msg : List Byte) : List Byte :=
  let pad := 104 - msg.length % 104
  let padded := if pad = 1 then msg ++ [0x86] else msg ++ [0x06] ++ fillBytes (pad - 2) 0 ++ [0x80]
  ((chunks 104 (padded.length / 104) padded).foldl kAbsorb (List.replicate 25 0)).flatMap (fun w => leBytes 8 w.toNat) |>.take 48

/-- R460: the chain in a certificate slot. -/
def certChain (s : State) (slot : Nat) : List Byte := if slot < 8 then tget [] s.ident.chains slot else []

/-- R466: a session on a link ends; an encrypted port goes down. -/
def endSession (s : State) (l : Nat) : State :=
  let s1 := s.modLink l fun x => { x with st := min x.st 3, authed := false, epoch := false }
  if l < 8 ∧ (s.port l).encrypt then portDown s1 l else s1

/-! ### The exchanges (R457 to R462) -/

/-- GET_VERSION begins a connection afresh. -/
def spdmVersion (s : State) (l : Nat) : State :=
  spdm s l 0 fun s => spdmAnswer ((endSession s l).modLink l fun x => { x with st := 1 }) l 0x04 (leBytes 1 0x13)

def spdmCapabilities (s : State) (l : Nat) : State :=
  spdm s l 1 fun s => spdmAnswer (s.modLink l fun x => { x with st := max x.st 2 }) l 0x61 (leBytes 4 0x10000)

/-- R458: the selections of Table 19-4, or no session. -/
def spdmAlgorithms (s : State) (l : Nat) (acceptable : Bool) : State :=
  spdm s l 2 fun s =>
    if acceptable then spdmAnswer (s.modLink l fun x => { x with st := max x.st 3 }) l 0x63 (leBytes 2 0x0001 ++ leBytes 2 0x0002)
    else spdmError s l errUnsupported

def spdmDigests (s : State) (l : Nat) : State :=
  spdm s l 3 fun s =>
    let held := (List.range 8).filter fun k => !(certChain s k).isEmpty
    spdmAnswer s l 0x01 (leBytes 1 ((held.map fun k => 2 ^ k).foldl (· + ·) 0) ++ held.flatMap fun k => sha3_384 (certChain s k))

def spdmCertificate (s : State) (l slot : Nat) : State :=
  spdm s l 3 fun s => if (certChain s slot).isEmpty then spdmError s l errInvalid else spdmAnswer s l 0x02 (certChain s slot)

/-- R459: CHALLENGE_AUTH is signed by the attestation key; nonce and signature are free values. -/
def spdmChallenge (s : State) (l slot : Nat) : State :=
  spdm s l 3 fun s =>
    if (certChain s slot).isEmpty then spdmError s l errInvalid
    else takeFree (spdmAnswer s l 0x03 (sha3_384 (certChain s slot) ++ freeStr s (32 + 49856))) 1

/-- Table 19-5: whether a measurement is a raw field, and its record of 48 bytes (Table 19-6). -/
def measRaw (i : Nat) : Bool := i == 3 || i == 8
def measRecord (s : State) (i : Nat) : List Byte :=
  let m : Meas := tget {} s.ident.meas i
  leBytes 1 i ++ leBytes 1 (b2n (measRaw i)) ++ leBytes 2 (if measRaw i then 8 else 32) ++ leBytes 4 m.changes ++ leBytes 8 m.ts ++ fixLen m.value 32

/-- R462: GET_MEASUREMENTS: 0 asks for their number, 0xFF for all, else one index. -/
def spdmMeasurements (s : State) (l index : Nat) : State :=
  spdm s l 3 fun s =>
    if index = 0 then spdmAnswer s l 0x60 (leBytes 1 9)
    else if index = 0xFF then spdmAnswer s l 0x60 ((countFrom 1 9).flatMap (measRecord s))
    else if index ≤ 9 then spdmAnswer s l 0x60 (measRecord s index)
    else spdmError s l errInvalid

/-- R459: KEY_EXCHANGE with an encapsulation key of 1,568 B; ciphertext and signature are free values. -/
def spdmKeyExchange (s : State) (l : Nat) (ek : List Byte) (authed : Bool) : State :=
  spdm s l 3 fun s =>
    if ek.length ≠ 1568 then spdmError s l errInvalid
    else takeFree (spdmAnswer ((endSession s l).modLink l fun x => { x with st := 4, authed := authed }) l 0x64 (freeStr s (1568 + 49856))) 1

/-- FINISH: the session forms; on a port that the policy encrypts, with mutual authentication, its keys load (Table 19-7). -/
def spdmFinish (s : State) (l : Nat) (ok : Bool) : State :=
  if (s.link l).st ≠ 4 then spdm s l 0 fun s => spdmError s l errUnexpected
  else spdm s l 4 fun s =>
    if !ok || (decide (l < 8) && !(s.link l).authed) then
      let s1 := spdmError (s.modLink l fun x => { x with st := 3, authed := false }) l errInvalid
      if l < 8 ∧ s.ident.require.testBit l then portDown s1 l else s1
    else
      let s1 := spdmAnswer (s.modLink l fun x => { x with st := 5, epoch := false }) l 0x65 []
      if l < 8 ∧ mustEncrypt s l ∧ (s.port l).peerEnc then
        s1.modPort l fun x => { x with encrypt := true, groupsTx := 0, groupsRx := 0, groupN := 0, epochTx := false, epochRx := false, keyedAt := s.now }
      else s1

/-- R466: the next group carries the other key epoch. -/
def flipEpoch (s : State) (l : Nat) : State :=
  let s1 := s.modLink l fun x => { x with epoch := !x.epoch }
  if l < 8 then s1.modPort l fun x => { x with epochTx := !x.epochTx, groupsTx := 0, groupsRx := 0, keyedAt := s.now } else s1

def spdmKeyUpdate (s : State) (l : Nat) : State := spdm s l 5 fun s => spdmAnswer (flipEpoch s l) l 0x69 []
def spdmHeartbeat (s : State) (l : Nat) : State := spdm s l 5 fun s => spdmAnswer s l 0x68 []
def spdmEnd (s : State) (l : Nat) : State := spdm s l 5 fun s => endSession (spdmAnswer s l 0x6C []) l

/-- R457, R466: this end starts KEY_UPDATE on an encrypted port after 2^32 groups, or 24 hours of timestamp time. -/
def keyUpdateDue (s : State) (p : Nat) : State :=
  let x := s.port p
  if !x.encrypt then s
  else
    let s1 := if 2 ^ 32 ≤ x.groupsTx ∨ 2 ^ 32 ≤ x.groupsRx then s else reach s (x.keyedAt + 86400000000000)
    flipEpoch (sendMgmt s1 p 0x10 0 (leBytes 4 4 ++ leBytes 4 0x0001E913 ++ fillBytes 56 0)) p

/-- R460: SET_CERTIFICATE for slots 1 to 7, inside a secured session, with a chain that ends in a certificate of the
attestation public key. -/
def spdmSetCertificate (s : State) (l slot : Nat) (chain : List Byte) (endsInKey : Bool) : State :=
  spdm s l 5 fun s =>
    if slot = 0 ∨ 7 < slot ∨ !endsInKey ∨ chain.isEmpty then spdmError s l errInvalid
    else spdmAnswer (s.modIdent fun d => { d with chains := tput [] d.chains slot chain }) l 0x6E []

/-! ### Vendor-defined requests over DOE 0 (R335, R461) -/

/-- VENDOR_DEFINED_RESPONSE with a 2-byte status. -/
def vendorAnswer (s : State) (st : Nat) : State := spdmAnswer s 8 0x7E (leBytes 2 st)

/-- Whether a request marked as secured arrived inside a session that exists. -/
def inSession (s : State) (secured : Bool) : Bool := secured && (s.link 8).st == 5

/-- R335: RING_ANCHOR. -/
def anchorBad (x : Anchor) : Bool :=
  x.rsvd || decide (x.cmdLog2 < 6) || decide (16 < x.cmdLog2) || decide (x.cmplLog2 < 6) || decide (16 < x.cmplLog2)
    || decide (2047 < x.vector) || x.cmdBase % 4096 != 0 || x.cmplBase % 4096 != 0

def ringAnchor (s : State) (x : Anchor) : State :=
  spdm s 8 0 fun s =>
    if s.sess.opened then vendorAnswer s stBUSY
    else if anchorBad x then vendorAnswer s stBADPARAM
    else if s.cxl.ideReq && !inSession s x.secured then vendorAnswer s stAUTH
    else
      let s1 := s.modCtx 0 fun k =>
        { k with live := true, vector := x.vector, cmdBase := x.cmdBase, cmplBase := x.cmplBase, cmdLog2 := x.cmdLog2, cmplLog2 := x.cmplLog2
                 cmdTail := 0, cmdRead := 0, aseq := 0, cmplIdx := 0, cmplHead := 0, accepted := 0, badOps := [] }
      vendorAnswer { s1 with sess := { s1.sess with anchored := true } } stOK

/-- R461: the ports whose masks change retrain; one that loses its ALLOW bit ends its session. -/
def policyPort (old : Ident) (s : State) (p : Nat) : State :=
  if old.require.testBit p == s.ident.require.testBit p && old.allow.testBit p == s.ident.allow.testBit p then s
  else
    let s1 := if s.ident.allow.testBit p then s else s.modLink p fun x => { x with st := min x.st 3 }
    if (s.port p).state ≥ 2 then s1.modPort p fun x => { x with state := 1, encrypt := x.encrypt && s.ident.allow.testBit p } else s1

/-- R461: LINK_POLICY. -/
def linkPolicy (s : State) (require allow : Nat) (rsvd secured : Bool) : State :=
  spdm s 8 0 fun s =>
    if !inSession s secured then vendorAnswer s stAUTH
    else if rsvd || decide (255 < require) || decide (255 < allow) || (require &&& allow) != require then vendorAnswer s stBADPARAM
    else vendorAnswer ((List.range 8).foldl (policyPort s.ident) (s.modIdent fun d => { d with require := require, allow := allow })) stOK

/-! ### Mailboxes and IDE (R328, R329) -/

/-- DOE discovery: vendor ID, type and next index (the protocol numbers are PCI-SIG's and CXL's, PRESUMED, log 18). -/
def discovery (mailbox index : Nat) : List Byte :=
  let l : List (Nat × Nat) := if mailbox = 0 then [(0x0001, 0), (0x0001, 1), (0x0001, 2)] else [(0x0001, 0), (0x1E98, 2)]
  match l[index]? with
  | some e => leBytes 2 e.1 ++ leBytes 1 e.2 ++ leBytes 1 (if index + 1 < l.length then index + 1 else 0)
  | none => leBytes 2 0xFFFF ++ leBytes 1 0 ++ leBytes 1 0

def doeDiscovery (s : State) (mailbox index : Nat) : State :=
  if s.cxl.up then spdmAnswer s (8 + mailbox) 0 (discovery mailbox index) else s

/-- Table 13-10: the values of the CDAT entries: DPA base, S and volatile; latencies in ns and bandwidths in MB/s for read
and write; EFI specific-purpose memory. -/
def cdatRead (s : State) (entry : Nat) : State :=
  let data := if entry = 0 then leBytes 8 0 ++ leBytes 8 s.hdmBytes ++ leBytes 1 0
    else if entry = 1 then leBytes 4 250 ++ leBytes 4 250 ++ leBytes 4 56000 ++ leBytes 4 56000
    else if entry = 2 then leBytes 1 1 ++ leBytes 8 0 ++ leBytes 8 s.hdmBytes else []
  if s.cxl.up then spdmAnswer s 9 1 data else s

/-- R329: IDE_KM keys a stream inside a secured session; once every configured stream is active the hold ends. -/
def ideKm (s : State) (stream : Nat) : State :=
  if !linkReaches s 8 || (s.link 8).st != 5 || !s.ident.valid then s
  else
    let s1 := s.modCxl fun x => { x with ideActive := x.ideActive ||| 2 ^ stream }
    if ideOk s1 && s1.start.phase == 0xF then setReady s1 true else s1

/-! ### Encrypted groups (R464, R465) -/

/-- R465: a group that fails is discarded as a CRC failure of its first frame. -/
def groupFail (s : State) (p : Nat) : State :=
  s.modPort p fun x => ({ x with authFail := x.authFail + 1, rxSeq := x.groupSeq, groupN := 0, groupAge := 0, asked := false } : Port).askReplay

/-- TAG: the receiver verifies the group that the record names. -/
def tagRecord (s : State) (p : Nat) (epoch : Bool) (fseq : Nat) (ok : Bool) : State :=
  let x := s.port p
  if !x.encrypt || x.groupN == 0 || x.groupSeq != fseq then s
  else if ok then s.modPort p fun x => { x with groupsRx := x.groupsRx + 1, groupN := 0, groupAge := 0, epochRx := epoch }
  else groupFail s p

def tagTimeout (s : State) (p : Nat) : State :=
  let x := s.port p
  if x.encrypt && x.groupN != 0 && decide (64 ≤ x.groupAge) then groupFail s p else s

/-- R462: measurement 8 as it now stands. -/
def linkMeas (s : State) : State :=
  if s.start.phase ≠ 0xF then s
  else setMeas s 8 (leBytes 1 (b2n s.start.warm + 2 * s.start.cause) ++ leBytes 1 s.ident.require ++ leBytes 1 s.ident.allow
    ++ leBytes 1 (((List.range 8).map fun p => b2n (s.port p).encrypt * 2 ^ p).foldl (· + ·) 0)
    ++ leBytes 1 (b2n (ideUp s) + 2 * b2n s.cxl.ideReq) ++ leBytes 1 (b2n (!s.svc.locked)) ++ leBytes 2 0)

/-! ### ATTEST (R451, R463) -/

/-- Table 19-6 without the signature. -/
def evidence (s : State) (nonce : List Byte) (slot : Nat) : List Byte :=
  leBytes 4 0x59455644 ++ leBytes 2 1 ++ leBytes 1 9 ++ leBytes 1 slot ++ leBytes 8 s.now ++ fixLen nonce 32 ++ leBytes 16 s.ident.dieId
    ++ (countFrom 1 9).flatMap (measRecord s) ++ shake256 (certChain s slot) 32

def startAttest (s0 : State) (c : Nat) (k : Cmd) : State :=
  let s := linkMeas s0
  let dest := k.fld 0x20 8
  let slot := k.fld 0x2C 1
  let body := evidence s (k.par.take 32) slot
  let len := body.length + 49856
  if parRsvd k [(0, 45)] || decide (7 < slot) then refuse s c k.aseq stBADPARAM
  else if !s.ident.valid then refuse s c k.aseq stAUTH
  else if (certChain s slot).isEmpty || decide (k.fld 0x28 4 < len) then refuse s c k.aseq stBADPARAM
  else if !inRegion (s.ctx c) dest len true then refuse s c k.aseq stWINDOW
  else if !s.cxl.up then refuse s c k.aseq stLINK
  else settle (takeFree (putHost s dest (body ++ freeStr s 49856)) 1) c k.aseq dDONE stOK len

end Sys2Proof.Machine
end

