-- ==== Sys2Proof/Machine/Service.lean ====
section
/-! DEFINITION. Field service (chapter 20): the console, AMON, and the self-tests with their verdicts. -/

namespace Sys2Proof.Machine

/-! ### The console (R470 to R472) -/

/-- The end of a console command: its values, and OK or ERR with a status (R471). -/
def say (s : State) (final : Nat) (vals : List Nat) : State := s.modSvc fun v => { v with out := vals, final := some final }

/-- A byte string as groups of 4 bytes. -/
def groups (l : List Byte) : List Nat := (chunks 4 l.length l).map leNat

/-- R472: the console is unlocked, as it always is in ROM recovery. -/
def unlocked (s : State) : Bool := !s.svc.locked || s.start.recovery

/-- R470: commands other than ID, STATUS, AMON and RECOVER wait for Dister. -/
def underDister (s : State) (f : State → State) : State := if s.start.dister then f s else say s stWRONG []

def consoleHelp (s : State) : State := underDister s fun s => say s stOK (List.range 14)
def consoleId (s : State) : State := say s stOK (groups (identRecord s))
def consoleStatus (s : State) : State :=
  say s stOK [startReg s 0, faultReg s 0, faultReg s 8, faultReg s 0x10, secReg s 0, trellisReg s 0]
def consoleLog (s : State) (n : Nat) : State :=
  underDister s fun s => say s stOK ((s.faults.log.reverse.take n).flatMap fun r => groups r.bytes)

/-- R265: every peg record of the chip, or of one context. -/
def consolePegdump (s : State) (ctx : Option Nat) : State :=
  underDister s fun s => match ctx with
    | some c => say s stOK (groups (dumpBytes s c 0 4096))
    | none => say s stOK ((List.range 262144).flatMap fun p => groups ((s.peg p).bytes s.now))

/-- READ: at most 4 KiB, under the rules of DEBUG_READ (R357), and of the peg records in the log region (R260). -/
def consoleRead (s : State) (a n : Nat) : State :=
  underDister s fun s =>
    let inLog := decide (logRegion ≤ a) && decide (a + n ≤ logRegion + 0x1000000)
    if a < 0x020000000000 ∧ !unlocked s then say s stNOTPERM []
    else if n % 8 ≠ 0 ∨ 4096 < n ∨ a % 8 ≠ 0 ∨ !(debugRange a n || inLog) then say s stBADPARAM []
    else say (readIn s a n) (if isPoisoned s a n then stUNCORR else stOK) (groups (debugBytes s a n))

/-- R470: the rates that BAUD selects. -/
def baudOk (r : Nat) : Bool := [230400, 460800, 921600, 1500000, 3000000].contains r
def consoleBaud (s : State) (r : Nat) : State :=
  underDister s fun s => if baudOk r then (say s stOK []).modSvc fun v => { v with baud := r } else say s stBADPARAM []

def consoleUnlock (s : State) : State :=
  underDister s fun s => if s.sess.opened then say s stWRONG [] else (say s stOK []).modSvc fun v => { v with locked := false, lockAfter := false }
def consoleLock (s : State) : State := underDister s fun s => (say s stOK []).modSvc fun v => { v with locked := true, lockAfter := false }

/-- R446, Table 20-1: RESET WARM and RESET COLD. -/
def consoleReset (s : State) (cold : Bool) (i : StartInputs) : State :=
  underDister s fun s =>
    if !unlocked s then say s stNOTPERM []
    else if cold then warmReset ((quiesce s).modStart fun t => { t with hdr := { t.hdr with valid := false } }) 3 i
    else warmReset (quiesce s) 2 i

/-- R479: RECOVER in ROM recovery; the ROM verifies the image before it writes the slot, and then starts cold. -/
def consoleRecover (s : State) (slot : Nat) (r : SignedRec) (i : StartInputs) : State :=
  if !s.start.recovery then say s stWRONG []
  else if 1 < slot then say s stBADPARAM []
  else if !recOk r 1 s.start.inputs.dieId 0x01000000 then say s stAUTH []
  else
    let s1 := logicReset s
    beginStart (s1.modStart fun t => { t with hdr := {} }) s.faults.lastCause (if slot = 0 then { i with slot0 := r } else { i with slot1 := r })

/-- R481: the return record and its digest. -/
def consoleRma (s : State) : State :=
  underDister s fun s =>
    let l := identRecord s ++ leBytes 8 (startReg s 0) ++ leBytes 8 (testReg s 0) ++ leBytes 8 (testReg s 8)
      ++ (s.faults.log.reverse.take 64).flatMap FRec.bytes
    say s stOK (groups (l ++ shake256 l 32))

/-! ### AMON (R473) -/

/-- Table 20-2: whether a selection exists. -/
def amonOk (sel idx : Nat) : Bool :=
  [0x00, 0x01, 0x02, 0x06, 0x10, 0x12, 0x30].contains sel || ([0x03, 0x04, 0x05].contains sel && decide (idx ≤ 11))
    || ([0x11, 0x20].contains sel && decide (idx ≤ 127))

/-- A reading clamped to 0 to 1,200 mV. -/
def amonClamp (x : Int) : Nat := min 1200 x.toNat

/-- The output in mV, where `mv` is the voltage measured on the selected rail (Table 20-2). -/
def amonMv (s : State) (sel idx mv : Nat) : Nat :=
  if sel = 0x00 then 0
  else if sel ≤ 0x05 then amonClamp mv
  else if sel = 0x06 then amonClamp (mv / 2 : Nat)
  else if sel = 0x10 then amonClamp (tmaxTenths s)
  else if sel = 0x11 then amonClamp (s.core idx).temp
  else if sel = 0x12 then amonClamp (10 * s.trellis.tavs : Nat)
  else if sel = 0x20 then amonClamp ((s.core idx).rate / 20 : Nat)
  else if !s.svc.running.isEmpty then 1150
  else amonClamp (50 * s.svc.failBlock : Nat)

/-- AMON_UPDATE, every 1 ms. -/
def amonUpdate (s : State) (mv : Nat) : State := s.modSvc fun v => { v with amonOut := amonMv s v.amonSel v.amonIdx mv }

/-- AMON: select and print the value that the device measures. -/
def consoleAmon (s : State) (sel idx mv : Nat) : State :=
  if !amonOk sel idx then say s stBADPARAM []
  else
    let out := amonMv s sel idx mv
    say (s.modSvc fun v => { v with amonSel := sel, amonIdx := idx, amonOut := out }) stOK [out]

/-! ### Self-tests: targets and refusals (R475, R476, R478) -/

/-- Table 20-3: the number of targets of a block and test, 0 where the pair is not listed. -/
def testTargets (block test : Nat) : Nat :=
  match block, test with
  | 0x01, 1 => 128
  | 0x02, 1 => 128
  | 0x03, 1 => 128
  | 0x04, 1 => 128
  | 0x04, 2 => 128
  | 0x05, 1 => 128
  | 0x06, 1 => 96
  | 0x06, 2 => 96
  | 0x07, 1 => 32
  | 0x07, 2 => 32
  | 0x07, 3 => 32
  | 0x09, 1 => 1
  | 0x0A, 1 => 8
  | 0x0B, 1 => 1
  | 0x0C, 1 => 1
  | _, _ => 0

def coreBlock (b : Nat) : Bool := 1 ≤ b && b ≤ 5
def destructive (block test : Nat) : Bool := (block == 4 || block == 6) && test == 2
/-- R476: tests that run beside live work. -/
def quickTest (block test : Nat) : Bool := test == 1 && [0x04, 0x05, 0x06, 0x0B, 0x0C].contains block

/-- R476: the target is idle. -/
def targetIdle (s : State) (block index : Nat) : Bool :=
  if coreBlock block then !(s.core index).busy && !(s.core index).resFull
  else if block = 0x07 then decide ((s.port (index / 4)).state < 2)
  else if block = 0x0A then !s.rphase.active
  else if block = 0x09 then !s.cxl.up else true

/-- R478: two tests have one target. -/
def Test.same (t : Test) (block index : Nat) : Bool := t.index == index && (t.block == block || (coreBlock t.block && coreBlock block))

/-- R475, R476, R478: the status with which a test is refused, or ST_OK. -/
def testStatus (s : State) (block test index : Nat) (intrusive : Bool) : Nat :=
  if testTargets block test ≤ index then stBADPARAM
  else if s.svc.running.any (fun t => t.same block index) then stBUSY
  else if block == 0x07 && (s.port (index / 4)).state == 1 then stBUSY
  else if destructive block test && (!(otherCtxs s).isEmpty || s.cxl.hdmCommitted || (block == 6 && s.image.isSome)) then stWRONG
  else if block == 0x09 && intrusive then stBUSY
  else if !quickTest block test && !targetIdle s block index && !intrusive then stBUSY
  else if block == 0x05 && pegsFree s == 0 then stNOPEG
  else stOK

/-- ST_LAST of a test that is refused (Table 20-6). -/
def noteTest (s : State) (block test index status : Nat) (console : Bool) : State :=
  s.modSvc fun v => { v with lastBlock := block, lastTest := test, lastIndex := index, lastStatus := status, lastConsole := console }

/-- R477, step 1: the core's plot is offered no more, and its unit is pre-empted unless it belongs to a deadline context. -/
def drainCore (s : State) (n : Nat) : State :=
  let s1 := s.modCore n fun c => { c with testing := true }
  match unitOn s1 n with
  | some u => if isDeadline s1 u then s1 else requestStop s1 u
  | none => s1

/-- R474 to R477: a test starts; TESTOK is released. -/
def beginTest (s : State) (x : Test) : State :=
  let s1 := s.modSvc fun v => { v with running := v.running ++ [x], testok := false }
  let s2 := if destructive x.block x.test && x.block == 6 then s1.modStart fun t => { t with hdr := { t.hdr with valid := false } } else s1
  if coreBlock x.block && !quickTest x.block x.test then drainCore s2 x.index
  else if x.block == 0x07 && decide ((s2.port (x.index / 4)).state ≥ 2) then portDown s2 (x.index / 4)
  else s2

/-- Table 20-4, steps 2 and 3: once the core has drained, its saved states move to LPDDR5X and it is marked FENCED. -/
def testReady (s : State) : State :=
  (s.svc.running.filter fun x => x.intrusive && coreBlock x.block && !quickTest x.block x.test).foldl (fun s x =>
    let n := x.index
    if (s.core n).mode = .idle then
      let s0 := (s.saved.filter fun (v : Saved) => v.core == n && v.inReserve).foldl (fun s v => writeSlot s { v with inReserve := false }) s
      let s1 := { s0 with saved := s.saved.map fun (v : Saved) => if v.core = n then { v with inReserve := false } else v }
      (s1.modCore n fun c => { c with mode := .fenced, resFull := false, resCtx := 0 }).modFaults fun f => { f with fenced := ninsert f.fenced n }
    else s) s

/-- SELFTEST (R357, R475). -/
def startSelftest (s : State) (c : Nat) (k : Cmd) : State :=
  let block := k.fld 0 1
  let test := k.fld 1 1
  let index := k.fld 2 2
  let intrusive := k.fld 4 1 == 1
  if parRsvd k [(0, 5)] || decide (1 < k.fld 4 1) then refuse s c k.aseq stBADPARAM
  else
    let st := testStatus s block test index intrusive
    if st ≠ stOK then refuse (noteTest s block test index st false) c k.aseq st
    else beginTest s { block := block, test := test, index := index, intrusive := intrusive, aseq := some k.aseq }

/-- TEST: INTRUSIVE and the destructive tests need an unlocked console (Table 20-1). -/
def consoleTest (s : State) (block test index : Nat) (intrusive : Bool) : State :=
  underDister s fun s =>
    if (intrusive || destructive block test) && !unlocked s then say s stNOTPERM []
    else
      let st := testStatus s block test index intrusive
      if st ≠ stOK then say (noteTest s block test index st true) st []
      else beginTest (s.modSvc fun v => { v with final := none, out := [] }) { block := block, test := test, index := index, intrusive := intrusive, console := true }

/-! ### TEST ALL (R472) -/

/-- Test 0x01 of every block and index, in the order of Table 20-3. -/
def allTests : List (Nat × Nat) := (List.range 13).flatMap fun b => (List.range (testTargets b 1)).map fun i => (b, i)

/-- Start the next test that is not refused; busy targets are skipped. At the end TESTOK goes low if every test passed. -/
def nextTest (s : State) : List (Nat × Nat) → State
  | [] => (say s stOK s.svc.out).modSvc fun v => { v with testok := v.allPass.getD false, allPass := none, allLeft := [] }
  | (b, i) :: l =>
    if testStatus s b 1 i false = stOK then
      beginTest (s.modSvc fun v => { v with allLeft := l }) { block := b, test := 1, index := i, console := true }
    -- a busy target is printed as SKIP
    else nextTest (s.modSvc fun v => { v with out := v.out ++ [b, i, 2, 0] }) l

def consoleTestAll (s : State) : State :=
  underDister s fun s =>
    if s.svc.allPass.isSome then say s stBUSY []
    else nextTest (s.modSvc fun v => { v with final := none, out := [], allPass := some true }) allTests

/-- Table 20-3: the part of a test's pass criterion that its data shows. -/
def meetsCriterion (s : State) (x : Test) (data : Nat) : Bool :=
  let lo := data % 2 ^ 32
  let hi := bitsAt data 32 32
  if x.block = 1 ∨ x.block = 2 then
    hi == 0xFFFFFFFF && decide (beatRate (s.trellis.vmeas - 15) (s.core x.index).temp ≤ 100 * lo)
  else if x.block = 3 then data % 256 == 0
  else if x.block = 4 ∨ x.block = 5 then lo == 0
  else if x.block = 6 then lo == 0 && (x.test == 2 || decide (200 ≤ bitsAt data 32 16))
  else if x.block = 7 then decide (data ≤ 100000)
  else if x.block = 9 then data % 2 ^ 16 == 0
  else if x.block = 0x0B then
    decide (bitsAt data 8 8 ≤ 5) && decide (s.trellis.vtarget ≤ s.trellis.vmeas + 15) && decide (s.trellis.vmeas ≤ s.trellis.vtarget + 15)
  else if x.block = 0x0C then decide (64000 ≤ lo)
  else true

/-! ### Verdicts (R441, R443, R474, R475, R477) -/

/-- Local addresses whose content a destructive test leaves open. -/
def scrambled (s : State) (x : Test) : List Nat :=
  if x.block = 4 then
    (List.range (49152 * 512)).filterMap fun o => if 43776 ≤ o / 512 ∧ o / 512 < 44288 then none else some (0x010000000000 + x.index * 0x01800000 + o)
  else (countFrom poolStart (0x00C000000000 - poolStart)).filter fun a => chanOf s a == x.index

/-- Put open bytes there. -/
def scramble (s : State) (as : List Nat) : State :=
  takeFree { s with mem := as.foldl (fun m a => tput 0 m a (Config.openByte s.freeCtr a)) s.mem } 1

/-- R441: a fence ends. -/
def unfence (s : State) (n : Nat) : State :=
  if (s.core n).mode = .fenced then
    (s.modCore n fun c => { c with mode := .idle }).modFaults fun f => { f with fenced := f.fenced.filter (· ≠ n) }
  else s

/-- What the verdict does to the target. -/
def verdict (s : State) (x : Test) (pass : Bool) : State :=
  if coreBlock x.block then
    let s1 := s.modCore x.index fun c => { c with testing := false }
    if pass then unfence s1 x.index
    else if x.doomed then s1
    else fenceCore (if x.intrusive then unfence s1 x.index else s1) x.index
  else if x.block = 0x0A ∧ pass then s.modRake x.index fun k => { k with halted := false }
  else if x.block = 0x07 ∧ x.intrusive then s.modPort (x.index / 4) fun p => { p with state := 1 }
  else s

/-- R474, R480: the registers, TESTOK and the record or line that reports the verdict. -/
def reportTest (s : State) (x : Test) (pass : Bool) (data : Nat) : State :=
  let st := if pass then stOK else stHWFAULT
  let s1 := (noteTest s x.block x.test x.index st x.console).modSvc fun v =>
    { v with data := data % 2 ^ 64, failBlock := if pass then 0 else x.block, passes := v.passes + b2n pass, fails := v.fails + b2n (!pass)
             testok := v.allPass.isNone && pass, allPass := v.allPass.map fun a => a && (pass || !x.console)
             locked := v.locked || (x.console && v.lockAfter), lockAfter := v.lockAfter && !x.console }
  match x.aseq with
  | some a => settle s1 0 a dDONE st data
  | none =>
    if s1.svc.allPass.isSome then nextTest (s1.modSvc fun v => { v with out := v.out ++ [x.block, x.index, b2n pass, data] }) s1.svc.allLeft
    else say s1 stOK [b2n pass, data]

/-- SELFTEST_COMPLETE. An intrusive test of a core ends only after the core has been fenced for it, and one of a rake only
when no phase is active. -/
def selftestComplete (s : State) (block index : Nat) (pass : Bool) (data : Nat) : State :=
  match s.svc.running.find? (fun t => t.block == block && t.index == index) with
  | none => s
  | some x =>
    let waits := x.intrusive && ((coreBlock block && !quickTest block x.test && (s.core index).mode != .fenced) || (block == 0x0A && s.rphase.active))
    if waits then s
    else
      let ok := pass && meetsCriterion s x data && !x.doomed
      let s1 := s.modSvc fun v => { v with running := delFirst (fun t => t.block == block && t.index == index) v.running }
      let s2 := if destructive block x.test then scramble s1 (scrambled s1 x) else s1
      reportTest (verdict s2 x ok) x ok data

/-- R439, R478: a core hardware fault; one during an intrusive test of the core fences it for good and fails the test. -/
def coreFault (s : State) (n : Nat) : State :=
  let hit (t : Test) : Bool := t.intrusive && coreBlock t.block && t.index == n
  if s.svc.running.any hit then
    let s1 := s.modSvc fun v => { v with running := v.running.map fun (t : Test) => if hit t then { t with doomed := true } else t }
    fenceCore (unfence s1 n) n
  else fenceCore s n

end Sys2Proof.Machine
end

