-- ==== Sys2Proof/Machine/HostPort.lean ====
section
/-! DEFINITION. The CXL host port (chapter 13): doorbells and context pages, host tray rings, register writes through BAR0,
host-managed device memory, the link and the loss of the host. -/

namespace Sys2Proof.Machine

/-- A discarded host write. -/
def wdrop (s : State) : State := s.modCxl fun x => { x with wdrop := x.wdrop + 1 }

/-- R315: a write to the page of a context that exists; else it is discarded and counted. A write needs the link. -/
def onPage (s : State) (c : Nat) (f : State → State) : State :=
  if !s.cxl.up then s else if (s.ctx c).live then f s else wdrop s

/-! ### Doorbells (R316, R336, R338) -/

/-- R316: a doorbell that the device ignores. -/
def dbIgnored (s : State) (c : Nat) : State :=
  (s.modCxl fun x => { x with dbbad := x.dbbad + 1 }).modCtx c fun x => { x with dbbad := true }

/-- Parse a command header (Table 14-2). -/
def parseHdr (l : List Byte) : CmdHdr :=
  let f (o n : Nat) : Nat := leNat ((l.drop o).take n)
  { nparam := f 1 1, flags := f 2 2, cmdid := f 4 4, target := f 8 2, haddr := f 0x10 8, hlen := f 0x18 4
    rsvd := f 0x0A 6 != 0 || ((l.drop 0x1C).take 36).any (· != 0) }

/-- The announced headers whose OPCODE Table 14-7 does not list, walking the ring from index `i` (their commands have no
row of their own). A slot that host memory does not show (64 zero bytes) is left to its row (log 9). -/
def scanOps (s : State) (x : Ctx) : Nat → Nat → Nat → List (Nat × CmdHdr)
  | 0, _, _ => []
  | fuel + 1, i, n =>
    if n = 0 then []
    else
      let l := readHost s (x.cmdBase + i % 2 ^ x.cmdLog2 * 64) 64
      let h := parseHdr l
      let op := leNat (l.take 1)
      let len := 1 + (if h.nparam ≤ 15 then h.nparam else 0)
      let rest := scanOps s x fuel ((i + len) % 2 ^ 32) (n - len)
      if knownOps.contains op || decide (n < len) || l.all (· == 0) then rest else (i, h) :: rest

/-- CMD_TAIL: announce the commands up to a tail. -/
def cmdTail (s : State) (c tail : Nat) (data : Cells) : State :=
  onPage s c fun s =>
    let s1 := applyHost s data
    let x := s1.ctx c
    let n := (tail + 2 ^ 32 - x.cmdRead) % 2 ^ 32
    if !s.cxl.ready then s1
    else if 2 ^ x.cmdLog2 < n then dbIgnored s1 c
    else s1.modCtx c fun k => { k with cmdTail := tail, badOps := scanOps s1 x (2 ^ x.cmdLog2) x.cmdRead n, fresh := false }

/-- CMPL_HEAD: records up to the head are free, and the journal's oldest entry advances (R338, R433). -/
def cmplHead (s : State) (c head : Nat) : State := onPage s c fun s => jAdvance (s.modCtx c fun x => { x with cmplHead := head })

/-- EVR_HEAD. -/
def evrHead (s : State) (c head : Nat) : State := onPage s c fun s => s.modCtx c fun x => { x with evrHead := head }

/-! ### Host tray rings (R318 to R321) -/

def Ctx.htr (x : Ctx) (r : Nat) : HtRing := if r = 0 then x.htr0 else x.htr1
def State.htr (s : State) (c r : Nat) : HtRing := (s.ctx c).htr r
def State.modHtr (s : State) (c r : Nat) (f : HtRing → HtRing) : State :=
  s.modCtx c fun x => if r = 0 then { x with htr0 := f x.htr0 } else { x with htr1 := f x.htr1 }

/-- HTR_TAIL. -/
def htrTail (s : State) (c r tail : Nat) (data : Cells) : State :=
  onPage s c fun s =>
    let s1 := applyHost s data
    let x := s1.htr c r
    let n := (tail + 2 ^ 16 - x.head) % 2 ^ 16
    if !s.cxl.ready then s1
    else if x.log2n < 3 ∨ 2 ^ x.log2n < n ∨ n < (x.started + 2 ^ 16 - x.head) % 2 ^ 16 then dbIgnored s1 c
    else (s1.modHtr c r fun x => { x with tail := tail }).modCtx c fun k => { k with fresh := false }

/-- HTR_RESUME. -/
def htrResume (s : State) (c r : Nat) : State := onPage s c fun s => s.modHtr c r fun x => { x with halted := false }

/-- Record the outcome of a descriptor; any status but ST_OK halts the ring (R321). -/
def htrResult (s : State) (c r idx st : Nat) (dup : Bool) (seq : Nat) : State :=
  s.modHtr c r fun x =>
    { x with halted := x.halted || st != stOK
             live := modFirst (fun d => d.idx == idx) (fun d => { d with wait := false, res := some (st, seq, dup) }) x.live }

/-- R320: write back the descriptors at the front of a ring that have their outcome, in ring order. -/
def htrFlush (c r : Nat) : Nat → State → State
  | 0, s => s
  | fuel + 1, s =>
    match (s.htr c r).live with
    | d :: rest =>
      match d.res with
      | some (st, seq, dup) =>
        if heldFull s then s
        else
          let x := s.htr c r
          let a := x.base + d.idx % 2 ^ x.log2n * 64
          let l := readHost s a 64
          let ctrl := leNat (l.take 4)
          let ctrl' := setBits (setBits ctrl 0 1 0) 5 1 (b2n dup)
          let sq := if d.op = 1 ∨ d.op = 2 then leBytes 4 seq else (l.drop 0x1C).take 4
          let b := leBytes 4 ctrl' ++ leBytes 2 st ++ (l.drop 6).take 22 ++ sq ++ leBytes 8 s.now ++ l.drop 0x28
          htrFlush c r fuel (toHost (s.modHtr c r fun x => { x with live := rest, head := (x.head + 1) % 2 ^ 16 })
            { addr := a, bytes := b, irq := if d.irq then some c else none })
      | none => s
    | [] => s

/-- Copy an entry and its payload to the buffer of a GET. -/
def htrCopy (s : State) (buf : Nat) (entry : List Byte) (words : List (List Byte × Bool)) : State :=
  putLines (putHost s buf (entry ++ fillBytes 32 0)) (buf + 64) words

/-- The payload of a packet with the poison of each word. -/
def payloadLines (s : State) (t : Tray) (p : Packet) : List (List Byte × Bool) :=
  (List.range p.nwords).map fun i => (readMem s (t.wordAddr (p.pos + i)) 64, isPoisoned s (t.wordAddr (p.pos + i)) 64)

/-- R176: a GET of a tray with no READY packet returns the idle packet. -/
def htrIdle (s : State) (c r : Nat) (d : HtrLive) : State :=
  let t := s.tray d.tray
  htrResult (htrCopy s d.buf (idleEntry s t) [(idleWord s t, false)]) c r d.idx stOK false t.nextSeq

/-- GET of the first READY packet (R319, R321). -/
def htrTake (s : State) (c r : Nat) (d : HtrLive) (p : Packet) (linkOk : Bool) : State :=
  let t := s.tray d.tray
  let len := 64 + 64 * p.nwords
  if d.bufWords < p.nwords then htrResult s c r d.idx stBADPARAM false 0
  else if !inRegion (s.ctx c) d.buf len true then htrResult s c r d.idx stWINDOW false 0
  else if t.kind = 1 then
    let s1 := (claimHead s d.tray (c + 4096)).1
    if linkOk then htrResult (htrCopy s1 d.buf (entryBytes t p) (payloadLines s t p)) c r d.idx stOK false p.seq
    else htrResult (unclaimPkt s1 d.tray p.seq) c r d.idx stLINK false 0
  else
    let s1 := (readHead s d.tray).1
    let s2 := if linkOk then htrCopy s1 d.buf (entryBytes t p) (payloadLines s t p) else s1
    htrResult (endHold s2 d.tray p.seq) c r d.idx (if linkOk then stOK else stLINK) false (if linkOk then p.seq else 0)

/-- GET. -/
def htrGet (s : State) (c r : Nat) (d : HtrLive) (linkOk : Bool) : State :=
  let s1 := dropBadHeads d.tray (s.tray d.tray).packets.length s
  let t := s1.tray d.tray
  match t.head with
  | some p => htrTake s1 c r d p linkOk
  | none =>
    if t.readmode then
      if 4 ≤ t.waiters.length then htrResult s1 c r d.idx stBUSY false 0
      else (s1.modTray d.tray fun t => { t with waiters := t.waiters ++ [.host c r d.idx] }).modHtr c r fun x =>
        { x with live := modFirst (fun e => e.idx == d.idx) (fun e => { e with wait := true }) x.live }
    else if !inRegion (s.ctx c) d.buf 128 true then htrResult s1 c r d.idx stWINDOW false 0
    else if !linkOk then htrResult s1 c r d.idx stLINK false 0
    else htrIdle s1 c r d

/-- PUT: OPEN and COMMIT as one operation; one refused for credit waits on the chip (R320). -/
def htrPut (s : State) (c r : Nat) (d : HtrLive) (linkOk : Bool) : State :=
  let x := s.ctx c
  let e := { (parseEntry (readHost s d.buf 32)) with slot := d.slot }
  let len := 64 + 64 * (e.length + 1)
  if !inRegion x d.buf 64 false || (linkOk && !inRegion x d.buf len false) then htrResult s c r d.idx stWINDOW false 0
  else if !linkOk then htrResult s c r d.idx stLINK false 0
  else
    match trayOpen s d.tray e 0xFFFE false .none with
    | (s1, .refused st) =>
      if st = stNOCREDIT then
        (s1.modHtr c r fun x => { x with live := modFirst (fun q => q.idx == d.idx) (fun q => { q with wait := true, counted := true }) x.live }).modCxl
          fun z => { z with htrwait := if d.counted then z.htrwait else z.htrwait + 1 }
      else htrResult s1 c r d.idx st false 0
    | _ =>
      let bad := (spanLines 64 d.buf len).any s.hostPoison.contains
      putPacket (s.modHtr c r fun x => { x with live := modFirst (fun q => q.idx == d.idx) (fun q => { q with wait := false }) x.live })
        d.tray e 0xFFFE (readHost s (d.buf + 64) (64 * (e.length + 1))) bad false (.host c r d.idx)

/-- DONE and UNCLAIM of a packet that this context's host took. -/
def htrSettle (s : State) (c r : Nat) (d : HtrLive) : State :=
  match (s.tray d.tray).find .claimed d.seq with
  | some p =>
    if p.claimer ≠ c + 4096 then htrResult s c r d.idx stBADPARAM false 0
    else htrResult (if d.op = 3 then retirePkt s d.tray p dDONE stOK else unclaimPkt s d.tray d.seq) c r d.idx stOK false 0
  | none => htrResult s c r d.idx stBADPARAM false 0

/-- R318, R321: whether the fields of a descriptor break a rule. -/
def htrBad (s : State) (c : Nat) (l : List Byte) : Bool :=
  let f (o n : Nat) : Nat := leNat ((l.drop o).take n)
  let ctrl := f 0 4
  let op := bitsAt ctrl 1 3
  let n := f 6 2
  let t := s.tray n
  let sl := t.slot (if t.fmtver = 2 then f 8 1 else 0)
  bitsAt ctrl 0 1 == 0 || bitsAt ctrl 6 26 != 0 || op == 0 || decide (4 < op) || decide (32767 < n) || decide (15 < f 8 1) || f 9 7 != 0
    || (l.drop 0x28).any (· != 0) || f 0x10 8 % 64 != 0 || (op == 2) != (f 0x18 4 != 0) || decide (256 < f 0x18 4)
    || (if c = 0 then op != 2 || (n != 1 && n != 3) else t.kind == 0 || t.ctx != c || decide (n < 64))
    || (op == 1 && t.kind == 1 && !(sl.enabled && sl.node == 0xFFFE))
    || (decide (3 ≤ op) && t.kind != 1)

/-- R320: whether a ring may start its next descriptor. -/
def htrMayStart (s : State) (c r : Nat) : Bool :=
  let x := s.htr c r
  s.cxl.up && s.cxl.ready && (s.ctx c).live && !x.halted && decide (3 ≤ x.log2n) && x.started != x.tail && decide (x.live.length < 16)
    && !x.live.any HtrLive.wait && !heldFull s

/-- HTR_PUT, HTR_GET, HTR_DONE and HTR_UNCLAIM: start the next announced descriptor of a ring whose OP is the row's; one
that names no operation fails under any of them. -/
def startHtr (s : State) (c r op : Nat) (linkOk : Bool) : State :=
  let x := s.htr c r
  let a := x.base + x.started % 2 ^ x.log2n * 64
  let l := readHost s a 64
  let f (o n : Nat) : Nat := leNat ((l.drop o).take n)
  let k := bitsAt (f 0 4) 1 3
  let d : HtrLive := { idx := x.started, op := k, tray := f 6 2, slot := f 8 1, irq := bitsAt (f 0 4) 4 1 == 1, buf := f 0x10 8
                       bufWords := f 0x18 4, seq := f 0x1C 4 }
  if !htrMayStart s c r || (k != op && decide (1 ≤ k) && decide (k ≤ 4)) then s
  else
    let s1 := s.modHtr c r fun x => { x with started := (x.started + 1) % 2 ^ 16, live := x.live ++ [d] }
    if htrBad s c l then htrResult s1 c r d.idx stBADPARAM false 0
    else if k = 1 then htrPut s1 c r d linkOk
    else if k = 2 then htrGet s1 c r d linkOk
    else htrSettle s1 c r d

/-- R320: a PUT that waits is tried again once its slot has credit. -/
def retryPuts (s : State) (c r : Nat) : State :=
  match (s.htr c r).live.find? (fun d => d.wait && d.op == 1) with
  | none => s
  | some d =>
    let t := s.tray d.tray
    let e := parseEntry (readHost s d.buf 32)
    let sl := t.slot (if t.fmtver = 2 then d.slot else 0)
    if s.cxl.up && (t.kind != 1 || (decide (1 ≤ sl.pktAvail) && decide (e.length + 1 ≤ sl.wordAvail) && !jfull s)) then htrPut s c r d true else s

/-! ### Register writes (R272, R306, R313 to R315) -/

/-- R272, R416: a write of SALT_NODE. -/
def saltNodeWrite (s : State) (v : Nat) : State :=
  let node := v % 2 ^ 16
  if !s.cxl.up then s
  else if node = 0xFFFE ∨ (s.salt.node ≠ 0xFFFF ∧ (List.range 8).any fun p => decide ((s.port p).state ≥ 2)) then wdrop s
  else
    let s1 := (s.modSalt fun x => { x with node := node }).modStart fun t => { t with hdr := { t.hdr with node := node } }
    (List.range 8).foldl (fun s p => if (s.port p).state ≥ 2 then sendControl s p (.train (ownTrain s p)) else s) s1

/-- R306: a write of SALT_CFG. -/
def saltCfgWrite (s : State) (v : Nat) : State :=
  let t := v % 2 ^ 17
  if !s.cxl.up then s
  else if t < 10 ∨ 100000 < t then wdrop s else s.modSalt fun x => { x with rspTimeout := t }

/-- R51: FMT_SATCNT is cleared by its read. -/
def satcntRead (s : State) (n : Nat) : State :=
  { (s.modEng n fun e => { e with satcnt := 0 }) with readOut := leBytes 8 (s.core n).run.eng.satcnt }

/-- A W1C bit: the register's flag stays only where the write has 0. -/
def w1c (flag : Bool) (v bit : Nat) : Bool := flag && !v.testBit bit

/-- A host write through the CSR window, to register offset `o` from 0x0200_0000_0000 (R314). -/
def csrWrite (s : State) (o v : Nat) : State :=
  let n := o / 0x10000
  let off := o % 0x10000
  if o = 0x09000000 then saltNodeWrite s v
  else if o = 0x09000008 then saltCfgWrite s v
  else if o = 0x0C000000 then
    s.modFaults fun f => { f with fenceNew := w1c f.fenceNew v 0, ueNew := w1c f.ueNew v 1, hwfNew := w1c f.hwfNew v 2 }
  else if 0x01001000 ≤ o ∧ o < 0x01001300 then
    let ch := (o - 0x01001000) / 8
    if v.testBit 48 then { s with chanEcc := tput 0 s.chanEcc ch (tget 0 s.chanEcc ch % 2 ^ 48) } else s
  else if o = 0x05000000 then { s with trayUeNew := w1c s.trayUeNew v 48 }
  else if n < 128 ∧ off = 0x180 then s.modEng n fun e => { e with flags := e.flags &&& ~~~(BitVec.ofNat 7 v) }
  else if n < 128 ∧ off = 0x140 then s.modCore n fun c => { c with fault := { c.fault with valid := w1c c.fault.valid v 31 } }
  else if n < 128 ∧ off = 0x318 then s.modCore n fun c => { c with ueValid := w1c c.ueValid v 31 }
  else wdrop s

/-- A write to the MSI-X table: the second word of an entry holds Vector Control, whose bit 0 masks the vector. Unmasking
a vector sends a pending message. -/
def msixWrite (s : State) (w v : Nat) : State :=
  let s1 := s.modCxl fun x => { x with msixTab := tput 0 x.msixTab w v }
  if w % 2 = 0 then s1
  else
    let vec := w / 2
    if v.testBit 32 then s1.modCxl fun x => { x with masked := ninsert x.masked vec }
    else
      let s2 := s1.modCxl fun x => { x with masked := x.masked.filter (· ≠ vec), pba := x.pba.filter (· ≠ vec) }
      if s1.cxl.pba.contains vec then raiseVec s2 vec else s2

/-- A write to a context page (Table 13-6). -/
def pageWrite (s : State) (c off v : Nat) : State :=
  if off = 0x000 then cmdTail s c (v % 2 ^ 32) []
  else if off = 0x008 then cmplHead s c (v % 2 ^ 32)
  else if off = 0x010 then evrHead s c (v % 2 ^ 32)
  else if off = 0x018 then htrTail s c 0 (v % 2 ^ 16) []
  else if off = 0x020 then htrTail s c 1 (v % 2 ^ 16) []
  else if off = 0x028 then
    onPage s c fun s =>
      let s1 := if v.testBit 0 then htrResume s c 0 else s
      if v.testBit 1 then htrResume s1 c 1 else s1
  else if off = 0x030 then onPage s c fun s => s.modCtx c fun x => { x with dbbad := w1c x.dbbad v 2 }
  else if off = 0x038 then onPage s c fun s => if v % 1024 ≤ 1000 then s.modCtx c fun x => { x with holdoff := v % 1024 } else wdrop s
  else wdrop s

/-- REGISTER_WRITE: an 8 B write at an offset of BAR0 (Table 13-3). The spec does not lay out the component registers, which keep what is
written (DESIGN CHOICE, log 105); the decoder among them is committed by HDM_DECODER_COMMIT. -/
def registerWrite (s : State) (off v : Nat) : State :=
  if !s.cxl.up then s
  else if off % 8 ≠ 0 then wdrop s
  else if off = 0x00010008 then s.modCxl fun x => { x with winsel := v % 2 ^ 12 }
  else if off < 0x00010000 then s.modCxl fun x => { x with comp := tput 0 x.comp (off / 8) v }
  else if 0x00020000 ≤ off ∧ off < 0x00028000 then msixWrite s ((off - 0x00020000) / 8) v
  else if 0x00400000 ≤ off ∧ off < 0x00800000 then csrWrite s (s.cxl.winsel * 0x400000 + (off - 0x00400000)) v
  else if 0x01000000 ≤ off ∧ off < 0x02000000 then pageWrite s ((off - 0x01000000) / 0x1000) (off % 0x1000) v
  else wdrop s

/-! ### Host-managed device memory (R323 to R327) -/

/-- R310: the interleaves that the decoder takes. -/
def interleaveOk (ways gran : Nat) : Bool :=
  [1, 2, 4, 8].contains ways && [256, 512, 1024, 2048, 4096, 8192, 16384].contains gran

/-- R323: the decoder locks when committed; one whose interleave the port does not implement does not commit (log 72). -/
def hdmCommit (s : State) (on : Bool) (base : Nat) (span : HdmSpan) : State :=
  if !s.cxl.up then s
  else if on then
    if s.cxl.hdmCommitted || !interleaveOk span.ways span.gran then s
    else s.modCxl fun x => { x with hdmCommitted := true, hdmBase := base, hdmSize := min span.size (span.ways * s.hdmBytes), hdmWays := span.ways, hdmGran := span.gran }
  else s.modCxl fun x => { x with hdmCommitted := false }

/-- R323: the device physical address of a host physical address, by the interleave of CXL 3.1: of every `ways` granules this device holds
one. -/
def hdmDpa (x : Cxl) (addr : Nat) : Nat :=
  let o := addr - x.hdmBase
  o / (x.hdmGran * x.hdmWays) * x.hdmGran + o % x.hdmGran

/-- The local address of the 64 B that a CXL.mem request names, or none where it completes with an error (R311, R323, R329). -/
def hdmLine (s : State) (addr : Nat) : Option Nat :=
  if s.cxl.up && s.cxl.memActive && s.cxl.flit256 && s.cxl.hdmCommitted && (!s.cxl.ideReq || ideUp s)
      && decide (s.cxl.hdmBase ≤ addr) && decide (addr < s.cxl.hdmBase + s.cxl.hdmSize) then
    some (hdmStart s + hdmDpa s.cxl addr / 64 * 64)
  else none

/-- R324: the host may hold a line; a full filter first snoops its oldest entry. -/
def snoopAdd (s : State) (line : Nat) : State :=
  if s.cxl.snoop.contains line then s
  else
    let s1 := match s.cxl.snoop with
      | old :: rest => if 524288 ≤ s.cxl.snoop.length then
          s.modCxl fun x => { x with bisnp := x.bisnp + 1, snoop := rest, snooping := x.snooping.filter (· ≠ old) } else s
      | [] => s
    s1.modCxl fun x => { x with snoop := x.snoop ++ [line] }

/-- HOST_MEM_READ: 64 B, with data poison where the line is poisoned (R326). -/
def hostMemRead (s : State) (addr : Nat) : State :=
  match hdmLine s addr with
  | none => { (s.modCxl fun x => { x with memRsp := 2 }) with readOut := [] }
  | some a =>
    let bad := isPoisoned s a 64
    { (noteRead ((snoopAdd (noteBad s a 64) (a / 64)).modCxl fun x => { x with memRsp := b2n bad }) a 64) with readOut := readMem s a 64 }

/-- HOST_MEM_WRITE: a whole line, or the bytes at an offset of one; data poison marks the 64 B (R326). -/
def hostMemWrite (s : State) (addr : Nat) (bytes : List Byte) (bad : Bool) : State :=
  match hdmLine s addr with
  | none => s.modCxl fun x => { x with memRsp := 2 }
  | some a =>
    let l := bytes.take (64 - addr % 64)
    (writeMem s (a + addr % 64) l bad).modCxl fun x => { x with memRsp := 0 }

/-- BIRSP: the line leaves the filter, and held accesses whose lines have all been answered proceed in order. -/
def birsp (s : State) (line : Nat) : State :=
  if !s.cxl.snooping.contains line then s
  else
    let s1 := s.modCxl fun x => { x with snoop := x.snoop.filter (· ≠ line), snooping := x.snooping.filter (· ≠ line) }
    s1.salt.snoopHeld.foldl (fun s e => passedAccess s e.1 e.2.1 e.2.2) (s1.modSalt fun x => { x with snoopHeld := [] })

/-! ### The link (R311, R322, R332, R445, R420) -/

/-- R332: the link goes down; vector 0 signals the loss. -/
def linkDown (s : State) : State :=
  if !s.cxl.up then s
  else raiseVec (s.modCxl fun x => { x with up := false, downAt := some s.now, width := 0, rate := 0, flit256 := false }) 0

/-- Table 13-2: the rows at which the port comes up: rate codes of Table 13-4. -/
def linkRow (width rate : Nat) (flit256 : Bool) : Bool :=
  linkWidthOk width && decide (1 ≤ rate) && decide (rate ≤ 4) && (rate != 4 || flit256) && (decide (2 < rate) || !flit256)

/-- A pending peg sum becomes one addition (R258, R332). -/
def applySum (s : State) (e : Nat × Nat) : State := putHost (ownLine s e.1) e.1 (leBytes 8 ((readHostLE s e.1 8 + e.2) % 2 ^ 64))

/-- R420: the presets with which the link trains: the configuration record's, or the ROM's table where it is absent or not there yet. -/
def linkPresets (s : State) : List Nat :=
  if s.start.bootsrc && !s.start.warm then Config.romPresets
  else match configOf s.start.inputs with
    | some c => c.presets
    | none => Config.romPresets

/-- R332: the link returns: held records are written in order, then each pending sum. -/
def linkUp (s : State) (width rate : Nat) (flit256 : Bool) : State :=
  if s.cxl.up || !linkRow width rate flit256 then s
  else
    let s1 := s.modCxl fun x => { x with
      txPresets := linkPresets s, up := true, downAt := none, dcache := [], width := if width = 4 then 3 else if width = 8 then 4 else 5, rate := rate, flit256 := flit256
      memActive := flit256 && s.start.phase == 0xF, held := [], pendSums := [], linkloss := false }
    s.cxl.pendSums.foldl applySum (s.cxl.held.foldl toHost s1)

/-- CX_PERST resets the CXL port alone; at its deassertion the link trains. -/
def cxPerst (s : State) (assert : Bool) (width rate : Nat) (flit256 : Bool) : State :=
  if assert then
    let s1 := (linkDown s).modCxl fun x => { x with
      winsel := 0, hdmCommitted := false, hdmBase := 0, hdmSize := 0, comp := [], dcache := [], snoop := [], snooping := [], ideActive := 0, masked := [], pba := [], msixTab := [] }
    let s2 := { s1 with ident := { s1.ident with links := (s1.ident.links.filter fun e => e.1 < 8) } }
    let s3 := s2.salt.snoopHeld.foldl (fun s e => passedAccess s e.1 e.2.1 e.2.2) (s2.modSalt fun x => { x with snoopHeld := [] })
    if s3.cxl.ideReq then setReady s3 false else s3
  else linkUp s width rate flit256

/-- R332, R413: the host-loss time in ns. -/
def hostLossNs (s : State) : Nat := (config s.start.inputs).hostLoss * 1000000000

/-- R445: the host is lost: the session ends, and its contexts wait to be adopted. -/
def hostLoss (s : State) : State :=
  match s.cxl.downAt with
  | none => s
  | some t =>
    let s1 := reach s (t + hostLossNs s)
    { ((otherCtxs s1).foldl (fun s c => s.modCtx c fun x => { x with orphan := true }) s1).modFaults (fun f => { f with hostlost := true }) with
      sess := { s1.sess with opened := false } }

/-- R322: a vector held back during the holdoff is raised at its end. -/
def holdoffEnd (s : State) (c : Nat) : State :=
  let x := s.ctx c
  match x.lastIrq with
  | some t => if x.irqHeld then raiseCtx (reach s (t + x.holdoff * 1000)) c else s
  | none => s

end Sys2Proof.Machine
end

