-- ==== Sys2Proof/Machine/CmdRing.lean ====
section
/-! DEFINITION. Command rings (R334 to R339, R358 to R360): which command Dister reads next, its acceptance, and the order in
which the accepted commands of a ring start. -/

namespace Sys2Proof.Machine

/-! ### Acceptance (R337, R338, R433, R445) -/

/-- Whether Dister reads the ring of a context: READY with the link up, a placed ring of a context that exists and is adopted, no
pause of the journal, and room for the records held over link loss. -/
def readsRing (s : State) (c : Nat) : Bool :=
  let x := s.ctx c
  s.cxl.ready && s.cxl.up && (if c = 0 then s.sess.anchored else x.live && s.sess.opened && !x.orphan) && !jfull s && !heldFull s

/-- R336, R338: the head command with `n` parameter slots lies below the tail, and a completion record is free. -/
def ringRoom (x : Ctx) (n : Nat) : Bool :=
  decide (1 + n ≤ (x.cmdTail + 2 ^ 32 - x.cmdRead) % 2 ^ 32) && decide ((x.accepted + 2 ^ 32 - x.cmplHead % 2 ^ 32) % 2 ^ 32 < 2 ^ x.cmplLog2)

/-- The head of the ring is a header whose OPCODE Table 14-7 does not list. -/
def headUnknown (x : Ctx) : Option CmdHdr := (x.badOps.find? fun e => e.1 == x.cmdRead).map (·.2)

/-- R337: the head command is accepted with the next ASEQ; a failed check is kept and settles it when its turn to start comes. -/
def acceptCmd (s : State) (c : Nat) (k0 : Cmd) : State :=
  let x := s.ctx c
  let st := headerStatus s c k0
  let why := if st ≠ stOK then some st else if periodBad x k0 then some stBADPARAM else none
  let k := { k0 with aseq := x.aseq, why := why, period := if bitsAt k0.hdr.flags 2 1 = 1 then some x.periodNo else none }
  (jAppend s { type := 0x01, ctx := c, seq := x.aseq, cmdid := k.hdr.cmdid, op := k.op }).modCtx c fun x =>
    { x with aseq := (x.aseq + 1) % 2 ^ 32, accepted := (x.accepted + 1) % 2 ^ 32, cmdRead := (x.cmdRead + 1 + k.hdr.nparam) % 2 ^ 32
             badOps := x.badOps.filter fun e => e.1 != x.cmdRead, cmds := x.cmds ++ [k] }

/-- A command of a known opcode at the head of a ring is read; without its turn nothing happens. -/
def readCmd (s : State) (c : Nat) (k : Cmd) : State :=
  let x := s.ctx c
  if readsRing s c && ringRoom x k.hdr.nparam && (headUnknown x).isNone then acceptCmd s c k else s

/-- R337, check 2: unknown opcodes at the head of a ring are read and refused. -/
def readUnknown (c : Nat) : Nat → State → State
  | 0, s => s
  | fuel + 1, s =>
    let x := s.ctx c
    match headUnknown x with
    | none => s
    | some h =>
      if readsRing s c && ringRoom x h.nparam then
        readUnknown c fuel (acceptCmd s c { op := leNat (readHost s (x.cmdBase + x.cmdRead % 2 ^ x.cmdLog2 * 64) 1), hdr := h })
      else s

/-! ### Starting (R354, R358, R478) -/

/-- R478: SESSION_OPEN waits for no test, and a destructive one refuses it, before a non-zero reserved field would (DESIGN CHOICE, log 93). -/
def startSession (s : State) (c : Nat) (k : Cmd) : State :=
  if s.svc.running.any (fun t => destructive t.block t.test) then refuse s c k.aseq stBUSY else startSessionOpen s c k

/-- A command starts (Table 14-7). -/
def startByOp (s : State) (c : Nat) (k : Cmd) : State :=
  match k.op with
  | 0x01 => startSession s c k
  | 0x02 => startSessionClose s c k
  | 0x10 => startCtxCreate s c k
  | 0x11 => startCtxDestroy s c k
  | 0x12 => startCtxConfig s c k
  | 0x20 => startStageLoad s c k
  | 0x21 => startStageDrain s c k
  | 0x30 => startTrayConfig s c k
  | 0x31 => startTrayFlush s c k
  | 0x40 => startSweepRun s c k
  | 0x41 => startSeqJoin s c k
  | 0x42 => startSeqLeave s c k
  | 0x50 => startRakeProgram s c k
  | 0x51 => startRakeGroup s c k
  | 0x60 =>
    match k.fld 0 1 with
    | 0 => startPegAlloc s c k
    | 1 => startPegFree s c k
    | 2 => startPegReset s c k
    | _ => refuse s c k.aseq stBADPARAM
  | 0x61 => startPegSignal s c k
  | 0x62 => startPegWait s c k
  | 0x63 => startPegDump s c k
  | 0x70 => startWindowOpen s c k
  | 0x71 => startWindowClose s c k
  | 0x72 => startRouteSet s c k
  | 0x80 => startHarvest s c k
  | 0x81 => startRestore s c k
  | 0x90 => startPowerSet s c k
  | 0xA0 => startSelftest s c k
  | 0xB0 => startDebugRead s c k
  | 0xC0 => startAttest s c k
  | _ => refuse s c k.aseq stBADOP

/-- A command's turn has come: it settles with the status of its failed check, or starts. One that was read before the session closed finds
none open (R337, check 5). -/
def startCmd (s : State) (c : Nat) (k : Cmd) : State :=
  match (if k.why.isNone && !s.sess.opened && k.op != 1 then some stWRONG else k.why) with
  | some st => refuse s c k.aseq st
  | none =>
    let s1 := jAppend s { type := 0x02, ctx := c, seq := k.aseq, cmdid := k.hdr.cmdid, op := k.op }
    startByOp (modCmd s1 c k.aseq fun k => { k with started := true, at0 := s.now }) c { k with started := true, at0 := s.now }

/-- R358: class C; an unknown opcode has no class and settles at once. -/
def concurrent (op : Nat) : Bool := isConcurrent op || !knownOps.contains op

/-- R354: a SWEEP_RUN with STOP = 0 waits while one runs on the context. -/
def sweepHeld (x : Ctx) (k : Cmd) : Bool := k.op == 0x40 && k.fld 1 1 == 0 && k.why.isNone && x.sweep.isSome

/-- R358: the first command in ring order that may start now. The flags say that an earlier command has not settled, that an earlier
serial one has not, and that an earlier one with FENCE has not started. Nothing starts behind a SESSION_CLOSE that has not settled (R346). -/
def nextStart (x : Ctx) (any serial fence : Bool) : List Cmd → Option Cmd
  | [] => none
  | k :: t =>
    let ser := serial || !concurrent k.op
    if k.started then (if k.op = 0x02 then none else nextStart x true ser fence t)
    else
      let fenced := bitsAt k.hdr.flags 1 1 == 1
      if fence then none
      else if !(fenced && any) && (concurrent k.op || !serial) && !sweepHeld x k then some k
      else nextStart x true ser fenced t

/-- Commands of a ring start as far as they may. -/
def ringStarts (c : Nat) : Nat → State → State
  | 0, s => s
  | fuel + 1, s =>
    match nextStart (s.ctx c) false false false (s.ctx c).cmds with
    | none => s
    | some k => ringStarts c fuel (startCmd s c k)

/-- The progress of a ring: unknown opcodes are refused, and commands start. -/
def ringPump (s : State) (c : Nat) : State :=
  let s1 := if (s.ctx c).badOps.isEmpty then s else readUnknown c (2 ^ (s.ctx c).cmdLog2) s
  ringStarts c ((s1.ctx c).cmds.length + 1) s1

/-- A row of Table 14-7: the command is read if its turn has come, and the ring goes on. -/
def hostCmd (s : State) (c op : Nat) (h : CmdHdr) (par : List Byte) (img : Option Image := none) (reads : StoreReads := {}) : State :=
  ringPump (readCmd s c { op := op, hdr := h, par := par, img := img, reads := reads }) c

end Sys2Proof.Machine
end

