-- ==== Sys2Proof/Machine/Pump.lean ====
section
/-! DEFINITION. What the block does of itself between commands (log 1): streams, messages and words of the cores, rakes, the
Trellis, command rings, answers to tray producers and readers. -/

namespace Sys2Proof.Machine

/-! ### Cores and movers -/

/-- A running core moves on: its streams feed, its movers send and its words are dispatched and executed. The movers of a core whose
program has ended send what is left. -/
def pumpOne (s : State) (n : Nat) : State :=
  if (s.core n).mode = .idle then [0, 1].foldl (fun s m => sendMover n m 128 s) s
  else if (s.core n).mode ≠ .running then s
  else
    let s1 := [0, 1].foldl (fun s m => sendMover n m 128 (feedStream n m 1024 s)) s
    pumpCore n (pumpFuel (s1.core n).run) s1

/-- Whether a core has anything that can move: it runs, or its movers have descriptors in progress. -/
def Core.active (c : Core) : Bool :=
  c.mode == .running || (c.mode == .idle && (c.run.mov0.rings ++ c.run.mov1.rings).any fun r => !r.live.isEmpty)

/-- The cores of a plot feed each other, so the active ones move on in turn. -/
def pumpCores (s : State) : State := ((s.cores.filter fun e => e.2.active).map (·.1)).foldl pumpOne s

/-! ### Trays: answers and readers (R168, R176, R177) -/

/-- The answer to one producer. -/
def ackOne (s : State) (a : Replier × Nat × Bool × Nat) : State :=
  let (r, st, dup, seq) := a
  match r with
  | .none => s
  | .port _ m => sendRsp s { rspMsg s m st with arg := seq % 2 ^ 32 + b2n dup * 2 ^ 32 }
  | .mover n m k i => descResp s n m k i { msg := { mtype := 5, dst := s.salt.node, addr := match (s.ring n m k).desc i with
      | some d => gAddr d.dst % 32768
      | none => 0 } } st
  | .host c k i => htrResult s c k i st dup seq

/-- Answers on their way reach their producers. -/
def flushAcks (s : State) : State := s.acks.foldl ackOne { s with acks := [] }

/-- What a core program's CLAIM or READ returns: the entry and the first payload word (R175). -/
def headOut (s : State) (t : Tray) (p : Packet) : List Byte := entryBytes t p ++ readMem s (t.wordAddr p.pos) 64

/-- A core program's CLAIM or READ of a tray whose first packet is READY. -/
def progTake (s : State) (n core : Nat) : State :=
  let (s1, p) := if (s.tray n).kind = 1 then claimHead s n (s.core core).ctx (some core) else readHead s n
  match p with
  | some p => { s1 with readOut := headOut s1 (s1.tray n) p }
  | none => { s1 with readOut := idleEntry s1 (s1.tray n) ++ idleWord s1 (s1.tray n) }

/-- R177: a released reader receives the idle packet. -/
def idleOne (s : State) (e : Nat × TrayWaiter) : State :=
  match e.2 with
  | .trellis => s
  | .prog _ => { s with readOut := idleEntry s (s.tray e.1) ++ idleWord s (s.tray e.1) }
  | .host c r i => match (s.htr c r).live.find? fun d => d.idx == i with
    | some d => htrIdle s c r d
    | none => s

def flushIdles (s : State) : State := s.idles.foldl idleOne { s with idles := [] }

/-- R177: the reader that has waited longest takes the packet that has become READY. -/
def serveReader (s : State) (n : Nat) : State :=
  let t := s.tray n
  match t.waiters, t.head with
  | w :: rest, some p =>
    let s1 := s.setTray n { t with waiters := rest }
    match w with
    | .trellis => trellisClaim s1 n
    | .prog core => progTake s1 n core
    | .host c r i => match (s1.htr c r).live.find? fun d => d.idx == i with
      | some d => htrTake s1 c r d p s1.cxl.up
      | none => s1
  | _, _ => s

/-- Every tray with waiting readers; at most four wait on one tray. -/
def serveReaders (s : State) : State :=
  ((s.trays.filter fun e => !e.2.waiters.isEmpty).map (·.1)).foldl (fun s n => (List.range 4).foldl (fun s _ => serveReader s n) s) s

/-- Host tray rings: PUTs that wait are tried again, and descriptors with their outcome are written back. -/
def htrPump (s : State) : State :=
  (liveCtxs s).foldl (fun s c => [0, 1].foldl (fun s r => htrFlush c r 17 (retryPuts s c r)) s) s

/-- Every tray's entries lie where R174 keeps them. -/
def spillTrays (s : State) : State := (s.trays.map (·.1)).foldl spillTray s

/-- Answers and readers of the trays. -/
def trayPump (s : State) : State := serveSignals <| htrPump (spillTrays (serveReaders (flushIdles (flushAcks (trayErrors s)))))

/-! ### The rest -/

/-- R433, R448: acceptance pauses and resumes with the journal's room; FLT_JFULL counts the pauses. -/
def jEdge (s : State) : State :=
  if jfull s then (if s.faults.jpaused then s else s.modFaults fun f => { f with jfull := f.jfull + 1, jpaused := true })
  else if s.faults.jpaused then s.modFaults fun f => { f with jpaused := false } else s

/-- Commands held for a rake phase take effect once none is active (R233). -/
def rakeRelease (s : State) : State := if s.rphase.active || s.rakeHeld.isEmpty then s else releaseRakeHeld s

/-- R291: a WINDOW_CLOSE settles once no access that arrived before its swap is left. -/
def closeWaits (s : State) : State :=
  (liveCtxs s).foldl (fun s c => ((s.ctx c).cmds.filter fun k => k.op == 0x71 && k.started).foldl (fun s k =>
    if s.salt.snoopHeld.any fun e => decide (e.2.2 < k.mark) then s else settle s c k.aseq dDONE stOK 0) s) s

/-- Dister's part: command rings of every context, harvests, drains and tests. -/
def disterPump (s : State) : State :=
  let s1 := (liveCtxs s).foldl missedHarvest s
  let s2 := closeWaits ((liveCtxs s1).foldl ringPump s1)
  let s3 := if (s2.ctx 0).live then s2 else ringPump s2 0
  testReady (closeSession (rakeRelease (finishDrain s3)))

/-- The ports pay the credit that they owe. -/
def creditPump (s : State) : State := (List.range 8).foldl payCredit s

/-- One round of the block's own progress. -/
def round (s : State) : State := disterPump (schedule (openGap (creditPump (rakesArm (trayPump (pumpCores s))))))

def rounds : Nat → State → State
  | 0, s => s
  | n + 1, s => rounds n (round s)

/-- DESIGN CHOICE, log 1: what the block does of itself before it takes the next command, in four rounds. -/
def advance (s : State) : State := linkMeas (jEdge (chargeAll (rounds 4 (chargeAll s))))

/-- DESIGN CHOICE, log 2: a command meets the block after its own progress; with its power or clocks off nothing but POWER_ON and
PWROK_FALL has an effect (R418, R493, R499). -/
def run (s : State) (f : State → State) : Host.Outcome State Fault Refusal := .next (if powered s then f (advance s) else s)

/-- The step on an empty queue: the block moves on by itself and the timestamp counter by one nanosecond (R23). -/
def idle (s : State) : State := if powered s then { (advance s) with now := (advance s).now + 1 } else s

end Sys2Proof.Machine
end

