-- ==== Sys2Proof/Machine/ExecCmds.lean ====
section
/-! DEFINITION. The meanings of the host's commands (Table 14-7): each is read in its turn on its ring (R337), and what it does when it
starts is the operation that Table 14-7's OPCODE selects. -/

namespace Sys2Proof.Machine

/-- The parameters of a row that fixes one parameter byte. -/
def withByte (par : List Byte) (off v : Nat) : List Byte := modAt par off fun _ => BitVec.ofNat 8 v

/-- SESSION_OPEN (R344). -/
def execSessionOpen (c : CtxId) (h : CmdHdr) (par : List Byte) (s : State) : Host.Outcome State Fault Refusal :=
  run s fun s => hostCmd s c.val 0x01 h par
/-- SESSION_CLOSE (R346). -/
def execSessionClose (c : CtxId) (h : CmdHdr) (par : List Byte) (s : State) : Host.Outcome State Fault Refusal :=
  run s fun s => hostCmd s c.val 0x02 h par
/-- CTX_CREATE (R351). -/
def execCtxCreate (c : CtxId) (h : CmdHdr) (par : List Byte) (s : State) : Host.Outcome State Fault Refusal :=
  run s fun s => hostCmd s c.val 0x10 h par
/-- CTX_DESTROY (R350). -/
def execCtxDestroy (c : CtxId) (h : CmdHdr) (par : List Byte) (s : State) : Host.Outcome State Fault Refusal :=
  run s fun s => hostCmd s c.val 0x11 h par
/-- CTX_CONFIG (R352). -/
def execCtxConfig (c : CtxId) (h : CmdHdr) (par : List Byte) (s : State) : Host.Outcome State Fault Refusal :=
  run s fun s => hostCmd s c.val 0x12 h par
/-- STAGE_LOAD (R353). -/
def execStageLoad (c : CtxId) (h : CmdHdr) (par : List Byte) (img : Image) (s : State) : Host.Outcome State Fault Refusal :=
  run s fun s => hostCmd s c.val 0x20 h par (img := some img)
/-- STAGE_DRAIN (R353). -/
def execStageDrain (c : CtxId) (h : CmdHdr) (par : List Byte) (s : State) : Host.Outcome State Fault Refusal :=
  run s fun s => hostCmd s c.val 0x21 h par
/-- TRAY_CONFIG (R354). -/
def execTrayConfig (c : CtxId) (h : CmdHdr) (par : List Byte) (s : State) : Host.Outcome State Fault Refusal :=
  run s fun s => hostCmd s c.val 0x30 h par
/-- TRAY_RELEASE (R354): TRAY_CONFIG with KIND 0. -/
def execTrayRelease (c : CtxId) (h : CmdHdr) (par : List Byte) (s : State) : Host.Outcome State Fault Refusal :=
  run s fun s => hostCmd s c.val 0x30 h (withByte par 2 0)
/-- TRAY_FLUSH (R181). -/
def execTrayFlush (c : CtxId) (h : CmdHdr) (par : List Byte) (s : State) : Host.Outcome State Fault Refusal :=
  run s fun s => hostCmd s c.val 0x31 h par
/-- SWEEP_RUN (R354). -/
def execSweepRun (c : CtxId) (h : CmdHdr) (par : List Byte) (s : State) : Host.Outcome State Fault Refusal :=
  run s fun s => hostCmd s c.val 0x40 h par
/-- SWEEP_RUN_STOP (R354): SWEEP_RUN with STOP = 1. -/
def execSweepRunStop (c : CtxId) (h : CmdHdr) (par : List Byte) (s : State) : Host.Outcome State Fault Refusal :=
  run s fun s => hostCmd s c.val 0x40 h (withByte par 1 1)
/-- SEQ_JOIN (R200). -/
def execSeqJoin (c : CtxId) (h : CmdHdr) (par : List Byte) (s : State) : Host.Outcome State Fault Refusal :=
  run s fun s => hostCmd s c.val 0x41 h par
/-- SEQ_LEAVE (R200). -/
def execSeqLeave (c : CtxId) (h : CmdHdr) (par : List Byte) (s : State) : Host.Outcome State Fault Refusal :=
  run s fun s => hostCmd s c.val 0x42 h par
/-- RAKE_PROGRAM (R230). -/
def execRakeProgram (c : CtxId) (h : CmdHdr) (par : List Byte) (s : State) : Host.Outcome State Fault Refusal :=
  run s fun s => hostCmd s c.val 0x50 h par
/-- RAKE_GROUP (R232). -/
def execRakeGroup (c : CtxId) (h : CmdHdr) (par : List Byte) (s : State) : Host.Outcome State Fault Refusal :=
  run s fun s => hostCmd s c.val 0x51 h par
/-- PEG_ALLOC (R262). -/
def execPegAlloc (c : CtxId) (h : CmdHdr) (par : List Byte) (s : State) : Host.Outcome State Fault Refusal :=
  run s fun s => hostCmd s c.val 0x60 h par
/-- PEG_FREE (R262): PEG_ALLOC with ACTION 1. -/
def execPegFree (c : CtxId) (h : CmdHdr) (par : List Byte) (s : State) : Host.Outcome State Fault Refusal :=
  run s fun s => hostCmd s c.val 0x60 h (withByte par 0 1)
/-- PEG_RESET (R262): PEG_ALLOC with ACTION 2. -/
def execPegReset (c : CtxId) (h : CmdHdr) (par : List Byte) (s : State) : Host.Outcome State Fault Refusal :=
  run s fun s => hostCmd s c.val 0x60 h (withByte par 0 2)
/-- PEG_SIGNAL (R263). -/
def execPegSignal (c : CtxId) (h : CmdHdr) (par : List Byte) (s : State) : Host.Outcome State Fault Refusal :=
  run s fun s => hostCmd s c.val 0x61 h par
/-- PEG_WAIT (R264). -/
def execPegWait (c : CtxId) (h : CmdHdr) (par : List Byte) (s : State) : Host.Outcome State Fault Refusal :=
  run s fun s => hostCmd s c.val 0x62 h par
/-- PEG_DUMP (R265). -/
def execPegDump (c : CtxId) (h : CmdHdr) (par : List Byte) (s : State) : Host.Outcome State Fault Refusal :=
  run s fun s => hostCmd s c.val 0x63 h par
/-- WINDOW_OPEN (R291). -/
def execWindowOpen (c : CtxId) (h : CmdHdr) (par : List Byte) (s : State) : Host.Outcome State Fault Refusal :=
  run s fun s => hostCmd s c.val 0x70 h par
/-- WINDOW_CLOSE (R291). -/
def execWindowClose (c : CtxId) (h : CmdHdr) (par : List Byte) (s : State) : Host.Outcome State Fault Refusal :=
  run s fun s => hostCmd s c.val 0x71 h par
/-- ROUTE_SET (R286). -/
def execRouteSet (c : CtxId) (h : CmdHdr) (par : List Byte) (s : State) : Host.Outcome State Fault Refusal :=
  run s fun s => hostCmd s c.val 0x72 h par
/-- HARVEST (R395). -/
def execHarvest (c : CtxId) (h : CmdHdr) (par : List Byte) (s : State) : Host.Outcome State Fault Refusal :=
  run s fun s => hostCmd s c.val 0x80 h par
/-- RESTORE (R400). -/
def execRestore (c : CtxId) (h : CmdHdr) (par : List Byte) (reads : StoreReads) (s : State) : Host.Outcome State Fault Refusal :=
  run s fun s => hostCmd s c.val 0x81 h par (reads := reads)
/-- POWER_SET (R379). -/
def execPowerSet (c : CtxId) (h : CmdHdr) (par : List Byte) (s : State) : Host.Outcome State Fault Refusal :=
  run s fun s => hostCmd s c.val 0x90 h par
/-- SELFTEST (R475). -/
def execSelftest (c : CtxId) (h : CmdHdr) (par : List Byte) (s : State) : Host.Outcome State Fault Refusal :=
  run s fun s => hostCmd s c.val 0xA0 h par
/-- DEBUG_READ (R357). -/
def execDebugRead (c : CtxId) (h : CmdHdr) (par : List Byte) (s : State) : Host.Outcome State Fault Refusal :=
  run s fun s => hostCmd s c.val 0xB0 h par
/-- ATTEST (R463). -/
def execAttest (c : CtxId) (h : CmdHdr) (par : List Byte) (s : State) : Host.Outcome State Fault Refusal :=
  run s fun s => hostCmd s c.val 0xC0 h par

/-- PEG_WAIT_TIMEOUT (R264): a wait whose TIMEOUT has passed settles EXPIRED and consumes nothing. -/
def pegWaitTimeout (s : State) (c aseq : Nat) : State :=
  match (s.ctx c).cmds.find? fun k => k.aseq == aseq && k.op == 0x62 && k.started with
  | none => s
  | some k =>
    if k.fld 8 4 = 0 then s
    else settle (dropWait (reach s (k.at0 + k.fld 8 4 * 1000)) (.host c aseq)) c aseq dEXPIRED stEXPIRED 0

/-- PEG_WAIT_TIMEOUT (R264). -/
def execPegWaitTimeout (c : CtxId) (aseq : Nat) (s : State) : Host.Outcome State Fault Refusal :=
  run s fun s => ringPump (pegWaitTimeout s c.val aseq) c.val

/-- HARVEST_POLL (R395): the chip reads the shared store and goes on. -/
def execHarvestPoll (c : CtxId) (seen : Cells) (s : State) : Host.Outcome State Fault Refusal :=
  run s fun s => ringPump (harvestPoll s c.val seen) c.val

/-- HARVEST_TIMEOUT (R399). -/
def execHarvestTimeout (c : CtxId) (s : State) : Host.Outcome State Fault Refusal := run s fun s => ringPump (harvestTimeout s c.val) c.val

end Sys2Proof.Machine
end

