-- ==== Sys2Proof/Machine/ExecCores.lean ====
section
/-! DEFINITION. The meanings of what happens in the cores, movers and peg units: gates, completions, descriptors, peg operations,
pre-emption, faults, weeding (chapters 6, 7, 11, 12 and 18). -/

namespace Sys2Proof.Machine

/-- A running core goes on as far as it can. -/
def goOn (s : State) (n : Nat) : State := pumpCore n (pumpFuel (s.core n).run) s

/-! ### Words in flight (R116 to R120) -/

/-- GATE_RELEASE (R119): the gates whose source has completed enough leave their queues. -/
def execGateRelease (c : CoreId) (s : State) : Host.Outcome State Fault Refusal := run s fun s => goOn (dropGates s c.val) c.val

/-- PROGRAM_COMPLETE (R118, R209): END is dispatched and every unit has completed; the unit ends with its last core. -/
def execProgramComplete (c : CoreId) (s : State) : Host.Outcome State Fault Refusal :=
  run s fun s => if programDone s c.val then finishUnits (coreDone s c.val) else s

/-- The stall counters of an engine in the order in which a beat is charged, and its idle counter (R28, R74, R111). -/
def beatOrder (u : Nat) : List Nat × List Nat :=
  if 1 ≤ u ∧ u ≤ 3 then ([0x208, 0x210, 0x218, 0x220], [0x228]) else if 4 ≤ u ∧ u ≤ 6 then ([0x288, 0x290, 0x298], [0x2A0])
  else if u = 7 then ([0x2C8, 0x2D0], [0x2D8]) else ([], [])

/-- The counters that count a beat whatever the engine does: the issue unit's waits, GATE_WAIT and PEG_WAIT_BEATS (R117, R120, R126,
R267). -/
def waitCounters : List Nat := [0x20, 0x28, 0x30, 0x398]

/-- The counters that a beat of unit `u`'s engine without a result is charged to, where the causes `causes` (by counter) hold at once:
the first cause of the engine's order, or its idle counter; a beat behind a GATE has no cause of the engine (R120). -/
def chargedTo (u : Nat) (causes : List Nat) : List Nat :=
  (match (beatOrder u).1.find? causes.contains with
   | some off => [off]
   | none => (beatOrder u).2) ++ waitCounters.filter causes.contains

/-- Count the beats in which a unit's engine gave no result: the causes that held, and for how many beats. -/
def chargeWaits (s : State) (n u : Nat) (waits : List (List Nat × Nat)) : State :=
  waits.foldl (fun s w => (chargedTo u w.1).foldl (fun s off => coreCount s n off w.2) s) s

/-- A word of a unit completes, after the waits given; a core that stops for a pre-emption completes the words in progress (R131). -/
def wordComplete (s : State) (n u k : Nat) (waits : List (List Nat × Nat)) : State :=
  if (s.core n).mode ≠ .running ∧ (s.core n).mode ≠ .stopping then s
  else goOn (completeWord (chargeWaits s n u waits) n u k) n

/-- ENGINE_WORD_COMPLETE (R116): DONE of the unit advances over the words completed without a gap. -/
def execEngineWordComplete (c : CoreId) (u : Fin 11) (k : Nat) (waits : List (List Nat × Nat)) (s : State) :
    Host.Outcome State Fault Refusal :=
  run s fun s => wordComplete s c.val u.val k waits

/-! ### Descriptors (R295 to R303) -/

/-- A mover starts the next released descriptor of a ring where its KIND is `kind`, and moves what it can. -/
def descRow (s : State) (n m r kind : Nat) : State := flushAcks (pumpOne (startDesc s n m r kind) n)

/-- COPY (R296). -/
def execCopy (c : CoreId) (m : Fin 2) (r : Fin 4) (s : State) : Host.Outcome State Fault Refusal := run s fun s => descRow s c.val m.val r.val 0
/-- ADD_COPY (R296). -/
def execAddCopy (c : CoreId) (m : Fin 2) (r : Fin 4) (s : State) : Host.Outcome State Fault Refusal := run s fun s => descRow s c.val m.val r.val 1
/-- STREAM (R303). -/
def execStream (c : CoreId) (m : Fin 2) (r : Fin 4) (s : State) : Host.Outcome State Fault Refusal := run s fun s => descRow s c.val m.val r.val 2
/-- ATOMIC of a mover (R296). -/
def execMoverAtomic (c : CoreId) (m : Fin 2) (r : Fin 4) (s : State) : Host.Outcome State Fault Refusal :=
  run s fun s => descRow s c.val m.val r.val 3
/-- TRAY_PUT of a mover (R296). -/
def execMoverTrayPut (c : CoreId) (m : Fin 2) (r : Fin 4) (s : State) : Host.Outcome State Fault Refusal :=
  run s fun s => descRow s c.val m.val r.val 4
/-- UPDATE of a mover (R296). -/
def execMoverUpdate (c : CoreId) (m : Fin 2) (r : Fin 4) (s : State) : Host.Outcome State Fault Refusal :=
  run s fun s => descRow s c.val m.val r.val 5
/-- DESCRIPTOR_COMPLETE (R297, R298, R300). -/
def execDescriptorComplete (c : CoreId) (m : Fin 2) (r : Fin 4) (s : State) : Host.Outcome State Fault Refusal :=
  run s fun s => pumpOne (descComplete s c.val m.val r.val) c.val
/-- MESSAGE_RETRY (R299): the back-off of failed messages has passed. -/
def execMessageRetry (c : CoreId) (m : Fin 2) (r : Fin 4) (s : State) : Host.Outcome State Fault Refusal :=
  run s fun s => pumpOne (retryRing s c.val m.val r.val false) c.val
/-- NO_CREDIT_RETRY (R299): a CREDIT, or 100 µs, ends the wait of a refused TRAY_PUT. -/
def execNoCreditRetry (c : CoreId) (m : Fin 2) (r : Fin 4) (s : State) : Host.Outcome State Fault Refusal :=
  run s fun s => flushAcks (pumpOne (retryRing s c.val m.val r.val true) c.val)

/-! ### Pegs (R245 to R251, R254) -/

/-- The word that a core's peg unit executes. -/
def pegWordOf (s : State) (n : Nat) : QWord := ((s.core n).run.q.find? fun e => e.unit == 10 && e.gate.isNone && !e.done).getD {}

/-- A peg operation at its home unit. -/
def applyPegOp (s : State) (r : PegReq) : State :=
  let g : Signaller := ⟨s.salt.node, 0, r.core⟩
  let p := s.peg r.phys
  let unit := (s.core r.core).run.peg
  match r.op with
  | .signal n => applySignal (markDone s r.core 10) r.phys n g
  | .preset v => applyPreset (markDone s r.core 10) r.phys v g
  | .wait k consume => applyWait s r.phys { who := .core r.core, k := k, consume := consume, phases := p.phases }
  | .slotWait i =>
    let at' := if i = 4 then unit.hold else (((unit.slots.getD i none).map PhaseSlot.phases).getD 0)
    applyWait s r.phys { who := .core r.core, phases := at' }
  | .arrive true _ =>
    let s1 := s.modRun r.core fun u => { u with peg := { u.peg with hold := p.phases } }
    applySignal (s1.setPeg r.phys { p with waits := p.waits ++ [{ who := .core r.core, phases := p.phases }] }) r.phys 1 g
  | .arrive false i =>
    let s1 := applySignal s r.phys 1 g
    let slot : PhaseSlot := { vpid := r.vpid, sense := p.sense, phases := (s1.peg r.phys).phases }
    markDone (s1.modRun r.core fun u => { u with peg := { u.peg with slots := modAt u.peg.slots i fun _ => some slot } }) r.core 10

/-- PEG_APPLY: the peg unit of a core applies the oldest operation homed there; a peg freed meanwhile refuses it (R251). -/
def pegApply (s : State) (home : Nat) : State :=
  let s := match s.pegReqs.find? fun r => r.phys / 2048 == home with
    | some r => pegRead s r.phys
    | none => s
  match s.pegReqs.find? fun r => r.phys / 2048 == home with
  | none => s
  | some r =>
    let s1 := { s with pegReqs := delFirst (fun r => r.phys / 2048 == home) s.pegReqs }
    if !r.dead ∧ vpidOk s r.ctx r.vpid = some r.phys then goOn (applyPegOp s1 r) r.core
    else
      let e := pegWordOf s r.core
      programFault s1 r.core 0x0D 10 e.pc e.word (0x01 + r.vpid * 2 ^ 8)

/-- PEG_APPLY (R245 to R248). -/
def execPegApply (c : CoreId) (s : State) : Host.Outcome State Fault Refusal := run s fun s => pegApply s c.val

/-! ### Pre-emption (R131 to R136) and hardware faults (R439) -/

/-- PREEMPTION_POINT (R131, R132). -/
def execPreemptionPoint (c : CoreId) (nonpre : Bool) (s : State) : Host.Outcome State Fault Refusal := run s fun s => preemptionPoint s c.val nonpre
/-- SAVE_COMPLETE (R133). -/
def execSaveComplete (c : CoreId) (s : State) : Host.Outcome State Fault Refusal := run s fun s => saveComplete s c.val
/-- RESUME_CONTEXT (R131, R135). -/
def execResumeContext (u : Nat) (s : State) : Host.Outcome State Fault Refusal := run s fun s => resumeContext s u
/-- SAVED_STATE_RESTORED (R136). -/
def execSavedStateRestored (c : CoreId) (s : State) : Host.Outcome State Fault Refusal := run s fun s => goOn (stateRestored s c.val) c.val
/-- HANDSHAKE_TIMEOUT (R439): the core is fenced. -/
def execHandshakeTimeout (c : CoreId) (s : State) : Host.Outcome State Fault Refusal := run s fun s => coreFault s c.val
/-- PARITY_FAULT (R439): the core is fenced. -/
def execParityFault (c : CoreId) (s : State) : Host.Outcome State Fault Refusal := run s fun s => coreFault s c.val

/-- RATE_SAMPLE (R22): ARR_RATE holds the beats of the last 1 ms. -/
def execRateSample (c : CoreId) (rate : Nat) (s : State) : Host.Outcome State Fault Refusal := run s fun s => rateSample s c.val rate
/-- SENSOR_FAIL_TIMEOUT (R385). -/
def execSensorFailTimeout (c : CoreId) (s : State) : Host.Outcome State Fault Refusal := run s fun s => sensorFail s c.val

end Sys2Proof.Machine
end

