-- ==== Sys2Proof/Machine/ExecFabric.lean ====
section
/-! DEFINITION. The meanings of what happens on the Saltpan ports (chapter 12): requests, responses, frames, control records and
training. -/

namespace Sys2Proof.Machine

/-! ### Requests at their target (R276 to R283, R292) -/

/-- RD, WR and ATOMIC. -/
def accessRow (s : State) (p : Nat) (t : Nat) (m : Msg) : State :=
  let m := { m with mtype := t }
  onArrival s p m fun s => targetAccess s p m

/-- RD (R280, R292). -/
def execRd (p : PortId) (m : Msg) (s : State) : Host.Outcome State Fault Refusal := run s fun s => accessRow s p.val 1 m
/-- WR (R278, R292). -/
def execWr (p : PortId) (m : Msg) (s : State) : Host.Outcome State Fault Refusal := run s fun s => accessRow s p.val 2 m
/-- ATOMIC (R283). -/
def execAtomic (p : PortId) (m : Msg) (s : State) : Host.Outcome State Fault Refusal := run s fun s => accessRow s p.val 3 m

/-- SIGNAL (R256), behind the data of its source (R278). -/
def signalRow (s : State) (p : Nat) (m : Msg) : State :=
  let m := { m with mtype := 4 }
  onArrival s p m fun s =>
    if signalWaits s m then s.modSalt fun x => { x with sigHeld := x.sigHeld ++ [(p, m)] }
    else targetMsgSignal (vpidRead s m.ctx m.addr) p m

/-- SIGNAL (R256). -/
def execSignal (p : PortId) (m : Msg) (s : State) : Host.Outcome State Fault Refusal := run s fun s => signalRow s p.val m

/-- TRAY_PUT (R282): a refusal is answered at once, and an acceptance at the commit point. -/
def trayPutRow (s : State) (p : Nat) (m : Msg) : State :=
  let m := { m with mtype := 5 }
  onArrival s p m fun s => flushAcks (targetTrayPut s p m)

/-- TRAY_PUT (R282). -/
def execTrayPut (p : PortId) (m : Msg) (s : State) : Host.Outcome State Fault Refusal := run s fun s => trayPutRow s p.val m

/-- R276, Table 12-6: the reserved bits and the shape of an UPDATE. -/
def updateBad (m : Msg) : Bool :=
  m.rsvd || m.addr != 0 || m.arg != 0 || !m.data || m.barrier || m.aop != 0
    || m.words.length != (if bitsAt (leNat (m.words.take 8)) 48 1 == 1 then 64 * 129 else 64 * 65)

/-- UPDATE at the rake of its port (R214 to R216, R279). A rake without room withholds the credit that the message needs (R216). Poisoned
words count as uncorrectable and the block is not queued (DESIGN CHOICE, log 40). -/
def targetUpdate (s : State) (p : Nat) (m : Msg) : State :=
  if updateBad m then respond s m stBADPARAM
  else if !rakeRoom s p then s
  else if m.poison then respond (rakePoison s p) m stUNCORR
  else
    let (s1, st) := rakeTake s p m.words
    respond s1 m st

/-- UPDATE (R214); one for which the port withholds its credit cannot have been sent yet (R216). -/
def updateRow (s : State) (p : Nat) (m : Msg) : State :=
  let m := { m with mtype := 6 }
  if arrival s p m = .mine ∧ !updateBad m ∧ !rakeRoom s p then s else onArrival s p m fun s => targetUpdate s p m

/-- UPDATE (R214). -/
def execUpdate (p : PortId) (m : Msg) (s : State) : Host.Outcome State Fault Refusal := run s fun s => updateRow s p.val m

/-- CREDIT (R179, R299): the slot's credit, and the end of the waits for it. -/
def creditRow (s : State) (p : Nat) (m : Msg) : State :=
  let m := { m with mtype := 7 }
  onArrival s p m fun s =>
    if m.rsvd || m.addr ≥ 32768 || m.arg ≥ 2 ^ 45 then s else creditWake (targetCredit s m) m.src m.addr m.slot

/-- CREDIT (R179). -/
def execCredit (p : PortId) (m : Msg) (s : State) : Host.Outcome State Fault Refusal := run s fun s => creditRow s p.val m

/-- R457: an SPDM request carried in the data words of a MGMT message. The rows of exchanges whose outcome the message does not
show (algorithms, FINISH, certificates) stand for those (log 18). -/
def spdmMsg (s : State) (l : Nat) (b : List Byte) : State :=
  let par i := leNat ((b.drop i).take 1)
  match par 1 with
  | 0x84 => spdmVersion s l
  | 0xE1 => spdmCapabilities s l
  | 0x81 => spdmDigests s l
  | 0x82 => spdmCertificate s l (par 2 % 16)
  | 0x83 => spdmChallenge s l (par 2)
  | 0xE0 => spdmMeasurements s l (par 3)
  | 0xE4 => spdmKeyExchange s l ((b.drop 40).take 1568) false
  | 0xE8 => spdmHeartbeat s l
  | 0xE9 => spdmKeyUpdate s l
  | 0xEC => spdmEnd s l
  | _ => s

/-- MGMT (R276, Table 17-9, R457): by its CODE. -/
def mgmtRow (s : State) (p : Nat) (m : Msg) : State :=
  let m := { m with mtype := 8 }
  onArrival s p m fun s =>
    if m.rsvd then s
    else
      let part := bitsAt m.arg 8 8
      let at' off n := leNat ((m.words.drop off).take n)
      match m.arg % 256 with
      | 0x01 => bootReq s p (at' 0 16) (at' 16 1) (at' 20 1)
      | 0x02 => bootData s p part m.addr m.words
      | 0x03 => bootEnd s p part (at' 0 8) ((m.words.drop 8).take 32) (at' 40 2)
      | 0x04 => trainPut s p (if m.addr = 0 then at' 0 16 else ((s.start.trainPut.map (·.1)).getD 0)) m.words
      | 0x10 => spdmMsg s p ((m.words.drop 4).take (at' 0 4))
      | _ => s

/-- MGMT (R276). -/
def execMgmt (p : PortId) (m : Msg) (s : State) : Host.Outcome State Fault Refusal := run s fun s => mgmtRow s p.val m

/-! ### Responses at their requester (R278, R280, R281) -/

/-- The end of an outstanding request with a status, at what sent it. -/
def outDone (s : State) (o : OutReq) (st : Nat) : State :=
  match o.src with
  | .mover n m k i loc piece => descResp s n m k i { msg := o.msg, loc := loc, len := msgSpan o.msg, piece := piece, attempt := o.attempt } st
  | .psig n => if st = stOK then s else psigRefused s n st o.msg.dst o.msg.addr
  | .store c => match resend s o.msg o.src o.attempt st with
    | some s1 => s1
    | none => storeAck s c st
  | .kv c id j => kvAck s c id j o.msg o.attempt st
  | .other => s

/-- The outstanding request that a response answers, by TAG and type: that to the node which answers, or, for ST_NO_ROUTE from a part on
the way, one that left by the port at which the response arrives, or else any (R277, R278; DEDUCED, log 101). -/
def outOf (s : State) (p : Nat) (m : Msg) : Option OutReq :=
  let l := s.salt.outs.filter fun o => o.tag == m.tag && rspOf o.msg.mtype == m.mtype
  (l.find? fun o => o.msg.dst == m.src).orElse fun _ =>
    if m.status = stNOROUTE then (l.find? fun o => o.port == p).orElse fun _ => l.head? else none

/-- Take a request off the outstanding ones. -/
def dropOut (s : State) (o : OutReq) : State := s.modSalt fun x => { x with outs := delFirst (fun q => q == o) x.outs }

/-- A response: matched with its request, or counted late (R281). -/
def response (s : State) (p t : Nat) (m : Msg) (h : State → OutReq → State) : State :=
  let m := { m with mtype := t }
  onArrival s p m fun s =>
    match outOf s p m with
    | some o => h s o
    | none => s.modSalt fun x => { x with late := x.late + 1 }

/-- A response of one message with a status. -/
def statusRow (s : State) (p t : Nat) (m : Msg) : State := response s p t m fun s o => outDone (dropOut s o) o m.status

/-- The data of an RDDATA part at what asked for it, while its descriptor lives. -/
def partIn (s : State) (o : OutReq) (m : Msg) : State :=
  match o.src with
  | .mover n v k i loc _ => if ((s.ring n v k).desc i).isSome then readPart s n v k i loc o.msg m else s
  | _ => s

/-- RDDATA (R280): a refusal, or a part of the words; the request ends with its last word. -/
def rddataRow (s : State) (p : Nat) (m : Msg) : State :=
  response s p 0x21 m fun s o =>
    if m.status ≠ stOK ∧ m.status ≠ stUNCORR then outDone (dropOut s o) o m.status
    else
      let s1 := partIn s o m
      if o.got + (m.len + 1) ≥ o.msg.len + 1 then outDone (dropOut s1 o) o stOK
      else s1.modSalt fun x => { x with outs := modFirst (fun q => q == o) (fun q => { q with got := q.got + (m.len + 1) }) x.outs }

/-- RDDATA (R280). -/
def execRddata (p : PortId) (m : Msg) (s : State) : Host.Outcome State Fault Refusal := run s fun s => rddataRow s p.val m
/-- WRACK (R278). -/
def execWrack (p : PortId) (m : Msg) (s : State) : Host.Outcome State Fault Refusal := run s fun s => statusRow s p.val 0x22 m

/-- ATOMRESP (R283, R301): the old value goes to SRC of the mover's descriptor, poisoned with ST_UNCORRECTABLE. -/
def atomrespRow (s : State) (p : Nat) (m : Msg) : State :=
  response s p 0x23 m fun s o =>
    let s1 := match o.src with
      | .mover n v k i loc _ =>
        if ((s.ring n v k).desc i).isSome && (m.status == stOK || m.status == stUNCORR) then
          writeMem s (gAddr loc) (leBytes 8 m.arg) (m.status == stUNCORR)
        else s
      | _ => s
    outDone (dropOut s1 o) o m.status

/-- ATOMRESP (R283). -/
def execAtomresp (p : PortId) (m : Msg) (s : State) : Host.Outcome State Fault Refusal := run s fun s => atomrespRow s p.val m
/-- SIGACK (R256, R279). -/
def execSigack (p : PortId) (m : Msg) (s : State) : Host.Outcome State Fault Refusal := run s fun s => statusRow s p.val 0x24 m
/-- TRAY_ACK (R168, R282). -/
def execTrayAck (p : PortId) (m : Msg) (s : State) : Host.Outcome State Fault Refusal := run s fun s => statusRow s p.val 0x25 m
/-- UPDACK (R279). -/
def execUpdack (p : PortId) (m : Msg) (s : State) : Host.Outcome State Fault Refusal := run s fun s => statusRow s p.val 0x26 m

/-- RSP_TIMEOUT (R281): the request fails with ST_LINK. -/
def rspTimeout (s : State) (p tag : Nat) : State :=
  match s.salt.outs.find? fun o => o.port == p && o.tag == tag with
  | none => s
  | some o => outDone (dropOut (reach s (o.at0 + s.salt.rspTimeout * 1000)) o) o stLINK

/-- RSP_TIMEOUT (R281). -/
def execRspTimeout (p : PortId) (tag : Nat) (s : State) : Host.Outcome State Fault Refusal := run s fun s => rspTimeout s p.val tag

/-! ### Frames and control records (R273 to R275) -/

/-- FRAME_RECEIVE (R274). -/
def execFrameReceive (p : PortId) (kind fseq fack : Nat) (crcOk : Bool) (fixed bad : Nat) (s : State) : Host.Outcome State Fault Refusal :=
  run s fun s => frameIn s p.val kind fseq fack crcOk fixed bad

/-- REPLAY (R274). -/
def replayRow (s : State) (p fseq : Nat) : State := if (s.port p).state < 2 then s else replayFrom s p fseq

/-- REPLAY (R274). -/
def execReplay (p : PortId) (fseq : Nat) (s : State) : Host.Outcome State Fault Refusal := run s fun s => replayRow s p.val fseq

/-- LINK_CREDIT (R273): returned slots, and the messages they cover. -/
def linkCredit (s : State) (p vc hdrs flits : Nat) : State :=
  if (s.port p).state < 2 ∨ vc ≥ 4 then s
  else s.modPort p fun x =>
    ({ x with crHdr := tput 0 x.crHdr vc (tget 0 x.crHdr vc + hdrs), crData := tput 0 x.crData vc (tget 0 x.crData vc + flits) } : Port).drain

/-- LINK_CREDIT (R273). -/
def execLinkCredit (p : PortId) (vc hdrs flits : Nat) (s : State) : Host.Outcome State Fault Refusal :=
  run s fun s => linkCredit s p.val vc hdrs flits

/-- TRAIN (R270, R272): what the peer tells of itself. -/
def trainRow (s : State) (p : Nat) (r : TrainRec) : State :=
  if (s.port p).state < 2 then s
  else s.modPort p fun x => { x with peer := r.node, transit := r.transit, peerEnc := r.encrypt }

/-- TRAIN (R270). -/
def execTrain (p : PortId) (r : TrainRec) (s : State) : Host.Outcome State Fault Refusal := run s fun s => trainRow s p.val r

/-- R275: a retrain with presets, and one full training when it fails. A port whose training fails is down, with the holds of R286. -/
def retrainPort (s : State) (p : Nat) (r : TrainResult) : State :=
  let s1 := trainPort (s.modPort p fun x => { x with retrainCtr := x.retrainCtr + 1 }) p r
  if (s1.port p).state < 2 then portDown s1 p else s1

/-- RETRAIN (R273): the peer asks for a retrain. -/
def retrainRow (s : State) (p : Nat) (r : TrainResult) : State := if (s.port p).state < 2 then s else retrainPort s p r

/-- RETRAIN (R273). -/
def execRetrain (p : PortId) (r : TrainResult) (s : State) : Host.Outcome State Fault Refusal := run s fun s => retrainRow s p.val r

/-- PORT_RETRAIN (R275): one frame replayed four times, or 64 replays within 1 ms; the port asks its peer and retrains. -/
def portRetrain (s : State) (p : Nat) (r : TrainResult) : State :=
  let x := s.port p
  if x.state < 2 ∨ !mustRetrain s x then s else retrainPort (sendControl s p .retrain) p r

/-- PORT_RETRAIN (R275). -/
def execPortRetrain (p : PortId) (r : TrainResult) (s : State) : Host.Outcome State Fault Refusal := run s fun s => portRetrain s p.val r

/-- LINK_TRAINING (R270): Dister enables a port that is not up. -/
def linkTraining (s : State) (p : Nat) (r : TrainResult) : State := if (s.port p).state ≥ 2 then s else trainPort s p r

/-- LINK_TRAINING (R270). -/
def execLinkTraining (p : PortId) (r : TrainResult) (s : State) : Host.Outcome State Fault Refusal := run s fun s => linkTraining s p.val r

/-- TAG (R464). -/
def execTag (p : PortId) (epoch : Bool) (fseq : Nat) (ok : Bool) (s : State) : Host.Outcome State Fault Refusal :=
  run s fun s => tagRecord s p.val epoch fseq ok
/-- TAG_TIMEOUT (R465). -/
def execTagTimeout (p : PortId) (s : State) : Host.Outcome State Fault Refusal := run s fun s => tagTimeout s p.val

/-- PORT_DOWN (R286). -/
def portDownRow (s : State) (p : Nat) : State := if (s.port p).state = 0 then s else portDown s p

/-- PORT_DOWN (R286). -/
def execPortDown (p : PortId) (s : State) : Host.Outcome State Fault Refusal := run s fun s => portDownRow s p.val

/-- R286: send a held message, which fails where it cannot go now. -/
def sendHeld (s : State) (e : Msg × ReqSrc × Nat) : State :=
  match sendReq s e.1 e.2.1 e.2.2 with
  | (s1, .sent) => s1
  | (s1, .failed st) => outDone s1 { msg := e.1, attempt := e.2.2, src := e.2.1 } st
  | (s1, .full) => s1.modSalt fun x => { x with held := x.held ++ [e], heldNodes := ninsert x.heldNodes e.1.dst }

/-- ROUTE_HOLD_RELEASE (R286): every request to the node has ended, and its messages go in order. -/
def routeHoldRelease (s : State) (node : Nat) : State :=
  if !s.salt.heldNodes.contains node || s.salt.outs.any (fun o => o.msg.dst == node) then s
  else
    let go := s.salt.held.filter (fun e => e.1.dst == node)
    go.foldl sendHeld (s.modSalt fun x =>
      { x with heldNodes := x.heldNodes.filter (· != node), held := x.held.filter (fun e => e.1.dst != node) })

/-- ROUTE_HOLD_RELEASE (R286). -/
def execRouteHoldRelease (node : Nat) (s : State) : Host.Outcome State Fault Refusal := run s fun s => routeHoldRelease s node

end Sys2Proof.Machine
end

