-- ==== Sys2Proof/Machine/ExecHeat.lean ====
section
/-! DEFINITION. The meanings of the Trellis's measurements and voltage control (chapter 15). -/

namespace Sys2Proof.Machine

/-- R499: the Trellis's tick, and the hardware trip where a core sensor reads 115 °C or more. -/
def tick (s : State) (i : TickIn) : State := if i.temps.any fun e => decide (1150 ≤ e.2) then hardwareTrip (heatTick s i) else heatTick s i

/-- TICK (R368 to R380): heat state, ceiling and voltage target. -/
def execTick (i : TickIn) (s : State) : Host.Outcome State Fault Refusal := run s fun s => tick s i
/-- CURRENT_READ (R373, R374). -/
def execCurrentRead (raw : Nat) (ack fault : Bool) (s : State) : Host.Outcome State Fault Refusal :=
  run s fun s => currentRead s raw ack fault
/-- AVS_POLL (R377). -/
def execAvsPoll (mv temp : Nat) (ack fault : Bool) (s : State) : Host.Outcome State Fault Refusal := run s fun s => avsPoll s mv temp ack fault
/-- AVS_ALERT (R377). -/
def execAvsAlert (ack fault : Bool) (s : State) : Host.Outcome State Fault Refusal := run s fun s => avsAlert s ack fault
/-- HEAT_RECORD (R384). -/
def execHeatRecord (s : State) : Host.Outcome State Fault Refusal := run s heatRecords

end Sys2Proof.Machine
end

