-- ==== Sys2Proof/Machine/ExecHost.lean ====
section
/-! DEFINITION. The meanings of the host port's commands: doorbells, registers, host-managed device memory, the link and host tray
rings (chapter 13). -/

namespace Sys2Proof.Machine

/-- CMD_TAIL (R316, R336): unknown opcodes that it announces at the head are refused at once. -/
def execCmdTail (c : CtxId) (tail : Nat) (data : Cells) (s : State) : Host.Outcome State Fault Refusal :=
  run s fun s => ringPump (cmdTail s c.val tail data) c.val
/-- CMPL_HEAD (R338, R433). -/
def execCmplHead (c : CtxId) (head : Nat) (s : State) : Host.Outcome State Fault Refusal := run s fun s => cmplHead s c.val head
/-- EVR_HEAD (R258). -/
def execEvrHead (c : CtxId) (head : Nat) (s : State) : Host.Outcome State Fault Refusal := run s fun s => evrHead s c.val head
/-- HTR_TAIL (R316, R318). -/
def execHtrTail (c : CtxId) (r : Fin 2) (tail : Nat) (data : Cells) (s : State) : Host.Outcome State Fault Refusal :=
  run s fun s => htrTail s c.val r.val tail data
/-- HTR_RESUME (R321). -/
def execHtrResume (c : CtxId) (r : Fin 2) (s : State) : Host.Outcome State Fault Refusal := run s fun s => htrResume s c.val r.val
/-- SALT_NODE_WRITE (R272). -/
def execSaltNodeWrite (v : BitVec 64) (s : State) : Host.Outcome State Fault Refusal := run s fun s => saltNodeWrite s v.toNat
/-- SALT_CFG_WRITE (R306). -/
def execSaltCfgWrite (v : BitVec 64) (s : State) : Host.Outcome State Fault Refusal := run s fun s => saltCfgWrite s v.toNat
/-- FMT_SATCNT_READ (R51). -/
def execFmtSatcntRead (c : CoreId) (s : State) : Host.Outcome State Fault Refusal := run s fun s => satcntRead s c.val
/-- REGISTER_WRITE (R313). -/
def execRegisterWrite (off : Nat) (v : BitVec 64) (s : State) : Host.Outcome State Fault Refusal := run s fun s => registerWrite s off v.toNat
/-- HDM_DECODER_COMMIT (R323). -/
def execHdmDecoderCommit (on : Bool) (base : Nat) (span : HdmSpan) (s : State) : Host.Outcome State Fault Refusal :=
  run s fun s => hdmCommit s on base span
/-- HOST_MEM_READ (R324). -/
def execHostMemRead (addr : Nat) (s : State) : Host.Outcome State Fault Refusal := run s fun s => hostMemRead s addr
/-- HOST_MEM_WRITE (R326). -/
def execHostMemWrite (addr : Nat) (bytes : List Byte) (poison : Bool) (s : State) : Host.Outcome State Fault Refusal :=
  run s fun s => hostMemWrite s addr bytes poison
/-- BIRSP (R324). -/
def execBirsp (line : Nat) (s : State) : Host.Outcome State Fault Refusal := run s fun s => birsp s line
/-- CXL_LINK_DOWN (R332). -/
def execCxlLinkDown (s : State) : Host.Outcome State Fault Refusal := run s linkDown
/-- CXL_LINK_UP (R332). -/
def execCxlLinkUp (width rate : Nat) (flit256 : Bool) (s : State) : Host.Outcome State Fault Refusal := run s fun s => linkUp s width rate flit256
/-- HOST_LOSS (R445). -/
def execHostLoss (s : State) : Host.Outcome State Fault Refusal := run s hostLoss
/-- HOLDOFF_END (R322). -/
def execHoldoffEnd (c : CtxId) (s : State) : Host.Outcome State Fault Refusal := run s fun s => holdoffEnd s c.val

/-- A host tray descriptor starts, and a finished front of its ring is written back. -/
def htrRow (s : State) (c r op : Nat) (linkOk : Bool) : State := htrFlush c r 17 (flushAcks (startHtr s c r op linkOk))

/-- HTR_PUT (R319, R320). -/
def execHtrPut (c : CtxId) (r : Fin 2) (linkOk : Bool) (s : State) : Host.Outcome State Fault Refusal := run s fun s => htrRow s c.val r.val 1 linkOk
/-- HTR_GET (R319). -/
def execHtrGet (c : CtxId) (r : Fin 2) (linkOk : Bool) (s : State) : Host.Outcome State Fault Refusal := run s fun s => htrRow s c.val r.val 2 linkOk
/-- HTR_DONE (R319). -/
def execHtrDone (c : CtxId) (r : Fin 2) (linkOk : Bool) (s : State) : Host.Outcome State Fault Refusal := run s fun s => htrRow s c.val r.val 3 linkOk
/-- HTR_UNCLAIM (R319). -/
def execHtrUnclaim (c : CtxId) (r : Fin 2) (linkOk : Bool) (s : State) : Host.Outcome State Fault Refusal :=
  run s fun s => htrRow s c.val r.val 4 linkOk

end Sys2Proof.Machine
end

