-- ==== Sys2Proof/Machine/ExecIdent.lean ====
section
/-! DEFINITION. The meanings of the identity commands: SPDM on the ports and over DOE, the control ring's anchor, link policy,
discovery, and IDE keys (chapters 13, 14 and 19). -/

namespace Sys2Proof.Machine

/-- RING_ANCHOR (R335). -/
def execRingAnchor (x : Anchor) (s : State) : Host.Outcome State Fault Refusal := run s fun s => ringAnchor s x
/-- LINK_POLICY (R461). -/
def execLinkPolicy (require allow : Nat) (rsvd secured : Bool) (s : State) : Host.Outcome State Fault Refusal :=
  run s fun s => linkPolicy s require allow rsvd secured
/-- GET_VERSION (R457). -/
def execGetVersion (l : Fin 9) (s : State) : Host.Outcome State Fault Refusal := run s fun s => spdmVersion s l.val
/-- GET_CAPABILITIES (R457). -/
def execGetCapabilities (l : Fin 9) (s : State) : Host.Outcome State Fault Refusal := run s fun s => spdmCapabilities s l.val
/-- NEGOTIATE_ALGORITHMS (R458). -/
def execNegotiateAlgorithms (l : Fin 9) (acceptable : Bool) (s : State) : Host.Outcome State Fault Refusal :=
  run s fun s => spdmAlgorithms s l.val acceptable
/-- GET_DIGESTS (R457). -/
def execGetDigests (l : Fin 9) (s : State) : Host.Outcome State Fault Refusal := run s fun s => spdmDigests s l.val
/-- GET_CERTIFICATE (R460). -/
def execGetCertificate (l : Fin 9) (slot : Nat) (s : State) : Host.Outcome State Fault Refusal := run s fun s => spdmCertificate s l.val slot
/-- CHALLENGE (R459). -/
def execChallenge (l : Fin 9) (slot : Nat) (s : State) : Host.Outcome State Fault Refusal := run s fun s => spdmChallenge s l.val slot
/-- GET_MEASUREMENTS (R462). -/
def execGetMeasurements (l : Fin 9) (index : Nat) (s : State) : Host.Outcome State Fault Refusal := run s fun s => spdmMeasurements s l.val index
/-- KEY_EXCHANGE (R459). -/
def execKeyExchange (l : Fin 9) (ek : List Byte) (authed : Bool) (s : State) : Host.Outcome State Fault Refusal :=
  run s fun s => spdmKeyExchange s l.val ek authed
/-- FINISH (R459). -/
def execFinish (l : Fin 9) (ok : Bool) (s : State) : Host.Outcome State Fault Refusal := run s fun s => spdmFinish s l.val ok
/-- KEY_UPDATE (R466). -/
def execKeyUpdate (l : Fin 9) (s : State) : Host.Outcome State Fault Refusal := run s fun s => spdmKeyUpdate s l.val
/-- KEY_UPDATE_DUE (R466). -/
def execKeyUpdateDue (p : PortId) (s : State) : Host.Outcome State Fault Refusal := run s fun s => keyUpdateDue s p.val
/-- HEARTBEAT (R457). -/
def execHeartbeat (l : Fin 9) (s : State) : Host.Outcome State Fault Refusal := run s fun s => spdmHeartbeat s l.val
/-- END_SESSION (R466). -/
def execEndSession (l : Fin 9) (s : State) : Host.Outcome State Fault Refusal := run s fun s => spdmEnd s l.val
/-- SET_CERTIFICATE (R460). -/
def execSetCertificate (l : Fin 9) (slot : Nat) (chain : List Byte) (endsInKey : Bool) (s : State) : Host.Outcome State Fault Refusal :=
  run s fun s => spdmSetCertificate s l.val slot chain endsInKey
/-- DOE_DISCOVERY (R328). -/
def execDoeDiscovery (mailbox : Fin 2) (index : Nat) (s : State) : Host.Outcome State Fault Refusal := run s fun s => doeDiscovery s mailbox.val index
/-- CDAT_READ (R328). -/
def execCdatRead (entry : Nat) (s : State) : Host.Outcome State Fault Refusal := run s fun s => cdatRead s entry
/-- IDE_KM (R329). -/
def execIdeKm (stream : Nat) (s : State) : Host.Outcome State Fault Refusal := run s fun s => ideKm s stream

end Sys2Proof.Machine
end

