-- ==== Sys2Proof/Machine/ExecRake.lean ====
section
/-! DEFINITION. The meanings of what the rakes do (chapter 10): a block's bed pass, the operations of a rake program, refreshes and the end
of a phase. -/

namespace Sys2Proof.Machine

/-- BED_PASS (R218 to R224, R235, R238). -/
def execBedPass (r : RakeId) (s : State) : Host.Outcome State Fault Refusal := run s fun s => bedPass s r.val

/-- R230, R231: one operation of a program on a rake's active lanes, with its beats. -/
def rakeOp (s : State) (r op : Nat) (d : Fin 16) (a b x : BitVec 5) : State :=
  s.modRake r fun k => rakeStep k op d.val a.toNat b.toNat x.toNat

/-- MOV (Table 10-4). -/
def execRkMov (r : RakeId) (d : Fin 16) (a b x : BitVec 5) (s : State) : Host.Outcome State Fault Refusal :=
  run s fun s => rakeOp s r.val 0x01 d a b x
/-- ADD (Table 10-4). -/
def execRkAdd (r : RakeId) (d : Fin 16) (a b x : BitVec 5) (s : State) : Host.Outcome State Fault Refusal :=
  run s fun s => rakeOp s r.val 0x02 d a b x
/-- SUB (Table 10-4). -/
def execRkSub (r : RakeId) (d : Fin 16) (a b x : BitVec 5) (s : State) : Host.Outcome State Fault Refusal :=
  run s fun s => rakeOp s r.val 0x03 d a b x
/-- MUL (Table 10-4). -/
def execRkMul (r : RakeId) (d : Fin 16) (a b x : BitVec 5) (s : State) : Host.Outcome State Fault Refusal :=
  run s fun s => rakeOp s r.val 0x04 d a b x
/-- FMA (Table 10-4). -/
def execRkFma (r : RakeId) (d : Fin 16) (a b x : BitVec 5) (s : State) : Host.Outcome State Fault Refusal :=
  run s fun s => rakeOp s r.val 0x05 d a b x
/-- FNMA (Table 10-4). -/
def execRkFnma (r : RakeId) (d : Fin 16) (a b x : BitVec 5) (s : State) : Host.Outcome State Fault Refusal :=
  run s fun s => rakeOp s r.val 0x06 d a b x
/-- MIN (Table 10-4). -/
def execRkMin (r : RakeId) (d : Fin 16) (a b x : BitVec 5) (s : State) : Host.Outcome State Fault Refusal :=
  run s fun s => rakeOp s r.val 0x07 d a b x
/-- MAX (Table 10-4). -/
def execRkMax (r : RakeId) (d : Fin 16) (a b x : BitVec 5) (s : State) : Host.Outcome State Fault Refusal :=
  run s fun s => rakeOp s r.val 0x08 d a b x
/-- ABS (Table 10-4). -/
def execRkAbs (r : RakeId) (d : Fin 16) (a b x : BitVec 5) (s : State) : Host.Outcome State Fault Refusal :=
  run s fun s => rakeOp s r.val 0x09 d a b x
/-- NEG (Table 10-4). -/
def execRkNeg (r : RakeId) (d : Fin 16) (a b x : BitVec 5) (s : State) : Host.Outcome State Fault Refusal :=
  run s fun s => rakeOp s r.val 0x0A d a b x
/-- DIV (Table 10-4). -/
def execRkDiv (r : RakeId) (d : Fin 16) (a b x : BitVec 5) (s : State) : Host.Outcome State Fault Refusal :=
  run s fun s => rakeOp s r.val 0x0B d a b x
/-- SQRT (Table 10-4). -/
def execRkSqrt (r : RakeId) (d : Fin 16) (a b x : BitVec 5) (s : State) : Host.Outcome State Fault Refusal :=
  run s fun s => rakeOp s r.val 0x0C d a b x
/-- RSQRT (Table 10-4). -/
def execRkRsqrt (r : RakeId) (d : Fin 16) (a b x : BitVec 5) (s : State) : Host.Outcome State Fault Refusal :=
  run s fun s => rakeOp s r.val 0x0D d a b x
/-- SIGN (Table 10-4). -/
def execRkSign (r : RakeId) (d : Fin 16) (a b x : BitVec 5) (s : State) : Host.Outcome State Fault Refusal :=
  run s fun s => rakeOp s r.val 0x0E d a b x
/-- SELGT (Table 10-4). -/
def execRkSelgt (r : RakeId) (d : Fin 16) (a b x : BitVec 5) (s : State) : Host.Outcome State Fault Refusal :=
  run s fun s => rakeOp s r.val 0x0F d a b x

/-! ### The end of a phase (R216, R225, R233, R443) -/

/-- R216: a queued block whose step's phase has ended is stale. -/
def staleIn (s : State) (c step r : Nat) : State :=
  let old (b : Blk) : Bool := b.ctx == c && b.step == step
  let n := ((s.rake r).queue.filter old).length
  if n = 0 then s
  else
    let s1 := rakeCount (s.modRake r fun k => { k with queue := k.queue.filter fun b => !old b }) r 0x18 n
    dropWait { s1 with rphase := { s1.rphase with stale := true } } (.rake r)

/-- The phase in force ends, stale blocks leave the queues, and the commands held for it take effect. -/
def closePhase (s : State) : State :=
  let c := s.rphase.ctx
  let step := s.rphase.step
  rakeRelease ((List.range 8).foldl (fun s r => staleIn s c step r) (phaseEnd s))

/-- R225: the COUNTs are set, and the phase closes once no refresh is left. -/
def endPhase (s : State) : State := let s1 := countPhase s; if refreshLeft s1 then s1 else closePhase s1

/-- RAKE_PHASE_END (R225). -/
def rakePhaseEnd (s : State) : State := if phaseDone s then endPhase s else s

/-- REFRESH (R225, R236, R237): the phase closes behind its last refresh. -/
def refreshRow (s : State) (r : Nat) : State :=
  let s1 := refreshNext s r
  if s1.rphase.active && s1.rphase.counted && !refreshLeft s1 then closePhase s1 else s1

/-- REFRESH (R236, R237). -/
def execRefresh (r : RakeId) (s : State) : Host.Outcome State Fault Refusal := run s fun s => refreshRow s r.val

/-- RAKE_PHASE_END (R225). -/
def execRakePhaseEnd (s : State) : Host.Outcome State Fault Refusal := run s rakePhaseEnd

/-- R443: the expected bed groups whose block no rake has taken up and no queue holds. -/
def missingBeds (s : State) : List Nat :=
  s.rphase.want.filter fun a => !s.rphase.resolved.contains a
    && !(List.range 8).any fun r => (s.rake r).queue.any fun b => b.ctx == s.rphase.ctx && b.step == s.rphase.step && b.bed == a

/-- R443: one missing block, in the RAKE_UE of one rake; the spec does not say which (a free choice, log 41). -/
def countMissing (s : State) : State := takeFree (rakeCount s ((Config.freeValue s.freeCtr).toNat % 8) 0x70 1) 1

/-- MISSING_BLOCK_TIMEOUT (R443): 10 s after the phase began. -/
def missingBlockTimeout (s : State) : State :=
  let m := missingBeds s
  if !s.rphase.active || s.rphase.counted || m.isEmpty then s
  else
    let s1 := m.foldl (fun s _ => countMissing s) (reach s (s.rphase.at0 + 10000000000))
    endPhase { s1 with rphase := { s1.rphase with ue := s1.rphase.ue + m.length } }

/-- MISSING_BLOCK_TIMEOUT (R443). -/
def execMissingBlockTimeout (s : State) : Host.Outcome State Fault Refusal := run s missingBlockTimeout

/-- RAKE_HARDWARE_FAULT (R443, R447; R478): HALTED, a fault record, and the failure of an intrusive test of the rake. -/
def rakeHardwareFault (s : State) (r : Nat) : State :=
  let hit (t : Test) : Bool := t.intrusive && t.block == 0x0A && t.index == r
  let s1 := (s.modRake r fun k => { k with halted := true }).modSvc fun v =>
    { v with running := v.running.map fun (t : Test) => if hit t then { t with doomed := true } else t }
  reportHw s1 2 r

/-- RAKE_HARDWARE_FAULT (R443). -/
def execRakeHardwareFault (r : RakeId) (s : State) : Host.Outcome State Fault Refusal := run s fun s => rakeHardwareFault s r.val

end Sys2Proof.Machine
end

