-- ==== Sys2Proof/Machine/ExecSched.lean ====
section
/-! DEFINITION. The meanings of the scheduling events (chapters 9, 15 and 18): the step fence, periods, plot configuration, slices, and
the waits of units on a neighbour. -/

namespace Sys2Proof.Machine

/-- STEP_FENCE (R195): every bed group has its heads, so the next step may start; a harvest of the step begins (R392). -/
def stepFence (s : State) (c : Nat) : State :=
  let x := s.ctx c
  let waits := (x.sweep.map fun w => !w.serving && w.phase == 3) == some true
  if !x.fenceClosed || waits || (s.rphase.active && s.rphase.ctx == c) then s
  else
    let s1 := s.modCtx c fun x => { x with fenceClosed := false }
    fenceHarvest (match x.sweep with
      | some w => { s1 with schedStep := w.step, schedPhase := 1 }
      | none => { s1 with schedPhase := 0 }) c

/-- STEP_FENCE (R195). -/
def execStepFence (c : CtxId) (s : State) : Host.Outcome State Fault Refusal := run s fun s => stepFence s c.val
/-- PERIOD_START (R208). -/
def execPeriodStart (c : CtxId) (s : State) : Host.Outcome State Fault Refusal := run s fun s => periodStart s c.val
/-- PERIOD_END (R210). -/
def execPeriodEnd (c : CtxId) (s : State) : Host.Outcome State Fault Refusal := run s fun s => flushAcks (periodEnd s c.val)
/-- PLOT_RECONFIG (R191). -/
def execPlotReconfig (s : State) : Host.Outcome State Fault Refusal := run s plotReconfig

/-- SLICE_END (R371): the Trellis decides again at the slice's end. -/
def sliceEnd (s : State) (id : Nat) : State :=
  match s.units.find? fun u => u.id == id && u.st == 2 with
  | some u => if isDeadline s u then s else trellisDecide (s.units.length + 1) (reach s (u.sliceAt + u.sliceLen))
  | none => s

/-- SLICE_END (R371). -/
def execSliceEnd (u : Nat) (s : State) : Host.Outcome State Fault Refusal := run s fun s => sliceEnd s u
/-- RING_RESTART (R437): every 100 ms. -/
def execRingRestart (s : State) : Host.Outcome State Fault Refusal := run s restartRings

/-- The first halt of the rings that a unit waits on. -/
def firstHalt (s : State) (u : WUnit) : Option Nat :=
  let l := u.cores.flatMap fun n => [0, 1].flatMap fun m => (s.mover n m).rings.filterMap fun r => if r.halted then r.haltAt else none
  match l with
  | [] => none
  | a :: t => some (t.foldl min a)

/-- NEIGHBOUR_WAIT_TIMEOUT (R437, R447): 10 s after the first halt the unit faults with ST_LINK, which a record reports. -/
def neighbourWaitTimeout (s : State) (id : Nat) : State :=
  match s.units.find? fun u => u.id == id && u.waitRing with
  | none => s
  | some u =>
    match firstHalt s u with
    | none => s
    | some t => setNwait (reportFault (unitFault (reach s (t + 10000000000)) u stLINK)
        { status := stLINK, source := 7, action := 3, index := (u.cores.head?).getD 0, ctx := u.ctx })

/-- NEIGHBOUR_WAIT_TIMEOUT (R437). -/
def execNeighbourWaitTimeout (u : Nat) (s : State) : Host.Outcome State Fault Refusal := run s fun s => neighbourWaitTimeout s u

end Sys2Proof.Machine
end

