-- ==== Sys2Proof/Machine/ExecService.lean ====
section
/-! DEFINITION. The meanings of the maintenance console commands and of the end of a self-test (chapter 20). -/

namespace Sys2Proof.Machine

/-- HELP (R472). -/
def execHelp (s : State) : Host.Outcome State Fault Refusal := run s consoleHelp
/-- ID (R472). -/
def execIdRecord (s : State) : Host.Outcome State Fault Refusal := run s consoleId
/-- STATUS (R472). -/
def execStatus (s : State) : Host.Outcome State Fault Refusal := run s consoleStatus
/-- AMON (R473). -/
def execAmon (sel idx mv : Nat) (s : State) : Host.Outcome State Fault Refusal := run s fun s => consoleAmon s sel idx mv
/-- AMON_UPDATE (R473). -/
def execAmonUpdate (mv : Nat) (s : State) : Host.Outcome State Fault Refusal := run s fun s => amonUpdate s mv
/-- TEST (R476). -/
def execTest (block test index : Nat) (intrusive : Bool) (s : State) : Host.Outcome State Fault Refusal :=
  run s fun s => consoleTest s block test index intrusive
/-- TEST ALL (R472). -/
def execTestAll (s : State) : Host.Outcome State Fault Refusal := run s consoleTestAll
/-- LOG (R472). -/
def execLog (n : Nat) (s : State) : Host.Outcome State Fault Refusal := run s fun s => consoleLog s n
/-- PEGDUMP (R265). -/
def execPegdump (ctx : Option CtxId) (s : State) : Host.Outcome State Fault Refusal := run s fun s => consolePegdump s (ctx.map (·.val))
/-- READ of the console (R472). -/
def execConsoleRead (addr len : Nat) (s : State) : Host.Outcome State Fault Refusal := run s fun s => consoleRead s addr len
/-- BAUD (R470). -/
def execBaud (rate : Nat) (s : State) : Host.Outcome State Fault Refusal := run s fun s => consoleBaud s rate
/-- UNLOCK (R472). -/
def execUnlock (s : State) : Host.Outcome State Fault Refusal := run s consoleUnlock
/-- LOCK (R472). -/
def execLock (s : State) : Host.Outcome State Fault Refusal := run s consoleLock
/-- RESET WARM (R446). -/
def execResetWarm (i : StartInputs) (s : State) : Host.Outcome State Fault Refusal := run s fun s => consoleReset s false i
/-- RESET COLD (R446). -/
def execResetCold (i : StartInputs) (s : State) : Host.Outcome State Fault Refusal := run s fun s => consoleReset s true i
/-- RECOVER (R479). -/
def execRecover (slot : Nat) (r : SignedRec) (i : StartInputs) (s : State) : Host.Outcome State Fault Refusal :=
  run s fun s => consoleRecover s slot r i
/-- RMA (R481). -/
def execRma (s : State) : Host.Outcome State Fault Refusal := run s consoleRma
/-- SELFTEST_COMPLETE (R475 to R478). -/
def execSelftestComplete (block index : Nat) (pass : Bool) (data : Nat) (s : State) : Host.Outcome State Fault Refusal :=
  run s fun s => selftestComplete s block index pass data

end Sys2Proof.Machine
end

