-- ==== Sys2Proof/Machine/ExecStart.lean ====
section
/-! DEFINITION. The meanings of the power, reset and boot commands (R407, R415, R418 to R422, R446, R493, R494, R499). -/

namespace Sys2Proof.Machine

/-- POWER_ON: a rising edge of PWROK starts cold (R418); it has no effect while PWROK is high. -/
def execPowerOn (i : StartInputs) (s : State) : Host.Outcome State Fault Refusal := .next (powerOn s i)

/-- PWROK_FALL: the part is off until the next rise (R493). -/
def execPwrokFall (s : State) : Host.Outcome State Fault Refusal := .next (powerOff s)

/-- BOARD_RESET: SYS_RST_N falls with PWROK high (R494). Without the LPDDR5X rails the start that follows is undefined (R493). -/
def execBoardReset (railsHeld : Bool) (i : StartInputs) (s : State) : Host.Outcome State Fault Refusal :=
  if powered s && !railsHeld then .fault .undefinedStart else run s fun s => warmReset s 1 i

/-- WATCHDOG: a control core misses its watchdog (Table 18-8). -/
def execWatchdog (i : StartInputs) (s : State) : Host.Outcome State Fault Refusal := run s fun s => warmReset s 4 i

/-- FATAL_FAULT_RESET (Table 18-7, last row; Table 18-8). -/
def execFatalFaultReset (i : StartInputs) (s : State) : Host.Outcome State Fault Refusal := run s fun s => warmReset s 5 i

/-- CX_PERST: PERST# is asserted or deasserted (R331, R420). -/
def execCxPerst (assert : Bool) (width rate : Nat) (flit256 : Bool) (s : State) : Host.Outcome State Fault Refusal :=
  run s fun s => cxPerst s assert width rate flit256

/-- HARDWARE_TRIP (R499). -/
def execHardwareTrip (s : State) : Host.Outcome State Fault Refusal := run s hardwareTrip

/-- BOOT_REQ (R421). -/
def execBootReq (p : PortId) (die : Nat) (pos parts : Nat) (s : State) : Host.Outcome State Fault Refusal :=
  run s fun s => bootReq s p.val die pos parts

/-- BOOT_DATA (R421). -/
def execBootData (p : PortId) (part off : Nat) (bytes : List Byte) (s : State) : Host.Outcome State Fault Refusal :=
  run s fun s => bootData s p.val part off bytes

/-- BOOT_END (R415, R422). -/
def execBootEnd (p : PortId) (part len : Nat) (digest : List Byte) (status : Nat) (s : State) : Host.Outcome State Fault Refusal :=
  run s fun s => bootEnd s p.val part len digest status

/-- TRAIN_PUT (R415). -/
def execTrainPut (p : PortId) (die : Nat) (bytes : List Byte) (s : State) : Host.Outcome State Fault Refusal :=
  run s fun s => trainPut s p.val die bytes

/-- BOOT_RETRY (R422). -/
def execBootRetry (s : State) : Host.Outcome State Fault Refusal := run s bootRetry

/-- MESH_BOOT_RESTART (R422). -/
def execMeshBootRestart (s : State) : Host.Outcome State Fault Refusal := run s meshRestart

end Sys2Proof.Machine
end

