-- ==== Sys2Proof/Machine/ExecTrays.lean ====
section
/-! DEFINITION. The meanings of the operations on trays (chapter 8): writing a packet, its commit point and its open timeout,
claims and reads, retirement, and credit updates. -/

namespace Sys2Proof.Machine

/-! ### Writing a packet (R167 to R171) -/

/-- OPEN's answer: its status in the layout of R168, and PADDR, which is zero where no packet was opened. -/
def openAnswer (st : Nat) (dup : Bool) (seq paddr : Nat) : List Byte := ackBytes st dup seq ++ leBytes 8 paddr

/-- OPEN (R167, step 2): the tray's answer goes to the producer, and after it the answer of a COMMIT that waited and that the OPEN
replaces (R170). -/
def openPkt (s : State) (n : Nat) (e : TrayEntry) (node : Nat) (own : Bool) : State :=
  let (s1, res) := trayOpen { s with readOut := [] } n e node own .none
  let out := match res with
    | .refused st => openAnswer st false 0 0
    | .dup seq => openAnswer stOK true seq 0
    | .discarded => openAnswer stOK false 0 0
    | .opened => openAnswer stOK false 0 ((((s1.tray n).packets.getLast?).map fun p => (s1.tray n).wordAddr p.pos).getD 0)
  { (flushAcks s1) with readOut := out ++ s1.readOut }

/-- OPEN (R167, R169, R170, R178, R180). -/
def execOpenPkt (t : TrayId) (e : TrayEntry) (node : Nat) (own : Bool) (s : State) : Host.Outcome State Fault Refusal :=
  run s fun s => openPkt s t.val e node own

/-- The open packet that a COMMIT names by SLOT and PSEQ, which entries of version 2 carry. -/
def Tray.openOf (t : Tray) (slot pseq : Nat) : Option Packet :=
  t.packets.find? fun p => p.st == .open && (t.fmtver != 2 || (p.pseq == pseq && p.slot == slot)) && (t.fmtver == 2 || !p.commitOk)

/-- COMMIT (R167, step 5; R168, R169, R171): the payload and its check. A packet that has passed its check keeps it, and a
COMMIT that names no open packet is answered at once. -/
def commitPkt (s : State) (n slot pseq : Nat) (words : List Byte) (poison fabric : Bool) : State :=
  let t := s.tray n
  match t.openOf slot pseq with
  | none =>
    let (st, dup, seq) := lateCommit t slot pseq
    { s.modTray n (fun t => { t with expired := delFirst (· == (if t.fmtver = 2 then (slot, pseq) else (0, 0))) t.expired }) with
      readOut := ackBytes st dup seq }
  | some p =>
    if p.commitOk then s
    else
      let w := fixLen words (64 * p.nwords)
      let st := commitStatus p w poison fabric
      let s1 := flushAcks (trayCommit s n p w poison fabric)
      if st ≠ stOK ∧ p.reply = .none then { s1 with readOut := ackBytes st false 0 } else s1

/-- COMMIT (R167, R169). -/
def execCommit (t : TrayId) (slot pseq : Nat) (words : List Byte) (poison fabric : Bool) (s : State) : Host.Outcome State Fault Refusal :=
  run s fun s => commitPkt s t.val slot pseq words poison fabric

/-- COMMIT_POINT (R167, R170): the packet becomes READY and its producer is answered. -/
def commitPoint (s : State) (n : Nat) : State :=
  match (s.tray n).nextCommit with
  | none => s
  | some p =>
    let s1 := flushAcks (commitNext s n)
    if p.reply = .none then { s1 with readOut := ackBytes stOK false (s.tray n).nextSeq } else s1

/-- COMMIT_POINT (R170). -/
def execCommitPoint (t : TrayId) (s : State) : Host.Outcome State Fault Refusal := run s fun s => commitPoint s t.val

/-- OPEN_TIMEOUT (R171): a packet that has received no COMMIT, or that waits for earlier packets of its slot (R170), goes;
one whose commit point is due commits. -/
def openTimeout (s : State) (n slot pseq : Nat) : State :=
  match (s.tray n).openOf slot pseq with
  | none => s
  | some p => if (s.tray n).eligible p then s else flushAcks (expireOpen s n p)

/-- OPEN_TIMEOUT (R171). -/
def execOpenTimeout (t : TrayId) (slot pseq : Nat) (s : State) : Host.Outcome State Fault Refusal := run s fun s => openTimeout s t.val slot pseq

/-! ### Reading (R175 to R177) -/

/-- A core program's CLAIM or READ: of a tray of its own context, with the stall of R177 where the tray asks for it. -/
def progRead (s : State) (n core : Nat) : State :=
  let t := s.tray n
  if (s.core core).mode ≠ .running ∨ (s.core core).ctx ≠ t.ctx then s
  else if t.head.isNone && t.readmode then
    if t.waiters.length < 4 then s.setTray n { t with waiters := t.waiters ++ [.prog core] } else { s with readOut := leBytes 2 stBUSY }
  else progTake s n core

/-- CLAIM (R175): of a work tray, by the Trellis for its sweep, or by a core program. -/
def claimRow (s : State) (n : Nat) (who : Option Nat) : State :=
  if (s.tray n).kind ≠ 1 then s
  else match who with
    | none => trellisClaim s n
    | some k => progRead s n k

/-- CLAIM (R175). -/
def execClaim (t : TrayId) (who : Option CoreId) (s : State) : Host.Outcome State Fault Refusal :=
  run s fun s => claimRow s t.val (who.map (·.val))

/-- READ (R175): of a log or telemetry tray. The Trellis reads none. -/
def readRow (s : State) (n : Nat) (who : Option Nat) : State :=
  if (s.tray n).kind < 2 then s
  else match who with
    | none => s
    | some k => progRead s n k

/-- READ (R175). -/
def execRead (t : TrayId) (who : Option CoreId) (s : State) : Host.Outcome State Fault Refusal :=
  run s fun s => readRow s t.val (who.map (·.val))

/-- READ_HOLD_EXPIRY (R175): 20 µs after the read. -/
def readHoldExpiry (s : State) (n seq : Nat) : State :=
  match (s.tray n).find .held seq with
  | none => s
  | some p => endHold (reach s (p.heldAt + 20000)) n seq

/-- READ_HOLD_EXPIRY (R175). -/
def execReadHoldExpiry (t : TrayId) (seq : Nat) (s : State) : Host.Outcome State Fault Refusal := run s fun s => readHoldExpiry s t.val seq

/-- PAYLOAD_COPIED (R175). -/
def execPayloadCopied (t : TrayId) (seq : Nat) (s : State) : Host.Outcome State Fault Refusal := run s fun s => endHold s t.val seq

/-- Whether a unit of work holds a packet. -/
def inUnit (s : State) (n seq : Nat) : Bool := s.units.any fun u => u.packets.contains (n, seq)

/-- UNCLAIM (R175): by the reader that claimed the packet. A unit's packets return with their unit (R439). -/
def unclaimRow (s : State) (n seq : Nat) : State := if inUnit s n seq then s else unclaimPkt s n seq

/-- UNCLAIM (R175). -/
def execUnclaim (t : TrayId) (seq : Nat) (s : State) : Host.Outcome State Fault Refusal := run s fun s => unclaimRow s t.val seq

/-- RETIRE (R175): by the reader that claimed the packet. A unit's packets retire with their unit (R189, R209). -/
def retireRow (s : State) (n seq : Nat) : State :=
  match (s.tray n).find .claimed seq with
  | none => s
  | some p => if inUnit s n seq then s else retirePkt s n p dDONE stOK

/-- RETIRE (R175). -/
def execRetire (t : TrayId) (seq : Nat) (s : State) : Host.Outcome State Fault Refusal := run s fun s => retireRow s t.val seq

/-! ### Credit (R179) -/

/-- Tell one producer of a slot its available credit: a host producer reads it in the tray's registers, and one of this chip is told at
once. -/
def tellCredit (s : State) (n k : Nat) (x : Slot) (node : Nat) : State :=
  if node = 0xFFFE then s
  else if node = s.salt.node then creditWake s node n k
  else sendRsp s { mtype := 7, dst := node, src := s.salt.node, addr := n, slot := k
                   arg := x.pktAvail % 2 ^ 17 + x.wordAvail % 2 ^ 28 * 2 ^ 17 }

/-- CREDIT_UPDATE (R179): a quarter of a limit, or 10 µs. The implicit slot of a tray of version 1 (R185) has as producers those whose
packets' credit returned (log 28). -/
def creditUpdate (s : State) (n k : Nat) : State :=
  let t := s.tray n
  let x := t.slot k
  if t.kind ≠ 1 ∨ x.retPkts = 0 then s
  else
    let s0 := if creditDue s x then s else reach s (x.retAt.getD s.now + 10000)
    let s1 := s0.setTray n (t.modSlot k fun x => { x with retPkts := 0, retWords := 0, retAt := none, retNodes := [] })
    (if t.fmtver = 2 then [x.node] else x.retNodes).foldl (fun s node => tellCredit s n k x node) s1

/-- CREDIT_UPDATE (R179). -/
def execCreditUpdate (t : TrayId) (slot : Nat) (s : State) : Host.Outcome State Fault Refusal := run s fun s => creditUpdate s t.val slot

end Sys2Proof.Machine
end

