-- ==== Sys2Proof/Machine/ExecWords.lean ====
section
/-! DEFINITION. The meanings of the words of core programs: the issue unit of a running core fetches the word, and dispatches and
executes what it can (R116 to R126). The effect of a word on its unit stands in Machine/ArrayUnit, FurrowUnit, VectorUnit, Issue,
Rings and Pegs. -/

namespace Sys2Proof.Machine

/-- The issue unit of a core fetches a word and goes on as far as it can. -/
def issueWord (s : State) (n : Nat) (w : W128) : State :=
  let s1 := fetchWord s n w
  pumpCore n (pumpFuel (s1.core n).run) s1

/-- NOP (R118), and the words with a reserved OP, which fault (R69, R99, R110, R118; log 11). -/
def execNop (c : CoreId) (w : W128) (s : State) : Host.Outcome State Fault Refusal := run s fun s => issueWord s c.val w
/-- END (R118). -/
def execEndW (c : CoreId) (f : BitVec 120) (s : State) : Host.Outcome State Fault Refusal := run s fun s => issueWord s c.val (mkWord 0x14 f)
/-- GATE (R119). -/
def execGate (c : CoreId) (f : BitVec 120) (s : State) : Host.Outcome State Fault Refusal := run s fun s => issueWord s c.val (mkWord 0x11 f)
/-- LOOP (R121). -/
def execLoop (c : CoreId) (f : BitVec 120) (s : State) : Host.Outcome State Fault Refusal := run s fun s => issueWord s c.val (mkWord 0x12 f)
/-- SEED (R123). -/
def execSeed (c : CoreId) (f : BitVec 120) (s : State) : Host.Outcome State Fault Refusal := run s fun s => issueWord s c.val (mkWord 0x13 f)
/-- ASTAT (R56). -/
def execAstat (c : CoreId) (f : BitVec 120) (s : State) : Host.Outcome State Fault Refusal := run s fun s => issueWord s c.val (mkWord 0x01 f)
/-- AMUL (R65). -/
def execAmul (c : CoreId) (f : BitVec 120) (s : State) : Host.Outcome State Fault Refusal := run s fun s => issueWord s c.val (mkWord 0x02 f)
/-- DIST_SQ (R79): AMUL in mode 1. -/
def execDistSq (c : CoreId) (f : BitVec 120) (s : State) : Host.Outcome State Fault Refusal :=
  run s fun s => issueWord s c.val (mkWord 0x02 (modeBits 1 f))
/-- DIST_ABS (R79): AMUL in mode 2. -/
def execDistAbs (c : CoreId) (f : BitVec 120) (s : State) : Host.Outcome State Fault Refusal :=
  run s fun s => issueWord s c.val (mkWord 0x02 (modeBits 2 f))
/-- DIST_MAX (R79): AMUL in mode 3. -/
def execDistMax (c : CoreId) (f : BitVec 120) (s : State) : Host.Outcome State Fault Refusal :=
  run s fun s => issueWord s c.val (mkWord 0x02 (modeBits 3 f))
/-- SEL_MAX (R86): AMUL in mode 4. -/
def execSelMax (c : CoreId) (f : BitVec 120) (s : State) : Host.Outcome State Fault Refusal :=
  run s fun s => issueWord s c.val (mkWord 0x02 (modeBits 4 f))
/-- SEL_MIN (R86): AMUL in mode 5. -/
def execSelMin (c : CoreId) (f : BitVec 120) (s : State) : Host.Outcome State Fault Refusal :=
  run s fun s => issueWord s c.val (mkWord 0x02 (modeBits 5 f))
/-- FOLD_MAX (R87): AMUL in mode 6. -/
def execFoldMax (c : CoreId) (f : BitVec 120) (s : State) : Host.Outcome State Fault Refusal :=
  run s fun s => issueWord s c.val (mkWord 0x02 (modeBits 6 f))
/-- FOLD_MIN (R87): AMUL in mode 7. -/
def execFoldMin (c : CoreId) (f : BitVec 120) (s : State) : Host.Outcome State Fault Refusal :=
  run s fun s => issueWord s c.val (mkWord 0x02 (modeBits 7 f))
/-- ADRAIN (R67). -/
def execAdrain (c : CoreId) (f : BitVec 120) (s : State) : Host.Outcome State Fault Refusal := run s fun s => issueWord s c.val (mkWord 0x03 f)
/-- ALOAD (R68). -/
def execAload (c : CoreId) (f : BitVec 120) (s : State) : Host.Outcome State Fault Refusal := run s fun s => issueWord s c.val (mkWord 0x04 f)
/-- FRES (R96). -/
def execFres (c : CoreId) (f : BitVec 120) (s : State) : Host.Outcome State Fault Refusal := run s fun s => issueWord s c.val (mkWord 0x21 f)
/-- FMUL (R97). -/
def execFmul (c : CoreId) (f : BitVec 120) (s : State) : Host.Outcome State Fault Refusal := run s fun s => issueWord s c.val (mkWord 0x22 f)
/-- FDRAIN (R98). -/
def execFdrain (c : CoreId) (f : BitVec 120) (s : State) : Host.Outcome State Fault Refusal := run s fun s => issueWord s c.val (mkWord 0x23 f)
/-- VADD (R104). -/
def execVadd (c : CoreId) (f : BitVec 120) (s : State) : Host.Outcome State Fault Refusal := run s fun s => issueWord s c.val (mkWord 0x40 f)
/-- VSUB (R104). -/
def execVsub (c : CoreId) (f : BitVec 120) (s : State) : Host.Outcome State Fault Refusal := run s fun s => issueWord s c.val (mkWord 0x41 f)
/-- VMUL (R104). -/
def execVmul (c : CoreId) (f : BitVec 120) (s : State) : Host.Outcome State Fault Refusal := run s fun s => issueWord s c.val (mkWord 0x42 f)
/-- VFMA (R104). -/
def execVfma (c : CoreId) (f : BitVec 120) (s : State) : Host.Outcome State Fault Refusal := run s fun s => issueWord s c.val (mkWord 0x43 f)
/-- VMIN (R104). -/
def execVmin (c : CoreId) (f : BitVec 120) (s : State) : Host.Outcome State Fault Refusal := run s fun s => issueWord s c.val (mkWord 0x44 f)
/-- VMAX (R104). -/
def execVmax (c : CoreId) (f : BitVec 120) (s : State) : Host.Outcome State Fault Refusal := run s fun s => issueWord s c.val (mkWord 0x45 f)
/-- VABS (R104). -/
def execVabs (c : CoreId) (f : BitVec 120) (s : State) : Host.Outcome State Fault Refusal := run s fun s => issueWord s c.val (mkWord 0x46 f)
/-- VNEG (R104). -/
def execVneg (c : CoreId) (f : BitVec 120) (s : State) : Host.Outcome State Fault Refusal := run s fun s => issueWord s c.val (mkWord 0x47 f)
/-- VCMPEQ (R104). -/
def execVcmpeq (c : CoreId) (f : BitVec 120) (s : State) : Host.Outcome State Fault Refusal := run s fun s => issueWord s c.val (mkWord 0x48 f)
/-- VCMPLT (R104). -/
def execVcmplt (c : CoreId) (f : BitVec 120) (s : State) : Host.Outcome State Fault Refusal := run s fun s => issueWord s c.val (mkWord 0x49 f)
/-- VCMPLE (R104). -/
def execVcmple (c : CoreId) (f : BitVec 120) (s : State) : Host.Outcome State Fault Refusal := run s fun s => issueWord s c.val (mkWord 0x4A f)
/-- VSEL (R104). -/
def execVsel (c : CoreId) (f : BitVec 120) (s : State) : Host.Outcome State Fault Refusal := run s fun s => issueWord s c.val (mkWord 0x4B f)
/-- VIADD (R104). -/
def execViadd (c : CoreId) (f : BitVec 120) (s : State) : Host.Outcome State Fault Refusal := run s fun s => issueWord s c.val (mkWord 0x50 f)
/-- VISUB (R104). -/
def execVisub (c : CoreId) (f : BitVec 120) (s : State) : Host.Outcome State Fault Refusal := run s fun s => issueWord s c.val (mkWord 0x51 f)
/-- VIMUL (R104). -/
def execVimul (c : CoreId) (f : BitVec 120) (s : State) : Host.Outcome State Fault Refusal := run s fun s => issueWord s c.val (mkWord 0x52 f)
/-- VAND (R104). -/
def execVand (c : CoreId) (f : BitVec 120) (s : State) : Host.Outcome State Fault Refusal := run s fun s => issueWord s c.val (mkWord 0x53 f)
/-- VOR (R104). -/
def execVor (c : CoreId) (f : BitVec 120) (s : State) : Host.Outcome State Fault Refusal := run s fun s => issueWord s c.val (mkWord 0x54 f)
/-- VXOR (R104). -/
def execVxor (c : CoreId) (f : BitVec 120) (s : State) : Host.Outcome State Fault Refusal := run s fun s => issueWord s c.val (mkWord 0x55 f)
/-- VSHL (R104). -/
def execVshl (c : CoreId) (f : BitVec 120) (s : State) : Host.Outcome State Fault Refusal := run s fun s => issueWord s c.val (mkWord 0x56 f)
/-- VSHR (R104). -/
def execVshr (c : CoreId) (f : BitVec 120) (s : State) : Host.Outcome State Fault Refusal := run s fun s => issueWord s c.val (mkWord 0x57 f)
/-- VSRA (R104). -/
def execVsra (c : CoreId) (f : BitVec 120) (s : State) : Host.Outcome State Fault Refusal := run s fun s => issueWord s c.val (mkWord 0x58 f)
/-- VFTOI (R104). -/
def execVftoi (c : CoreId) (f : BitVec 120) (s : State) : Host.Outcome State Fault Refusal := run s fun s => issueWord s c.val (mkWord 0x59 f)
/-- VITOF (R104). -/
def execVitof (c : CoreId) (f : BitVec 120) (s : State) : Host.Outcome State Fault Refusal := run s fun s => issueWord s c.val (mkWord 0x5A f)
/-- VDIV (R104). -/
def execVdiv (c : CoreId) (f : BitVec 120) (s : State) : Host.Outcome State Fault Refusal := run s fun s => issueWord s c.val (mkWord 0x60 f)
/-- VSQRT (R104). -/
def execVsqrt (c : CoreId) (f : BitVec 120) (s : State) : Host.Outcome State Fault Refusal := run s fun s => issueWord s c.val (mkWord 0x61 f)
/-- VRCP (R104). -/
def execVrcp (c : CoreId) (f : BitVec 120) (s : State) : Host.Outcome State Fault Refusal := run s fun s => issueWord s c.val (mkWord 0x62 f)
/-- VRSQRT (R104). -/
def execVrsqrt (c : CoreId) (f : BitVec 120) (s : State) : Host.Outcome State Fault Refusal := run s fun s => issueWord s c.val (mkWord 0x63 f)
/-- VEXP2 (R104). -/
def execVexp2 (c : CoreId) (f : BitVec 120) (s : State) : Host.Outcome State Fault Refusal := run s fun s => issueWord s c.val (mkWord 0x64 f)
/-- VLOG2 (R104). -/
def execVlog2 (c : CoreId) (f : BitVec 120) (s : State) : Host.Outcome State Fault Refusal := run s fun s => issueWord s c.val (mkWord 0x65 f)
/-- VEXP (R104). -/
def execVexp (c : CoreId) (f : BitVec 120) (s : State) : Host.Outcome State Fault Refusal := run s fun s => issueWord s c.val (mkWord 0x66 f)
/-- VLOG (R104). -/
def execVlog (c : CoreId) (f : BitVec 120) (s : State) : Host.Outcome State Fault Refusal := run s fun s => issueWord s c.val (mkWord 0x67 f)
/-- VTANH (R104). -/
def execVtanh (c : CoreId) (f : BitVec 120) (s : State) : Host.Outcome State Fault Refusal := run s fun s => issueWord s c.val (mkWord 0x68 f)
/-- VSIGM (R104). -/
def execVsigm (c : CoreId) (f : BitVec 120) (s : State) : Host.Outcome State Fault Refusal := run s fun s => issueWord s c.val (mkWord 0x69 f)
/-- VSIN (R104). -/
def execVsin (c : CoreId) (f : BitVec 120) (s : State) : Host.Outcome State Fault Refusal := run s fun s => issueWord s c.val (mkWord 0x6A f)
/-- VCOS (R104). -/
def execVcos (c : CoreId) (f : BitVec 120) (s : State) : Host.Outcome State Fault Refusal := run s fun s => issueWord s c.val (mkWord 0x6B f)
/-- VERF (R104). -/
def execVerf (c : CoreId) (f : BitVec 120) (s : State) : Host.Outcome State Fault Refusal := run s fun s => issueWord s c.val (mkWord 0x6C f)
/-- VRSUM (R106). -/
def execVrsum (c : CoreId) (f : BitVec 120) (s : State) : Host.Outcome State Fault Refusal := run s fun s => issueWord s c.val (mkWord 0x70 f)
/-- VRMAX (R106). -/
def execVrmax (c : CoreId) (f : BitVec 120) (s : State) : Host.Outcome State Fault Refusal := run s fun s => issueWord s c.val (mkWord 0x71 f)
/-- VRMIN (R106). -/
def execVrmin (c : CoreId) (f : BitVec 120) (s : State) : Host.Outcome State Fault Refusal := run s fun s => issueWord s c.val (mkWord 0x72 f)
/-- VRARGMAX (R106). -/
def execVrargmax (c : CoreId) (f : BitVec 120) (s : State) : Host.Outcome State Fault Refusal := run s fun s => issueWord s c.val (mkWord 0x73 f)
/-- VRARGMIN (R106). -/
def execVrargmin (c : CoreId) (f : BitVec 120) (s : State) : Host.Outcome State Fault Refusal := run s fun s => issueWord s c.val (mkWord 0x74 f)
/-- VLD (R107). -/
def execVld (c : CoreId) (f : BitVec 120) (s : State) : Host.Outcome State Fault Refusal := run s fun s => issueWord s c.val (mkWord 0x78 f)
/-- VST (R107). -/
def execVst (c : CoreId) (f : BitVec 120) (s : State) : Host.Outcome State Fault Refusal := run s fun s => issueWord s c.val (mkWord 0x79 f)
/-- VGATHER (R108). -/
def execVgather (c : CoreId) (f : BitVec 120) (s : State) : Host.Outcome State Fault Refusal := run s fun s => issueWord s c.val (mkWord 0x7A f)
/-- MRING (R294) of mover `m`. -/
def execMring (c : CoreId) (m : Fin 2) (f : BitVec 120) (s : State) : Host.Outcome State Fault Refusal :=
  run s fun s => issueWord s c.val (mkWord (mringOp m) f)
/-- MKICK (R294) of mover `m`. -/
def execMkick (c : CoreId) (m : Fin 2) (f : BitVec 120) (s : State) : Host.Outcome State Fault Refusal :=
  run s fun s => issueWord s c.val (mkWord (mkickOp m) f)
/-- PSIG (R254). -/
def execPsig (c : CoreId) (f : BitVec 120) (s : State) : Host.Outcome State Fault Refusal := run s fun s => issueWord s c.val (mkWord 0x38 f)
/-- PWAIT (R245). -/
def execPwait (c : CoreId) (f : BitVec 120) (s : State) : Host.Outcome State Fault Refusal := run s fun s => issueWord s c.val (mkWord 0x39 f)
/-- PARRIVE (R247). -/
def execParrive (c : CoreId) (f : BitVec 120) (s : State) : Host.Outcome State Fault Refusal := run s fun s => issueWord s c.val (mkWord 0x3A f)
/-- PBWAIT (R254). -/
def execPbwait (c : CoreId) (f : BitVec 120) (s : State) : Host.Outcome State Fault Refusal := run s fun s => issueWord s c.val (mkWord 0x3B f)
/-- PRESET (R248). -/
def execPreset (c : CoreId) (f : BitVec 120) (s : State) : Host.Outcome State Fault Refusal := run s fun s => issueWord s c.val (mkWord 0x3C f)

end Sys2Proof.Machine
end

