-- ==== Sys2Proof/Machine/Wear.lean ====
section
/-! DEFINITION. Errors that the memories find by themselves: weeding of the scratchpads (R145) and patrol of LPDDR5X (R152). -/

namespace Sys2Proof.Machine

/-- R145: the row that weeding of a bank reads next, and the core after it: the rewrite queue first, then the pass. -/
def weedNext (split : Bool) (c : Core) (bank : Nat) : Nat × Core :=
  match c.rewrite.find? fun r => rowBank split r == bank with
  | some r => (r, { c with rewrite := delFirst (· == r) c.rewrite })
  | none =>
    let k := tget 0 c.weedPos bank
    let c1 := { c with weedPos := tput 0 c.weedPos bank ((k + 1) % 3072), weedBanks := if k + 1 = 3072 then ninsert c.weedBanks bank else c.weedBanks }
    (bankRow split bank k, if c1.weedBanks.length = 16 then { c1 with weedPasses := c1.weedPasses + 1, weedBanks := [] } else c1)

/-- R145: weeding reads one row of a bank: a corrected one, which the event or the row itself may show, is counted and written back, and an
uncorrectable one is marked. -/
def weed (s : State) (n bank : Nat) (ce ue forced : Bool) : State :=
  let (row, c) := weedNext s.spSplit (s.core n) bank
  let soft := ce || s.softRows.contains (rowKey n row)
  let c1 := { c with weedForced := c.weedForced + b2n forced, spCe := satAdd 0xFFFFFFFFFFFFFFFF c.spCe (b2n (soft && !ue)) }
  if ue then
    let c2 := { c1 with spUe := satAdd 0xFFFFFFFFFFFFFFFF c1.spUe 1, ueRow := row, ueControl := false, ueWeed := true, ueValid := true }
    rowLost { s.setCore n c2 with badRows := ninsert s.badRows (rowKey n row), rowAcc := s.rowAcc + 1 } n row
  else
    let s1 := { (s.setCore n c1) with softRows := s.softRows.filter (· != rowKey n row), rowAcc := s.rowAcc + 1 }
    if soft then s1.modCxl fun x => { x with correctable := true } else s1

/-! ### Patrol (R152, R155, R184, R431) -/

/-- R155: the address lies in a copy of the disposition journal. -/
def inJournal (a : Nat) : Bool := (0xC0000000 ≤ a && decide (a < 0xC4000000)) || (0xD8000000 ≤ a && decide (a < 0xDC000000))

/-- R184: entries in an uncorrectable 64 B of a spill area are lost. -/
def spillLost (s : State) (a : Nat) : State :=
  { s with trays := s.trays.map fun e =>
      let hit (p : Packet) : Bool := p.spill.any fun i => decide (a ≤ spillAt e.2 i) && decide (spillAt e.2 i < a + 64)
      if e.2.packets.any hit then (e.1, { e.2 with packets := e.2.packets.map fun p => if hit p then { p with bad := true } else p }) else e }

/-- R152: the patrol of a channel reads the 64 B with a line number of the local space; a line of another channel is not read by it. -/
def patrol (s : State) (ch line : Nat) (ce ue : Bool) : State :=
  let a := line * 64
  let soft := ce || s.soft64.contains line
  if !inLp a 64 || chanOf s a != ch then s
  else if ue then
    let s1 := countChan (noteRead s a 64) ch 0 1
    if inJournal a then
      reportUncorr (s1.modFaults fun f => { f with jrepair := f.jrepair + 1 }) { source := 6, index := ch, addr := a }
    else spillLost (reportUncorr { s1 with poison := ninsert s1.poison line } { source := 4, index := ch, addr := a }) a
  else if soft then
    (countChan { (noteRead s a 64) with soft64 := s.soft64.filter (· != line) } ch 1 0).modCxl fun x => { x with correctable := true }
  else noteRead s a 64

/-- WEEDING (R145). -/
def execWeeding (c : CoreId) (bank : Fin 16) (ce ue forced : Bool) (s : State) : Host.Outcome State Fault Refusal :=
  run s fun s => weed s c.val bank.val ce ue forced
/-- PATROL (R152). -/
def execPatrol (ch : Fin 96) (line : Nat) (ce ue : Bool) (s : State) : Host.Outcome State Fault Refusal := run s fun s => patrol s ch.val line ce ue

end Sys2Proof.Machine
end

