-- ==== Sys2Proof/Machine/Dispatch.lean ====
section
/-! DEFINITION. The dispatch of every command to its meaning. -/

namespace Sys2Proof.Machine

def exec (i : Instr) (s : State) : Host.Outcome State Fault Refusal :=
  match i with
  | .powerOn inp => Sys2Proof.Machine.execPowerOn inp s
  | .pwrokFall => Sys2Proof.Machine.execPwrokFall s
  | .boardReset railsHeld inp => Sys2Proof.Machine.execBoardReset railsHeld inp s
  | .watchdog inp => Sys2Proof.Machine.execWatchdog inp s
  | .fatalFaultReset inp => Sys2Proof.Machine.execFatalFaultReset inp s
  | .cxPerst assert width rate flit256 => Sys2Proof.Machine.execCxPerst assert width rate flit256 s
  | .hardwareTrip => Sys2Proof.Machine.execHardwareTrip s
  | .bootReq p die pos parts => Sys2Proof.Machine.execBootReq p die pos parts s
  | .bootData p part off bytes => Sys2Proof.Machine.execBootData p part off bytes s
  | .bootEnd p part len digest status => Sys2Proof.Machine.execBootEnd p part len digest status s
  | .trainPut p die bytes => Sys2Proof.Machine.execTrainPut p die bytes s
  | .bootRetry => Sys2Proof.Machine.execBootRetry s
  | .meshBootRestart => Sys2Proof.Machine.execMeshBootRestart s
  | .nop c w => Sys2Proof.Machine.execNop c w s
  | .endW c f => Sys2Proof.Machine.execEndW c f s
  | .gate c f => Sys2Proof.Machine.execGate c f s
  | .gateRelease c => Sys2Proof.Machine.execGateRelease c s
  | .loop c f => Sys2Proof.Machine.execLoop c f s
  | .seed c f => Sys2Proof.Machine.execSeed c f s
  | .programComplete c => Sys2Proof.Machine.execProgramComplete c s
  | .engineWordComplete c u k waits => Sys2Proof.Machine.execEngineWordComplete c u k waits s
  | .astat c f => Sys2Proof.Machine.execAstat c f s
  | .amul c f => Sys2Proof.Machine.execAmul c f s
  | .distSq c f => Sys2Proof.Machine.execDistSq c f s
  | .distAbs c f => Sys2Proof.Machine.execDistAbs c f s
  | .distMax c f => Sys2Proof.Machine.execDistMax c f s
  | .selMax c f => Sys2Proof.Machine.execSelMax c f s
  | .selMin c f => Sys2Proof.Machine.execSelMin c f s
  | .foldMax c f => Sys2Proof.Machine.execFoldMax c f s
  | .foldMin c f => Sys2Proof.Machine.execFoldMin c f s
  | .adrain c f => Sys2Proof.Machine.execAdrain c f s
  | .aload c f => Sys2Proof.Machine.execAload c f s
  | .fres c f => Sys2Proof.Machine.execFres c f s
  | .fmul c f => Sys2Proof.Machine.execFmul c f s
  | .fdrain c f => Sys2Proof.Machine.execFdrain c f s
  | .vadd c f => Sys2Proof.Machine.execVadd c f s
  | .vsub c f => Sys2Proof.Machine.execVsub c f s
  | .vmul c f => Sys2Proof.Machine.execVmul c f s
  | .vfma c f => Sys2Proof.Machine.execVfma c f s
  | .vmin c f => Sys2Proof.Machine.execVmin c f s
  | .vmax c f => Sys2Proof.Machine.execVmax c f s
  | .vabs c f => Sys2Proof.Machine.execVabs c f s
  | .vneg c f => Sys2Proof.Machine.execVneg c f s
  | .vcmpeq c f => Sys2Proof.Machine.execVcmpeq c f s
  | .vcmplt c f => Sys2Proof.Machine.execVcmplt c f s
  | .vcmple c f => Sys2Proof.Machine.execVcmple c f s
  | .vsel c f => Sys2Proof.Machine.execVsel c f s
  | .viadd c f => Sys2Proof.Machine.execViadd c f s
  | .visub c f => Sys2Proof.Machine.execVisub c f s
  | .vimul c f => Sys2Proof.Machine.execVimul c f s
  | .vand c f => Sys2Proof.Machine.execVand c f s
  | .vor c f => Sys2Proof.Machine.execVor c f s
  | .vxor c f => Sys2Proof.Machine.execVxor c f s
  | .vshl c f => Sys2Proof.Machine.execVshl c f s
  | .vshr c f => Sys2Proof.Machine.execVshr c f s
  | .vsra c f => Sys2Proof.Machine.execVsra c f s
  | .vftoi c f => Sys2Proof.Machine.execVftoi c f s
  | .vitof c f => Sys2Proof.Machine.execVitof c f s
  | .vdiv c f => Sys2Proof.Machine.execVdiv c f s
  | .vsqrt c f => Sys2Proof.Machine.execVsqrt c f s
  | .vrcp c f => Sys2Proof.Machine.execVrcp c f s
  | .vrsqrt c f => Sys2Proof.Machine.execVrsqrt c f s
  | .vexp2 c f => Sys2Proof.Machine.execVexp2 c f s
  | .vlog2 c f => Sys2Proof.Machine.execVlog2 c f s
  | .vexp c f => Sys2Proof.Machine.execVexp c f s
  | .vlog c f => Sys2Proof.Machine.execVlog c f s
  | .vtanh c f => Sys2Proof.Machine.execVtanh c f s
  | .vsigm c f => Sys2Proof.Machine.execVsigm c f s
  | .vsin c f => Sys2Proof.Machine.execVsin c f s
  | .vcos c f => Sys2Proof.Machine.execVcos c f s
  | .verf c f => Sys2Proof.Machine.execVerf c f s
  | .vrsum c f => Sys2Proof.Machine.execVrsum c f s
  | .vrmax c f => Sys2Proof.Machine.execVrmax c f s
  | .vrmin c f => Sys2Proof.Machine.execVrmin c f s
  | .vrargmax c f => Sys2Proof.Machine.execVrargmax c f s
  | .vrargmin c f => Sys2Proof.Machine.execVrargmin c f s
  | .vld c f => Sys2Proof.Machine.execVld c f s
  | .vst c f => Sys2Proof.Machine.execVst c f s
  | .vgather c f => Sys2Proof.Machine.execVgather c f s
  | .mring c m f => Sys2Proof.Machine.execMring c m f s
  | .mkick c m f => Sys2Proof.Machine.execMkick c m f s
  | .copy c m r => Sys2Proof.Machine.execCopy c m r s
  | .addCopy c m r => Sys2Proof.Machine.execAddCopy c m r s
  | .stream c m r => Sys2Proof.Machine.execStream c m r s
  | .moverAtomic c m r => Sys2Proof.Machine.execMoverAtomic c m r s
  | .moverTrayPut c m r => Sys2Proof.Machine.execMoverTrayPut c m r s
  | .moverUpdate c m r => Sys2Proof.Machine.execMoverUpdate c m r s
  | .descriptorComplete c m r => Sys2Proof.Machine.execDescriptorComplete c m r s
  | .messageRetry c m r => Sys2Proof.Machine.execMessageRetry c m r s
  | .noCreditRetry c m r => Sys2Proof.Machine.execNoCreditRetry c m r s
  | .psig c f => Sys2Proof.Machine.execPsig c f s
  | .pwait c f => Sys2Proof.Machine.execPwait c f s
  | .parrive c f => Sys2Proof.Machine.execParrive c f s
  | .pbwait c f => Sys2Proof.Machine.execPbwait c f s
  | .preset c f => Sys2Proof.Machine.execPreset c f s
  | .pegApply c => Sys2Proof.Machine.execPegApply c s
  | .preemptionPoint c nonpre => Sys2Proof.Machine.execPreemptionPoint c nonpre s
  | .saveComplete c => Sys2Proof.Machine.execSaveComplete c s
  | .resumeContext u => Sys2Proof.Machine.execResumeContext u s
  | .handshakeTimeout c => Sys2Proof.Machine.execHandshakeTimeout c s
  | .openPkt t e node own => Sys2Proof.Machine.execOpenPkt t e node own s
  | .commit t slot pseq words poison fabric => Sys2Proof.Machine.execCommit t slot pseq words poison fabric s
  | .commitPoint t => Sys2Proof.Machine.execCommitPoint t s
  | .openTimeout t slot pseq => Sys2Proof.Machine.execOpenTimeout t slot pseq s
  | .claim t who => Sys2Proof.Machine.execClaim t who s
  | .read t who => Sys2Proof.Machine.execRead t who s
  | .readHoldExpiry t seq => Sys2Proof.Machine.execReadHoldExpiry t seq s
  | .unclaim t seq => Sys2Proof.Machine.execUnclaim t seq s
  | .retire t seq => Sys2Proof.Machine.execRetire t seq s
  | .creditUpdate t slot => Sys2Proof.Machine.execCreditUpdate t slot s
  | .rd p m => Sys2Proof.Machine.execRd p m s
  | .wr p m => Sys2Proof.Machine.execWr p m s
  | .atomic p m => Sys2Proof.Machine.execAtomic p m s
  | .signal p m => Sys2Proof.Machine.execSignal p m s
  | .trayPut p m => Sys2Proof.Machine.execTrayPut p m s
  | .update p m => Sys2Proof.Machine.execUpdate p m s
  | .credit p m => Sys2Proof.Machine.execCredit p m s
  | .mgmt p m => Sys2Proof.Machine.execMgmt p m s
  | .rddata p m => Sys2Proof.Machine.execRddata p m s
  | .wrack p m => Sys2Proof.Machine.execWrack p m s
  | .atomresp p m => Sys2Proof.Machine.execAtomresp p m s
  | .sigack p m => Sys2Proof.Machine.execSigack p m s
  | .trayAck p m => Sys2Proof.Machine.execTrayAck p m s
  | .updack p m => Sys2Proof.Machine.execUpdack p m s
  | .rspTimeout p tag => Sys2Proof.Machine.execRspTimeout p tag s
  | .frameReceive p kind fseq fack crcOk fixed bad => Sys2Proof.Machine.execFrameReceive p kind fseq fack crcOk fixed bad s
  | .replay p fseq => Sys2Proof.Machine.execReplay p fseq s
  | .linkCredit p vc hdrs flits => Sys2Proof.Machine.execLinkCredit p vc hdrs flits s
  | .train p r => Sys2Proof.Machine.execTrain p r s
  | .retrain p r => Sys2Proof.Machine.execRetrain p r s
  | .tag p epoch fseq ok => Sys2Proof.Machine.execTag p epoch fseq ok s
  | .tagTimeout p => Sys2Proof.Machine.execTagTimeout p s
  | .linkTraining p r => Sys2Proof.Machine.execLinkTraining p r s
  | .portRetrain p r => Sys2Proof.Machine.execPortRetrain p r s
  | .portDown p => Sys2Proof.Machine.execPortDown p s
  | .routeHoldRelease node => Sys2Proof.Machine.execRouteHoldRelease node s
  | .ringAnchor x => Sys2Proof.Machine.execRingAnchor x s
  | .linkPolicy require allow rsvd secured => Sys2Proof.Machine.execLinkPolicy require allow rsvd secured s
  | .getVersion l => Sys2Proof.Machine.execGetVersion l s
  | .getCapabilities l => Sys2Proof.Machine.execGetCapabilities l s
  | .negotiateAlgorithms l acceptable => Sys2Proof.Machine.execNegotiateAlgorithms l acceptable s
  | .getDigests l => Sys2Proof.Machine.execGetDigests l s
  | .getCertificate l slot => Sys2Proof.Machine.execGetCertificate l slot s
  | .challenge l slot => Sys2Proof.Machine.execChallenge l slot s
  | .getMeasurements l index => Sys2Proof.Machine.execGetMeasurements l index s
  | .keyExchange l ek authed => Sys2Proof.Machine.execKeyExchange l ek authed s
  | .finish l ok => Sys2Proof.Machine.execFinish l ok s
  | .keyUpdate l => Sys2Proof.Machine.execKeyUpdate l s
  | .keyUpdateDue p => Sys2Proof.Machine.execKeyUpdateDue p s
  | .heartbeat l => Sys2Proof.Machine.execHeartbeat l s
  | .endSession l => Sys2Proof.Machine.execEndSession l s
  | .setCertificate l slot chain endsInKey => Sys2Proof.Machine.execSetCertificate l slot chain endsInKey s
  | .doeDiscovery mailbox index => Sys2Proof.Machine.execDoeDiscovery mailbox index s
  | .cdatRead entry => Sys2Proof.Machine.execCdatRead entry s
  | .cmdTail c tail data => Sys2Proof.Machine.execCmdTail c tail data s
  | .cmplHead c head => Sys2Proof.Machine.execCmplHead c head s
  | .evrHead c head => Sys2Proof.Machine.execEvrHead c head s
  | .htrTail c r tail data => Sys2Proof.Machine.execHtrTail c r tail data s
  | .htrResume c r => Sys2Proof.Machine.execHtrResume c r s
  | .saltNodeWrite v => Sys2Proof.Machine.execSaltNodeWrite v s
  | .saltCfgWrite v => Sys2Proof.Machine.execSaltCfgWrite v s
  | .fmtSatcntRead c => Sys2Proof.Machine.execFmtSatcntRead c s
  | .registerWrite off v => Sys2Proof.Machine.execRegisterWrite off v s
  | .hdmDecoderCommit on base span => Sys2Proof.Machine.execHdmDecoderCommit on base span s
  | .hostMemRead addr => Sys2Proof.Machine.execHostMemRead addr s
  | .hostMemWrite addr bytes poison => Sys2Proof.Machine.execHostMemWrite addr bytes poison s
  | .birsp line => Sys2Proof.Machine.execBirsp line s
  | .cxlLinkDown => Sys2Proof.Machine.execCxlLinkDown s
  | .cxlLinkUp width rate flit256 => Sys2Proof.Machine.execCxlLinkUp width rate flit256 s
  | .hostLoss => Sys2Proof.Machine.execHostLoss s
  | .holdoffEnd c => Sys2Proof.Machine.execHoldoffEnd c s
  | .htrPut c r linkOk => Sys2Proof.Machine.execHtrPut c r linkOk s
  | .htrGet c r linkOk => Sys2Proof.Machine.execHtrGet c r linkOk s
  | .htrDone c r linkOk => Sys2Proof.Machine.execHtrDone c r linkOk s
  | .htrUnclaim c r linkOk => Sys2Proof.Machine.execHtrUnclaim c r linkOk s
  | .sessionOpen c h par => Sys2Proof.Machine.execSessionOpen c h par s
  | .sessionClose c h par => Sys2Proof.Machine.execSessionClose c h par s
  | .ctxCreate c h par => Sys2Proof.Machine.execCtxCreate c h par s
  | .ctxDestroy c h par => Sys2Proof.Machine.execCtxDestroy c h par s
  | .ctxConfig c h par => Sys2Proof.Machine.execCtxConfig c h par s
  | .stageLoad c h par img => Sys2Proof.Machine.execStageLoad c h par img s
  | .stageDrain c h par => Sys2Proof.Machine.execStageDrain c h par s
  | .trayConfig c h par => Sys2Proof.Machine.execTrayConfig c h par s
  | .trayRelease c h par => Sys2Proof.Machine.execTrayRelease c h par s
  | .trayFlush c h par => Sys2Proof.Machine.execTrayFlush c h par s
  | .sweepRun c h par => Sys2Proof.Machine.execSweepRun c h par s
  | .sweepRunStop c h par => Sys2Proof.Machine.execSweepRunStop c h par s
  | .seqJoin c h par => Sys2Proof.Machine.execSeqJoin c h par s
  | .seqLeave c h par => Sys2Proof.Machine.execSeqLeave c h par s
  | .rakeProgram c h par => Sys2Proof.Machine.execRakeProgram c h par s
  | .rakeGroup c h par => Sys2Proof.Machine.execRakeGroup c h par s
  | .pegAlloc c h par => Sys2Proof.Machine.execPegAlloc c h par s
  | .pegFree c h par => Sys2Proof.Machine.execPegFree c h par s
  | .pegReset c h par => Sys2Proof.Machine.execPegReset c h par s
  | .pegSignal c h par => Sys2Proof.Machine.execPegSignal c h par s
  | .pegWait c h par => Sys2Proof.Machine.execPegWait c h par s
  | .pegWaitTimeout c aseq => Sys2Proof.Machine.execPegWaitTimeout c aseq s
  | .pegDump c h par => Sys2Proof.Machine.execPegDump c h par s
  | .windowOpen c h par => Sys2Proof.Machine.execWindowOpen c h par s
  | .windowClose c h par => Sys2Proof.Machine.execWindowClose c h par s
  | .routeSet c h par => Sys2Proof.Machine.execRouteSet c h par s
  | .harvest c h par => Sys2Proof.Machine.execHarvest c h par s
  | .harvestPoll c seen => Sys2Proof.Machine.execHarvestPoll c seen s
  | .harvestTimeout c => Sys2Proof.Machine.execHarvestTimeout c s
  | .restore c h par reads => Sys2Proof.Machine.execRestore c h par reads s
  | .powerSet c h par => Sys2Proof.Machine.execPowerSet c h par s
  | .selftest c h par => Sys2Proof.Machine.execSelftest c h par s
  | .selftestComplete block index pass data => Sys2Proof.Machine.execSelftestComplete block index pass data s
  | .debugRead c h par => Sys2Proof.Machine.execDebugRead c h par s
  | .attest c h par => Sys2Proof.Machine.execAttest c h par s
  | .bedPass r => Sys2Proof.Machine.execBedPass r s
  | .rkMov r d a b x => Sys2Proof.Machine.execRkMov r d a b x s
  | .rkAdd r d a b x => Sys2Proof.Machine.execRkAdd r d a b x s
  | .rkSub r d a b x => Sys2Proof.Machine.execRkSub r d a b x s
  | .rkMul r d a b x => Sys2Proof.Machine.execRkMul r d a b x s
  | .rkFma r d a b x => Sys2Proof.Machine.execRkFma r d a b x s
  | .rkFnma r d a b x => Sys2Proof.Machine.execRkFnma r d a b x s
  | .rkMin r d a b x => Sys2Proof.Machine.execRkMin r d a b x s
  | .rkMax r d a b x => Sys2Proof.Machine.execRkMax r d a b x s
  | .rkAbs r d a b x => Sys2Proof.Machine.execRkAbs r d a b x s
  | .rkNeg r d a b x => Sys2Proof.Machine.execRkNeg r d a b x s
  | .rkDiv r d a b x => Sys2Proof.Machine.execRkDiv r d a b x s
  | .rkSqrt r d a b x => Sys2Proof.Machine.execRkSqrt r d a b x s
  | .rkRsqrt r d a b x => Sys2Proof.Machine.execRkRsqrt r d a b x s
  | .rkSign r d a b x => Sys2Proof.Machine.execRkSign r d a b x s
  | .rkSelgt r d a b x => Sys2Proof.Machine.execRkSelgt r d a b x s
  | .refresh r => Sys2Proof.Machine.execRefresh r s
  | .rakePhaseEnd => Sys2Proof.Machine.execRakePhaseEnd s
  | .missingBlockTimeout => Sys2Proof.Machine.execMissingBlockTimeout s
  | .stepFence c => Sys2Proof.Machine.execStepFence c s
  | .periodEnd c => Sys2Proof.Machine.execPeriodEnd c s
  | .plotReconfig => Sys2Proof.Machine.execPlotReconfig s
  | .sliceEnd u => Sys2Proof.Machine.execSliceEnd u s
  | .tick inp => Sys2Proof.Machine.execTick inp s
  | .currentRead raw ack fault => Sys2Proof.Machine.execCurrentRead raw ack fault s
  | .avsPoll mv temp ack fault => Sys2Proof.Machine.execAvsPoll mv temp ack fault s
  | .avsAlert ack fault => Sys2Proof.Machine.execAvsAlert ack fault s
  | .sensorFailTimeout c => Sys2Proof.Machine.execSensorFailTimeout c s
  | .heatRecord => Sys2Proof.Machine.execHeatRecord s
  | .rateSample c rate => Sys2Proof.Machine.execRateSample c rate s
  | .weeding c bank ce ue forced => Sys2Proof.Machine.execWeeding c bank ce ue forced s
  | .patrol ch line ce ue => Sys2Proof.Machine.execPatrol ch line ce ue s
  | .ringRestart => Sys2Proof.Machine.execRingRestart s
  | .neighbourWaitTimeout u => Sys2Proof.Machine.execNeighbourWaitTimeout u s
  | .help => Sys2Proof.Machine.execHelp s
  | .idRecord => Sys2Proof.Machine.execIdRecord s
  | .status => Sys2Proof.Machine.execStatus s
  | .amon sel idx mv => Sys2Proof.Machine.execAmon sel idx mv s
  | .amonUpdate mv => Sys2Proof.Machine.execAmonUpdate mv s
  | .test block test index intrusive => Sys2Proof.Machine.execTest block test index intrusive s
  | .testAll => Sys2Proof.Machine.execTestAll s
  | .log n => Sys2Proof.Machine.execLog n s
  | .pegdump ctx => Sys2Proof.Machine.execPegdump ctx s
  | .consoleRead addr len => Sys2Proof.Machine.execConsoleRead addr len s
  | .baud rate => Sys2Proof.Machine.execBaud rate s
  | .unlock => Sys2Proof.Machine.execUnlock s
  | .lock => Sys2Proof.Machine.execLock s
  | .resetWarm inp => Sys2Proof.Machine.execResetWarm inp s
  | .resetCold inp => Sys2Proof.Machine.execResetCold inp s
  | .recover slot r inp => Sys2Proof.Machine.execRecover slot r inp s
  | .rma => Sys2Proof.Machine.execRma s
  | .savedStateRestored c => Sys2Proof.Machine.execSavedStateRestored c s
  | .parityFault c => Sys2Proof.Machine.execParityFault c s
  | .rakeHardwareFault r => Sys2Proof.Machine.execRakeHardwareFault r s
  | .periodStart c => Sys2Proof.Machine.execPeriodStart c s
  | .ideKm stream => Sys2Proof.Machine.execIdeKm stream s
  | .payloadCopied t seq => Sys2Proof.Machine.execPayloadCopied t seq s

end Sys2Proof.Machine
end

