-- ==== Sys2Proof/Machine/HostRegs.lean ====
section
/-! DEFINITION. What the host reads of the part: BAR0 (R313 to R315, R322) and configuration space (R312). A read changes nothing, but for
FMT_SATCNT, whose read has a row of its own. -/

namespace Sys2Proof.Machine

/-! ### BAR0 -/

/-- The host registers (Tables 13-4 and 13-5). -/
def hostReg (s : State) (off : Nat) : Nat :=
  let x := s.cxl
  if off = 0x00 then fields [(0, 1, b2n x.ready), (1, 1, b2n x.warm), (2, 1, b2n x.memActive), (3, 1, b2n x.linkloss), (4, 1, b2n x.ideReq), (8, 3, x.width)
    , (11, 4, x.rate), (15, 1, b2n x.flit256), (32, 32, s.hdmBytes / 0x100000)]
  else if off = 0x08 then x.winsel else if off = 0x10 then x.wdrop else if off = 0x18 then x.dbbad else if off = 0x20 then x.htrwait
  else if off = 0x28 then x.bisnp else if off = 0x30 then x.heldCtr else 0

/-- A context page (Tables 13-6 and 13-7); the tail registers and HTR_CTL read 0. -/
def pageReg (s : State) (c off : Nat) : Nat :=
  let x := s.ctx c
  if off = 0x008 then x.cmplHead % 2 ^ 32 else if off = 0x010 then x.evrHead % 2 ^ 32
  else if off = 0x030 then fields [(0, 1, b2n x.htr0.halted), (1, 1, b2n x.htr1.halted), (2, 1, b2n x.dbbad), (3, 1, b2n x.live), (16, 16, x.htr0.head), (32, 16, x.htr1.head)]
  else if off = 0x038 then x.holdoff else 0

/-- An 8-byte word of the MSI-X pending bit array. -/
def pbaWord (s : State) (w : Nat) : Nat := ((List.range 64).map fun i => b2n (s.cxl.pba.contains (64 * w + i)) * 2 ^ i).foldl (· + ·) 0

/-- R313: what an 8 B read at an offset of BAR0 returns; an unassigned offset reads 0. -/
def bar0Read (s : State) (off : Nat) : Nat :=
  if off % 8 ≠ 0 then 0
  else if off < 0x00010000 then tget 0 s.cxl.comp (off / 8)
  else if off < 0x00011000 then hostReg s (off - 0x00010000)
  else if 0x00020000 ≤ off ∧ off < 0x00028000 then tget 0 s.cxl.msixTab ((off - 0x00020000) / 8)
  else if 0x00028000 ≤ off ∧ off < 0x00028100 then pbaWord s ((off - 0x00028000) / 8)
  else if 0x00400000 ≤ off ∧ off < 0x00800000 then regAt s (s.cxl.winsel * 0x400000 + (off - 0x00400000))
  else if 0x01000000 ≤ off ∧ off < 0x02000000 then pageReg s ((off - 0x01000000) / 0x1000) (off % 0x1000)
  else 0

/-! ### Configuration space (R312) -/

/-- The configuration header of function 0, by 4-byte offset. The places are those of PCI Express (PRESUMED, log 106): Vendor and Device ID,
Revision ID and class code, BAR0 as a 64-bit non-prefetchable one, and the Subsystem IDs of the board's record. -/
def configHeader (s : State) (off : Nat) : Nat :=
  if off = 0x00 then Config.vendorId.toNat + 0x1412 * 2 ^ 16
  else if off = 0x08 then 0xB1 + 0x120000 * 2 ^ 8
  else if off = 0x10 then 0x4
  else if off = 0x2C then (config s.start.inputs).subsys % 2 ^ 32
  else 0

/-- The IDs of the DVSECs of function 0. -/
def dvsecs : List Nat := [0, 7, 8]

/-- A 2-byte field of a DVSEC, by DVSEC ID and offset, as CXL 3.1 places it (PRESUMED, log 106): the capabilities of the DVSEC for CXL
Devices with HDM_Count 1, and the size of its range 1 with Memory_Info_Valid, Memory_Active and Memory_Active_Timeout (2, which is 16 s);
where the Register Locator points, BAR0 offset 0, reads 0. -/
def dvsecField (s : State) (id off : Nat) : Nat :=
  if id = 0 then
    if off = 0x0A then fields [(0, 1, 1), (1, 1, 1), (2, 1, 1), (4, 2, 1)]
    else if off = 0x18 then s.hdmBytes / 2 ^ 32 % 2 ^ 16
    else if off = 0x1A then s.hdmBytes / 2 ^ 48
    else if off = 0x1C then fields [(0, 1, 1), (1, 1, b2n s.cxl.memActive), (13, 3, 2)]
    else if off = 0x1E then s.hdmBytes % 2 ^ 32 / 2 ^ 28 * 2 ^ 12
    else 0
  else 0

end Sys2Proof.Machine
end

