-- ==== Sys2Proof/Machine/Journal.lean ====
section
/-! DEFINITION. What the two journal copies of tract 4 hold (R154, R155, R416, R429, R430): the journal's state lives once, as entries, tables
and header, and these are its bytes at their places. No window, context or debug access reaches tract 4 (R154). -/

namespace Sys2Proof.Machine

/-- Table 7-8: the base addresses of copy A and copy B. -/
def journalBases : List Nat := [0x0000C0000000, 0x0000D8000000]

/-- Table 18-4: the journal state at header offset 0x60. -/
def journalState (s : State) : List Byte :=
  let f := s.faults
  leBytes 8 f.startJseq ++ leBytes 8 (f.jnext - jUsed s) ++ leBytes 1 f.lastCause ++ leBytes 1 (b2n f.jlost + 2 * b2n f.quiesced) ++ leBytes 2 0
    ++ leBytes 4 s.sess.number ++ leBytes 8 f.resetAt ++ fillBytes 96 0

/-- Table 17-5: the 256 bytes of the journal header, zero where no start has written it. -/
def journalHeader (s : State) : List Byte :=
  let h := s.start.hdr
  if !h.valid then fillBytes 256 0
  else
    let b := leBytes 4 0x594A4844 ++ leBytes 2 1 ++ leBytes 2 h.stepping ++ leBytes 16 h.dieId ++ leBytes 1 (h.pos + 8 * b2n h.bootsrc + 16 * b2n h.uartv)
      ++ leBytes 1 0 ++ leBytes 2 h.node ++ leBytes 4 0 ++ leBytes 8 h.starts ++ leBytes 4 h.imgver ++ leBytes 4 h.journalVer ++ leBytes 8 h.s
      ++ leBytes 8 h.ts ++ leBytes 32 h.cfgDigest ++ journalState s
    b ++ shake256 b 32

/-- R429: the 128 bytes of a tray-table entry, at offset 0x101000 + 128 × tray. -/
def trayEntry (s : State) (n : Nat) : List Byte :=
  let t := s.tray n
  leBytes 8 (trayReg s n 0) ++ leBytes 8 (trayReg s n 8) ++ leBytes 4 t.nextSeq ++ leBytes 4 ((t.packets.head?.map Packet.pos).getD t.nextWord)
    ++ leBytes 4 t.nextWord ++ fillBytes 36 0 ++ (List.range 8).flatMap fun i => leBytes 8 (trayReg s n (0x140 + 8 * i))

/-- R430: the 64 bytes of the log at an index, from offset 0x600000: the kept entry whose JSEQ falls there. -/
def logEntry (s : State) (i : Nat) : Option (List Byte) :=
  (s.faults.jrn.reverse.find? fun e => e.jseq % 950272 == i).map JEntry.bytes

end Sys2Proof.Machine
end

