-- ==== Sys2Proof/Machine/Pins.lean ====
section
/-! DEFINITION. The package's balls and what each carries (R482 to R486). -/

namespace Sys2Proof.Machine

/-- What a ball carries: a rail of Table 21-1 or of R483, or a signal of R485 and Table 21-2. -/
inductive Ball
  | none
  | vss
  | vddCore
  | vddhSer
  | vddaSer
  | vddEdge
  | vdd2h
  | vdd2l
  | vddq
  | vddIo18
  | vddUart
  | spTx (lane : Nat) (neg : Bool)
  | spRx (lane : Nat) (neg : Bool)
  | cxTx (lane : Nat) (neg : Bool)
  | cxRx (lane : Nat) (neg : Bool)
  | signal (name : String)
  deriving DecidableEq, Repr

/-- R482: the regions of the grid. -/
def ballCentre (r c : Nat) : Bool := 21 ≤ r && r ≤ 78 && 21 ≤ c && c ≤ 78
def ballRing (r c : Nat) : Bool := !ballCentre r c && 9 ≤ r && r ≤ 90 && 9 ≤ c && c ≤ 90

/-- R484: the depth of a ring ball. -/
def ringDepth (r c : Nat) : Nat := if r ≤ 20 then r - 8 else if 79 ≤ r then 91 - r else if c ≤ 20 then c - 8 else 91 - c

/-- Table 21-1. -/
def ringBall (d : Nat) : Ball :=
  match d with
  | 2 => .vddhSer
  | 4 => .vddaSer
  | 6 => .vddEdge
  | 8 => .vdd2h
  | 10 => .vdd2l
  | 12 => .vddq
  | _ => .vss

/-- Table 21-2, in its order. -/
def signalBalls : List ((Nat × Nat) × String) :=
  [((2, 10), "PWROK"), ((2, 12), "SYS_RST_N"), ((2, 14), "POS0"), ((2, 16), "POS1"), ((2, 18), "POS2"), ((2, 20), "BOOTSRC"), ((2, 22), "UARTV"),
   ((2, 40), "FL_CLK"), ((2, 42), "FL_DQS"), ((2, 44), "FL_CS_N"), ((2, 46), "FL_RST_N")]
  ++ [((4, 40), "FL_DQ0"), ((4, 42), "FL_DQ1"), ((4, 44), "FL_DQ2"), ((4, 46), "FL_DQ3"), ((4, 48), "FL_DQ4"), ((4, 50), "FL_DQ5"), ((4, 52), "FL_DQ6"),
   ((4, 54), "FL_DQ7"), ((4, 10), "UART_TX"), ((4, 12), "UART_RX"), ((4, 16), "AMON"), ((4, 17), "AMON_RTN"), ((4, 20), "TESTOK")]
  ++ [((4, 24), "AVS_CLK"), ((4, 26), "AVS_MDATA"), ((4, 28), "AVS_SDATA"), ((4, 30), "AVS_ALERT_N"), ((4, 32), "THERMTRIP_N"), ((6, 10), "SYS_REFCLK"),
   ((86, 2), "SP_REFCLK0P"), ((87, 2), "SP_REFCLK0N"), ((86, 97), "SP_REFCLK1P"), ((87, 97), "SP_REFCLK1N"), ((97, 80), "CX_REFCLKP"),
   ((97, 81), "CX_REFCLKN"), ((93, 86), "CX_PERST_N"), ((50, 49), "VDD_CORE_SENSE"), ((50, 50), "VSS_CORE_SENSE")]

/-- R485: the lane ball of an edge position, by the column or row that the pairs of a direction lie in and the first ball of lane 0. -/
def laneBall (first lanes k : Nat) : Option (Nat × Bool) :=
  if first ≤ k ∧ k < first + 4 * lanes ∧ (k - first) % 4 < 2 then some ((k - first) / 4, (k - first) % 4 == 1) else none

/-- R485: an edge ball. -/
def edgeBall (r c : Nat) : Ball :=
  let lane (first lanes k off : Nat) (f : Nat → Bool → Ball) : Ball := match laneBall first lanes k with
    | some (l, neg) => f (l + off) neg
    | none => .vss
  if c = 2 then lane 17 16 r 0 .spTx
  else if c = 5 then lane 17 16 r 0 .spRx
  else if c = 97 ∧ r ≠ 97 then lane 17 16 r 16 .spTx
  else if c = 94 ∧ r ≠ 97 ∧ r ≠ 94 then lane 17 16 r 16 .spRx
  else if r = 97 then lane 13 16 c 0 .cxTx
  else if r = 94 then lane 13 16 c 0 .cxRx
  else if r = 8 ∧ c % 2 = 0 ∧ 10 ≤ c ∧ c ≤ 90 then .vddIo18
  else if r = 7 ∧ (c = 10 ∨ c = 12) then .vddUart
  else .vss

/-- R482 to R486: ball r.c. -/
def ballAt (r c : Nat) : Ball :=
  if r < 1 ∨ 98 < r ∨ c < 1 ∨ 98 < c ∨ (r = 1 ∧ c = 1) then .none
  else match signalBalls.find? fun e => e.1 == (r, c) with
    | some e => .signal e.2
    | none =>
      if ballCentre r c then (if (r + c) % 2 = 0 then .vddCore else .vss)
      else if ballRing r c then ringBall (ringDepth r c)
      else edgeBall r c

end Sys2Proof.Machine
end

