-- ==== Sys2Proof/Safety.lean ====
section
/-! DEFINITION. The words in which claims about the machine are stated: a part that is on, a core that waits for a word, and a part
without power. -/

namespace Sys2Proof

open Sys2Proof.Machine

/-- The part is on, and `a` is what its own progress (R360, log 1) makes of `s` before it takes the next command. -/
def Meets (s a : State) : Prop := powered s = true ∧ advance s = a

/-- A command that a part without power still meets (R418, R493): the edges of PWROK. -/
def isPowerEdge : Instr → Bool
  | .powerOn _ => true
  | .pwrokFall => true
  | _ => false

/-- A part without power, and no edge of PWROK waiting. -/
def Unpowered (s : State) : Prop := powered s = false ∧ s.pending.all (fun c => !isPowerEdge c) = true

/-- A running core whose issue unit has nothing fetched and nothing queued, and may fetch its next word (R118, R126). -/
def Waiting (a : State) (n : Nat) : Prop :=
  let c := a.core n
  c.mode = .running ∧ c.run.ended = false ∧ c.run.prog = [] ∧ c.run.pos = 0 ∧ c.run.hi = 0 ∧ c.run.loops = [] ∧ c.run.q = []
    ∧ fetchOk a n c.run.progPc = true ∧ isPoisoned a c.run.progPc 16 = false

/-- The entry that a unit's word of a waiting core makes in its unit's queue (R116, R123). -/
def wordEntry (a : State) (n : Nat) (w : W128) : QWord :=
  { unit := unitOf w, word := w, pc := (a.core n).run.progPc, seed := tget 0 (a.core n).run.seeds ((seedSel w).getD 0)
    rvec := if wOp w = 0x23 then (a.core n).run.eng.rvec else 0 }

/-- A waiting core has fetched and dispatched a word (R116, R118): the fetch counts in MEM_OBYTES, the fetch address and the count of
dispatched words move on, and `f` is what else the word does to the core's run. -/
def passed (a : State) (n : Nat) (f : Run → Run) : State :=
  (noteRead a (a.core n).run.progPc 16).modRun n fun r =>
    let r1 := f { r with progPc := r.progPc + 16 }
    { r1 with eng := r1.eng.count 0x18 1 }

/-- What the dispatch of a unit's word does to the run of a waiting core: the word stands alone in its unit's queue, ISSUED of the unit
has advanced, a load of a buffer has set that buffer's format, and FRES the vector count that a later FDRAIN takes (R70, R98, R116). -/
def queued (a : State) (n : Nat) (w : W128) (r : Run) : Run :=
  { r with
    q := [wordEntry a n w]
    issued := tput 0 r.issued (unitOf w) (tget 0 r.issued (unitOf w) + 1)
    eng := if wOp w = 0x01 then (if wf w 8 1 = 0 then { r.eng with last0 := some (wf w 10 5) } else { r.eng with last1 := some (wf w 10 5) })
      else if wOp w = 0x21 then
        (if wf w 8 1 = 0 then { r.eng with rlast0 := some (wf w 10 5), rvec := wf w 48 5 } else { r.eng with rlast1 := some (wf w 10 5), rvec := wf w 48 5 })
      else r.eng }

/-- The state in which a waiting core has dispatched a unit's word. -/
def dispatched (a : State) (n : Nat) (w : W128) : State := passed a n (queued a n w)

/-- A waiting core takes a unit's word: every check at issue passes (Table 6-9). -/
def Accepts (a : State) (n : Nat) (w : W128) : Prop := Waiting a n ∧ issueFault (a.core n).run w = none

/-- The engine state that a unit's word finds: that of the waiting core after the dispatch. -/
def foundEngine (a : State) (n : Nat) (w : W128) : Engine := (queued a n w (a.core n).run).eng.count 0x18 1

/-- An engine with the flags and the count of saturated elements of an instruction (R51). -/
def flagged (e : Engine) (fl : BitVec 7) (k : Nat) : Engine := { e with flags := e.flags ||| fl, satcnt := satAdd 0xFFFFFFFF e.satcnt k }

/-- A unit has executed its word: the correctable rows that it read are corrected (R144), the core's engine state is `g`, the word stands
executed in its queue, its row accesses are counted (Table 15-3), and the rows of the core's window hold what the word wrote, each a byte
offset into the window and its bytes. -/
def executed (a : State) (n : Nat) (w : W128) (g : Engine) (wr : List (Nat × List Byte)) : State :=
  let s := (softReads (dispatched a n w) n w).modRun n fun r => { r with eng := g, q := [{ wordEntry a n w with done := true }] }
  wr.foldl (fun s x => writeMem s (rowAddr n (a.core n).run.rowBase + x.1) x.2)
    { s with freeCtr := s.freeCtr + 1, rowAcc := s.rowAcc + (readRows w).length }

/-- The port and the message of a message row, with the type that the row has (Table 12-6). -/
def msgOf : Instr → Option (PortId × Msg)
  | .rd p m => some (p, { m with mtype := 1 })
  | .wr p m => some (p, { m with mtype := 2 })
  | .atomic p m => some (p, { m with mtype := 3 })
  | .signal p m => some (p, { m with mtype := 4 })
  | .trayPut p m => some (p, { m with mtype := 5 })
  | .update p m => some (p, { m with mtype := 6 })
  | .credit p m => some (p, { m with mtype := 7 })
  | .mgmt p m => some (p, { m with mtype := 8 })
  | .rddata p m => some (p, { m with mtype := 0x21 })
  | .wrack p m => some (p, { m with mtype := 0x22 })
  | .atomresp p m => some (p, { m with mtype := 0x23 })
  | .sigack p m => some (p, { m with mtype := 0x24 })
  | .trayAck p m => some (p, { m with mtype := 0x25 })
  | .updack p m => some (p, { m with mtype := 0x26 })
  | _ => none

/-- The rake, the operation code, the destination and the operand codes of a row of Table 10-4. -/
def rakeRow : Instr → Option (RakeId × Nat × Fin 16 × BitVec 5 × BitVec 5 × BitVec 5)
  | .rkMov r d a b x => some (r, 0x01, d, a, b, x)
  | .rkAdd r d a b x => some (r, 0x02, d, a, b, x)
  | .rkSub r d a b x => some (r, 0x03, d, a, b, x)
  | .rkMul r d a b x => some (r, 0x04, d, a, b, x)
  | .rkFma r d a b x => some (r, 0x05, d, a, b, x)
  | .rkFnma r d a b x => some (r, 0x06, d, a, b, x)
  | .rkMin r d a b x => some (r, 0x07, d, a, b, x)
  | .rkMax r d a b x => some (r, 0x08, d, a, b, x)
  | .rkAbs r d a b x => some (r, 0x09, d, a, b, x)
  | .rkNeg r d a b x => some (r, 0x0A, d, a, b, x)
  | .rkDiv r d a b x => some (r, 0x0B, d, a, b, x)
  | .rkSqrt r d a b x => some (r, 0x0C, d, a, b, x)
  | .rkRsqrt r d a b x => some (r, 0x0D, d, a, b, x)
  | .rkSign r d a b x => some (r, 0x0E, d, a, b, x)
  | .rkSelgt r d a b x => some (r, 0x0F, d, a, b, x)
  | _ => none

/-- What the refresh of a block leaves (R236, R238): where it converged, the root and the header with its attempt, iterations, damping and step;
else the mark for the diagonal program with the attempts that it took, the step, and both counts of fallbacks. -/
def refreshed (t : State) (r : Nat) (x : GroupRec) (b step tries : Nat) : Option (List (List W32) × Nat × W32 × Nat) → State
  | some (p, k, eps, n) =>
    let u := writeMem (writeMem t (rootAddr x b) (matBytes p)) (hdrAddr x b) (leBytes 1 1 ++ leBytes 1 n ++ leBytes 2 k ++ leBytes 4 eps.toNat ++ leBytes 4 step)
    { u with rphase := { u.rphase with refreshes := u.rphase.refreshes + 1 } }
  | none =>
    let h := hdrAddr x b
    let v := writeMem (writeMem t h (leBytes 1 2 ++ leBytes 1 tries)) (h + 8) (leBytes 4 step)
    let u := rakeCount (writeMem v (h + 12) (leBytes 4 ((readLE t (h + 12) 4 + 1) % 2 ^ 32))) r 0x38 1
    { u with rphase := { u.rphase with refreshes := u.rphase.refreshes + 1, fallbacks := u.rphase.fallbacks + 1 } }

/-! ### Commands of the rings -/

/-- The ring that a row of Table 14-7 stands on, and the command that its slots hold. -/
def cmdRow : Instr → Option (CtxId × Cmd)
  | .sessionOpen c h p => some (c, { op := 0x01, hdr := h, par := p })
  | .sessionClose c h p => some (c, { op := 0x02, hdr := h, par := p })
  | .ctxCreate c h p => some (c, { op := 0x10, hdr := h, par := p })
  | .ctxDestroy c h p => some (c, { op := 0x11, hdr := h, par := p })
  | .ctxConfig c h p => some (c, { op := 0x12, hdr := h, par := p })
  | .stageLoad c h p x => some (c, { op := 0x20, hdr := h, par := p, img := some x })
  | .stageDrain c h p => some (c, { op := 0x21, hdr := h, par := p })
  | .trayConfig c h p => some (c, { op := 0x30, hdr := h, par := p })
  | .trayRelease c h p => some (c, { op := 0x30, hdr := h, par := withByte p 2 0 })
  | .trayFlush c h p => some (c, { op := 0x31, hdr := h, par := p })
  | .sweepRun c h p => some (c, { op := 0x40, hdr := h, par := p })
  | .sweepRunStop c h p => some (c, { op := 0x40, hdr := h, par := withByte p 1 1 })
  | .seqJoin c h p => some (c, { op := 0x41, hdr := h, par := p })
  | .seqLeave c h p => some (c, { op := 0x42, hdr := h, par := p })
  | .rakeProgram c h p => some (c, { op := 0x50, hdr := h, par := p })
  | .rakeGroup c h p => some (c, { op := 0x51, hdr := h, par := p })
  | .pegAlloc c h p => some (c, { op := 0x60, hdr := h, par := p })
  | .pegFree c h p => some (c, { op := 0x60, hdr := h, par := withByte p 0 1 })
  | .pegReset c h p => some (c, { op := 0x60, hdr := h, par := withByte p 0 2 })
  | .pegSignal c h p => some (c, { op := 0x61, hdr := h, par := p })
  | .pegWait c h p => some (c, { op := 0x62, hdr := h, par := p })
  | .pegDump c h p => some (c, { op := 0x63, hdr := h, par := p })
  | .windowOpen c h p => some (c, { op := 0x70, hdr := h, par := p })
  | .windowClose c h p => some (c, { op := 0x71, hdr := h, par := p })
  | .routeSet c h p => some (c, { op := 0x72, hdr := h, par := p })
  | .harvest c h p => some (c, { op := 0x80, hdr := h, par := p })
  | .restore c h p x => some (c, { op := 0x81, hdr := h, par := p, reads := x })
  | .powerSet c h p => some (c, { op := 0x90, hdr := h, par := p })
  | .selftest c h p => some (c, { op := 0xA0, hdr := h, par := p })
  | .debugRead c h p => some (c, { op := 0xB0, hdr := h, par := p })
  | .attest c h p => some (c, { op := 0xC0, hdr := h, par := p })
  | _ => none

/-- The turn of a ring's next command has come (R336 to R338, R433): Dister reads the ring, the tail covers the command, and a completion
record is free; no unlisted opcode stands before it. -/
def MayRead (a : State) (c : Nat) (k : Cmd) : Prop :=
  readsRing a c = true ∧ ringRoom (a.ctx c) k.hdr.nparam = true ∧ headUnknown (a.ctx c) = none

/-- The command as it is accepted (R337): with its ASEQ, its period number (R360), and the status of a check that it fails. -/
def acceptedCmd (a : State) (c : Nat) (k : Cmd) : Cmd :=
  { k with
    aseq := (a.ctx c).aseq, period := if bitsAt k.hdr.flags 2 1 = 1 then some (a.ctx c).periodNo else none
    why := if headerStatus a c k ≠ stOK then some (headerStatus a c k) else if periodBad (a.ctx c) k then some stBADPARAM else none }

/-- The command as it starts at once: with its ASEQ (R337), its period number (R360), and its time of start. -/
def startedCmd (a : State) (c : Nat) (k : Cmd) : Cmd :=
  { k with aseq := (a.ctx c).aseq, why := none, period := if bitsAt k.hdr.flags 2 1 = 1 then some (a.ctx c).periodNo else none
           started := true, at0 := a.now }

/-- The block as a command that started at once finds it: accepted and begun, both in the journal (R434). -/
def startPoint (a : State) (c : Nat) (k : Cmd) : State :=
  modCmd (jAppend (acceptCmd a c k) { type := 0x02, ctx := c, seq := (a.ctx c).aseq, cmdid := k.hdr.cmdid, op := k.op }) c (a.ctx c).aseq
    fun k => { k with started := true, at0 := a.now }

/-- In `s`, the command of row `i` passes every check of R337 on a ring with no other command, so that it starts as soon as it is read: `t` is the block, and `k`
the command, at its start. -/
def Starts (i : Instr) (s t : State) (c : Nat) (k : Cmd) : Prop :=
  ∃ (a : State) (x : CtxId) (r : Cmd), Meets s a ∧ cmdRow i = some (x, r) ∧ x.val = c ∧ MayRead a c r ∧ (a.ctx c).cmds = [] ∧ (a.ctx c).badOps = []
    ∧ headerStatus a c r = stOK ∧ periodBad (a.ctx c) r = false ∧ sweepHeld (a.ctx c) r = false ∧ k = startedCmd a c r ∧ t = startPoint a c r

/-- The command settles DONE with ST_OK and a RESULT, and the ring goes on. -/
def settled (c : Nat) (k : Cmd) (result : Nat) (t : State) : State := ringStarts c 1 (settle t c k.aseq dDONE stOK result)

/-- The end of a RESTORE that leaves `t` (R403): where BADLIST has room, the reasons `es` go there first, and a place that refuses them settles the
command with that status and leaves `s`. -/
def listed (s : State) (c : Nat) (k : Cmd) (t : State) (hseq : Nat) (es : List (Nat × Nat × Nat)) (f : State → State) : State :=
  if k.fld 0x18 4 = 0 then f t
  else match putDest t c c (k.fld 0x10 8) (badList (k.fld 0x18 4) hseq es) false with
    | .error st => refuse s c k.aseq st
    | .ok u => f u

/-- What a RESTORE leaves once it has tried the manifests of its store (R401 to R403): `rd` reads a generation, `first` and `again` are its two
readings, `bad` the reasons of the manifests that failed, and last the slot, HSEQ and STEP of the one that passed. -/
def restored (s : State) (c : Nat) (k : Cmd) (p : Plan) (rank : Nat) (rd : Nat → Nat → Nat → List Byte)
    (first again : Nat → Nat → Nat → Except Nat (List Byte)) (bad : List (Nat × Nat × Nat)) : Option (Nat × Nat × Nat) → State
  | none => listed s c k s 0 bad fun t => refuse t c k.aseq stSTEP
  | some (g, hseq, step) =>
    let s1 := loadShards s p rank (rd g)
    let gs := countMismatches s1 p step
    let bs := bedMismatches s1 p rank step
    let all := (gs ++ bs.map fun e => e.2.2).eraseDups
    if all ≠ [] ∧ bitsAt (k.fld 0x0A 1) 0 1 ≠ 1 then listed s c k s hseq (bad ++ all.map fun n => (hseq, n, 0x20)) fun t => refuse t c k.aseq stSTEP
    else match loadBroken s p rank (first g) (again g) with
      | some (u, st) => listed s c k u hseq bad fun t => refuse t c k.aseq st
      | none => listed s c k (holdGroups (adoptCounts s1 step gs bs)) hseq bad fun t =>
          settle (t.modCtx c fun x => { x with lastStep := some step, restored := some step }) c k.aseq dDONE stOK step

/-! ### SPDM and the console -/

/-- The link of an SPDM request, and the state of the connection that the request needs (R457). -/
def spdmRow : Instr → Option (Fin 9 × Nat)
  | .getVersion l => some (l, 0)
  | .getCapabilities l => some (l, 1)
  | .negotiateAlgorithms l _ => some (l, 2)
  | .getDigests l => some (l, 3)
  | .getCertificate l _ => some (l, 3)
  | .challenge l _ => some (l, 3)
  | .getMeasurements l _ => some (l, 3)
  | .keyExchange l _ _ => some (l, 3)
  | .finish l _ => some (l, 4)
  | .keyUpdate l => some (l, 5)
  | .heartbeat l => some (l, 5)
  | .endSession l => some (l, 5)
  | .setCertificate l _ _ _ => some (l, 5)
  | _ => none

/-- A console command that waits for Dister (R470). -/
def consoleRow : Instr → Bool
  | .help => true
  | .test _ _ _ _ => true
  | .testAll => true
  | .log _ => true
  | .pegdump _ => true
  | .consoleRead _ _ => true
  | .baud _ => true
  | .unlock => true
  | .lock => true
  | .resetWarm _ => true
  | .resetCold _ => true
  | .rma => true
  | _ => false

end Sys2Proof
end

