-- ==== Sys2Proof/Certificates/Slice0/Obligations.lean ====
section
/-! DEFINITION. The statements for the provers. `Meets s a` says that the part is on and that `a` is what its own progress makes of `s`
before the command, and what a command does is stated over `a`. -/

open Sys2Proof Sys2Proof.Machine

/-! ### The queue, power and boot -/

/-- Tier 1. First in, first out: a step runs the command at the front of the queue on the state with the queue's rest. An empty queue: a
part that is on goes on by itself and its timestamp counter moves on by one nanosecond, and a part without power keeps its state. The
model's choice (DESIGN CHOICE, log 1): the table has no row for the passing of time. -/
def Obligations.StepRunsQueue : Prop :=
  (∀ (c : Instr) (rest : List Instr) (s : State), s.pending = c :: rest → step s = exec c { s with pending := rest })
  ∧ (∀ s : State, s.pending = [] →
    (powered s = true → step s = .next { (advance s) with now := (advance s).now + 1 }) ∧ (powered s = false → step s = .next s))

/-- Tier 1. The state after reset: no command waits, the part has no power, both memories list nothing and the part's own is canonical, READY is
0, SALT_NODE is 0xFFFF, the target of the core rail is 750 mV, and no core, rake, context or tray is in use. The invariant of `UnpoweredStepKeeps` holds after
reset. -/
def Obligations.ResetState : Prop :=
  (State.reset.pending = [] ∧ powered State.reset = false ∧ Memory.wf State.reset.mem = true ∧ State.reset.mem = [] ∧ State.reset.hostMem = []
    ∧ State.reset.cxl.ready = false ∧ State.reset.salt.node = 0xFFFF ∧ State.reset.trellis.vtarget = 750
    ∧ (∀ n, (State.reset.core n).mode = .idle ∧ (State.reset.core n).fault.valid = false)
    ∧ (∀ r, (State.reset.rake r).halted = false ∧ (State.reset.rake r).queue = [])
    ∧ (∀ c, (State.reset.ctx c).live = false) ∧ (∀ n, (State.reset.tray n).kind = 0))
  ∧ (Unpowered State.reset)

/-- Tier 2. Without power, or after the hardware trip, nothing but an edge of PWROK has an effect (R418, R493, R499; log 2). A rising edge
of PWROK (R418): it has no effect while PWROK is high; else the part starts cold. With flash that does not answer, with no image that
qualifies, with LPDDR5X that does not train, or with a bad array it stops at the phase of Table 17-6; else the cold start completes, with
memory cleared and every context and packet gone. A secondary trains its boot link first (R422). A falling edge of PWROK: nothing of the part survives it, and what lies outside the part
does. -/
def Obligations.PowerEdges : Prop :=
  (∀ (c : Instr) (s : State), powered s = false → isPowerEdge c = false → exec c s = .next s)
  ∧ (∀ (i : StartInputs) (s : State),
    let b0 := ((powerOff s).modFaults fun f => { f with lastCause := 0 }).modStart fun t =>
      { t with inputs := i, pos := i.pos, bootsrc := i.bootsrc, uartv := i.uartv, pwrok := true
               parts := if i.bootsrc then t.parts else i.parts, mesh := i.bootsrc }
    let s0 := if i.bootsrc then bootLink b0 else b0
    (s.start.pwrok = true → exec (.powerOn i) s = .next s)
    ∧ (s.start.pwrok = false → i.bootsrc = false → i.flashAnswers = false → exec (.powerOn i) s = .next (stopStart b0 4 stHWFAULT false false))
    ∧ (s.start.pwrok = false → i.bootsrc = true → i.meshAnswers = false → exec (.powerOn i) s = .next (meshBegin b0))
    ∧ (s.start.pwrok = false → (i.bootsrc = false ∧ i.flashAnswers = true ∨ i.bootsrc = true ∧ i.meshAnswers = true) →
        (chooseImage i = none → exec (.powerOn i) s = .next (stopStart s0 4 stAUTH true false))
        ∧ (∀ slot r, chooseImage i = some (slot, r) →
            let s1 := s0.modStart fun t => { t with
              slot := slot, imgver := r.version, nocfg := (configOf i).isNone, selfrepair := !repairOk i, dister := true
              tVerified := i.tVerified, tMemup := i.tMemup, tReady := i.tReady }
            (i.memTrains = false → exec (.powerOn i) s = .next (stopStart s1 6 stHWFAULT false true))
            ∧ (i.memTrains = true → i.badArray = true → exec (.powerOn i) s = .next (stopStart (coldClear s1 0) 8 stHWFAULT false true))
            ∧ (i.memTrains = true → i.badArray = false → exec (.powerOn i) s = .next (coldFinish (coldClear s1 0) r)))))
  ∧ (∀ s : State, ∃ t, exec .pwrokFall s = .next t ∧ powered t = false ∧ t.mem = [] ∧ t.cores = [] ∧ t.ctxs = [] ∧ t.trays = [] ∧ t.pegs = []
    ∧ t.faults = {} ∧ t.cxl.ready = false ∧ t.hostMem = s.hostMem ∧ t.now = s.now ∧ t.pending = s.pending)

/-- Tier 3. A part without power stays so: every step from it leaves every part of the state but the queue as it is, whatever the commands,
until an edge of PWROK comes to the front. -/
def Obligations.UnpoweredStepKeeps : Prop :=
  ∀ s t : State, Unpowered s → step s = .next t → Unpowered t ∧ { t with pending := [] } = { s with pending := [] }

/-- Tier 2. The resets that preserve LPDDR5X (R446, R493, R494): BOARD_RESET with the rails held, WATCHDOG and FATAL_FAULT_RESET begin a
start with causes 1, 4 and 5 from a state that keeps LPDDR5X and the journal; BOARD_RESET without the rails stops, because the start that
follows is undefined. An entry of the journal stands in the log at the index of its JSEQ, with its timestamp (R430), and a log that is
kept is kept by these resets. HARDWARE_TRIP (R499): every rake halts, the core rail's target falls to 550 mV, and from then on only power has an
effect. -/
def Obligations.ResetsAndTrip : Prop :=
  (∀ (i : StartInputs) (s a : State), Meets s a → powered a = true →
    exec (.boardReset true i) s = .next (beginStart (logicReset a) 1 i)
    ∧ exec (.boardReset false i) s = .fault .undefinedStart
    ∧ exec (.watchdog i) s = .next (beginStart (logicReset a) 4 i)
    ∧ exec (.fatalFaultReset i) s = .next (beginStart (logicReset a) 5 i)
    ∧ (logicReset a).faults.jrn = a.faults.jrn ∧ (logicReset a).trays = a.trays ∧ (logicReset a).cores = [] ∧ (logicReset a).cxl.ready = false
    ∧ (∀ k, k < 0x00C000000000 → tget 0 (logicReset a).mem k = tget 0 a.mem k))
  ∧ (∀ s a : State, Meets s a → powered a = true →
    ∃ t, exec .hardwareTrip s = .next t ∧ powered t = false ∧ t.start.tripped = true ∧ t.trellis.vtarget = 550 ∧ t.trellis.vacked = 550
      ∧ ∀ e ∈ t.rakes, e.2.halted = true)
  ∧ (∀ (s : State) (e : JEntry), logEntry (jAppend s e) (s.faults.jnext % 950272) = some { e with jseq := s.faults.jnext, ts := s.now }.bytes
    ∧ ∀ i, logEntry (logicReset s) i = logEntry s i)

/-- Tier 2. Boot over the board mesh (R415, R421, R422). BOOT_REQ at position 0 answers with the parts that its mask names, part 2 and 3 of
the asking die; BOOT_DATA of a waiting secondary keeps its piece; BOOT_END with a bad status, or with a digest or a length that the pieces do not have,
drops the part, one with a good part keeps it, and the last one starts the part; TRAIN_PUT collects a training record, and BOOT_END closes
it at position 0; BOOT_RETRY asks again ten times and then waits; MESH_BOOT_RESTART begins anew. -/
def Obligations.MeshBoot : Prop :=
  ∀ s a : State, Meets s a →
    (∀ (p : PortId) (die pos mask : Nat), a.start.pos = 0 → a.start.dister = true → p.val ≤ 6 → (a.port p.val).version = 2 →
      2 ≤ (a.port p.val).state → pos = p.val + 1 →
      exec (.bootReq p die pos mask) s = .next ([1, 2, 3, 4].foldl (fun s k =>
        if mask.testBit k then bootPart s p.val 0x02 k stOK
          (((s.start.parts.find? fun e => e.1 == k && e.2.1 == (if k = 2 ∨ k = 3 then die else 0)).map (·.2.2)).getD [])
        else s) a))
    ∧ (∀ (p : PortId) (part off : Nat) (b : List Byte), meshWaiting a = true → p.val = 7 - a.start.pos → (a.port p.val).version = 2 →
      exec (.bootData p part off b) s = .next (a.modStart fun t =>
        { t with meshPart := part, meshData := placeAt (if t.meshPart = part then t.meshData else []) off b }))
    ∧ (∀ (p : PortId) (part len st : Nat) (d : List Byte), meshWaiting a = true → p.val = 7 - a.start.pos → (a.port p.val).version = 2 →
      let data := if a.start.meshPart = part then a.start.meshData else []
      let kept := a.modStart fun t => { t with meshDone := ninsert t.meshDone part, meshPart := 0, meshData := [] }
      let good : Prop := st = stOK ∧ (len = 0 ∧ part ≠ 1 ∨ len ≠ 0 ∧ len ≤ data.length ∧ shake256 (data.take len) 32 = d)
      (¬ good → exec (.bootEnd p part len d st) s = .next (a.modStart fun t => { t with meshPart := 0, meshData := [] }))
      ∧ (good → meshWanted kept ≠ 0 → exec (.bootEnd p part len d st) s = .next kept)
      ∧ (good → meshWanted kept = 0 → exec (.bootEnd p part len d st) s = .next (runStart kept)))
    ∧ (∀ (p : PortId) (part st die : Nat) (l : List Byte), a.start.pos = 0 → a.start.dister = true → a.start.bootsrc = false → p.val ≤ 6 →
      a.start.trainPut = some (die, l) →
      exec (.bootEnd p part l.length (shake256 l 32) st) s = .next (bootMsg ((keepTraining a die l).modStart fun t => { t with trainPut := none })
        p 0x03 3 0 (leBytes 8 l.length ++ shake256 l 32 ++ leBytes 2 stOK)))
    ∧ (∀ (p : PortId) (die : Nat) (b : List Byte), a.start.pos = 0 → a.start.dister = true → p.val ≤ 6 → (a.port p.val).version = 2 →
      2 ≤ (a.port p.val).state → a.start.trainPut = none →
      exec (.trainPut p die b) s = .next (a.modStart fun t => { t with trainPut := some (die, b) }))
    ∧ (meshWaiting a = true → a.start.waitmesh = false →
      (a.start.meshTries < 10 → exec .bootRetry s = .next (askParts
        (a.modStart fun t => { t with meshTries := t.meshTries + 1, meshPart := 0, meshData := [] }) (meshWanted a)))
      ∧ (10 ≤ a.start.meshTries → exec .bootRetry s = .next (a.modStart fun t => { t with waitmesh := true })))
    ∧ (meshWaiting a = true → a.start.waitmesh = true → exec .meshBootRestart s = .next (meshBegin a))

/-! ### Words of core programs -/

/-- Tier 3. The word of a well-formed program row spells that row again: no field of a word is dropped or read as another row's. -/
def Obligations.WordRoundTrip : Prop :=
  ∀ (i : Instr) (c : CoreId) (w : W128), i.wf = true → wordOf i = some (c, w) → instrOfWord c w = i

/-- Tier 1. Words written out from Tables 3-3, 3-4, 5-8, 6-3 and 13-8 spell their rows: an ASTAT of FP8 E4M3 from row 5 with 256 tokens and
one block, an AMUL of mode 4, a VADD, a GATE of the array on the movers, and an MKICK of mover 1. -/
def Obligations.WordSamples : Prop :=
  ∀ c : CoreId,
    instrOfWord c 0x03000000000000050001 = .astat c 0x030000000000000500
    ∧ instrOfWord c 0x0000010010000002 = .selMax c 0x00000100100000
    ∧ instrOfWord c 0x0000000000000040 = .vadd c 0
    ∧ instrOfWord c 0x0000000000008111 = .gate c 0x81
    ∧ instrOfWord c 0x00000035 = .mkick c 1 0
    ∧ instrOfWord c 0x000000FF = .nop c 0xFF

/-- Tier 2. ASTAT, ADRAIN and ALOAD at a waiting core, of rows and entries that read without error, and with no trap enabled. ASTAT loads the tile and revives every dead mark
(R55 to R57, R86); ADRAIN converts the entries and writes its full range (R67); ALOAD loads 256 columns of COUNT entries (R68). -/
def Obligations.ArrayLoadDrain : Prop :=
  ∀ (c : CoreId) (f : BitVec 120) (s a : State), Meets s a →
    (∀ w, w = mkWord 0x01 f → Accepts a c w → (viewOf a c).badOf (readRows w) = [] →
      let e := foundEngine a c w
      let cols := astatTile (viewOf a c) w
      exec (.astat c f) s = .next (executed a c w ((e.setBuf (wf w 8 1)
        { full := true, fmt := wf w 10 5, tokens := wf w 48 9, blocks := wf w 57 4, cols := cols, dead := []
          elem := (viewOf a c).bytes (wf w 16 16) 0 (256 * vecElemBytes (wf w 10 5))
          scale := if fdScaled (wf w 10 5) then (viewOf a c).bytes (wf w 32 16) 0 (256 * vecScaleBytes (wf w 10 5)) else [] }).count 0x0238
          (cols.foldl (fun n k => n + zeros k) 0)) []))
    ∧ (∀ w, w = mkWord 0x03 f → Accepts a c w → (viewOf a c).badOf (readRows w) = [] →
      (∀ r ∈ writeRows w, r ∉ heldRows a c) → (foundEngine a c w).trap = 0 →
      accBad (a.core c).run.eng.acc (wf w 8 2 * 512 + wf w 10 9) (wf w 19 10) = false →
        ∃ g wr, runAdrain (viewOf a c) (foundEngine a c w) w (wordEntry a c w).seed = .ok g wr ∧ exec (.adrain c f) s = .next (executed a c w g wr)
        ∧ g.acc = (a.core c).run.eng.acc ∧ (∀ x ∈ wr, ∃ j < wf w 19 10 / depthOf (classOf (fdCode (convOf (wf w 64 16)).tfmt)),
            x.1 = (wf w 32 16 + j * tileRows (convOf (wf w 64 16)).tfmt 256) * 512
            ∨ x.1 = (wf w 48 16 + j * tileScaleRows (convOf (wf w 64 16)).tfmt 256) * 512))
    ∧ (∀ w, w = mkWord 0x04 f → Accepts a c w → (viewOf a c).badOf (readRows w) = [] →
      let words (j : Nat) : List Nat := unpack32 ((viewOf a c).bytes (wf w 32 16 + j * 64) 0 32768)
      let column (j i : Nat) : Tab W32 := (List.range 256).foldl (fun m t => tput 0 m t (BitVec.ofNat 32 ((words j).getD (t * 32 + i) 0))) []
      let acc := (List.range (wf w 19 10 / 32)).foldl (fun acc j => (List.range 32).foldl (fun acc i =>
        tput {} acc (wf w 8 2 * 512 + wf w 10 9 + j * 32 + i) { int := wf w 29 1 == 1, v := column j i }) acc) (foundEngine a c w).acc
      exec (.aload c f) s = .next (executed a c w { foundEngine a c w with acc := acc } []))

/-- Tier 2. AMUL and its comparison rows DIST_SQ, DIST_ABS, DIST_MAX, SEL_MAX, SEL_MIN, FOLD_MAX and FOLD_MIN (R63 to R65, R79 to R87) from
rows that read without error, and with no trapped flag: the buffer's columns meet the COUNT vectors, and the accumulator, the dead marks
and the pass counter advance. From a stream whose queue is empty, the word waits (R61, R62). -/
def Obligations.ArrayMultiply : Prop :=
  ∀ (i : Instr) (c : CoreId) (w : W128) (s a : State), wordOf i = some (c, w) → wOp w = 0x02 → Meets s a → Accepts a c w →
    clash (queued a c w (a.core c).run) w = false →
    let e := foundEngine a c w
    let out := amulApply e w (localVectors (viewOf a c) w (wf w 48 16) (wf w 64 16) (wf w 28 10))
    (wf w 16 1 = 1 → localGood (viewOf a c) w (wf w 48 16) (wf w 64 16) (wf w 28 10) = (wf w 28 10, []) → out.2 &&& e.trap = 0 →
      exec i s = .next (executed a c w (flagged out.1 out.2 0) []))
    ∧ (wf w 16 1 = 0 → e.intake = [] → exec i s = .next (dispatched a c w))

/-- Tier 2. FRES, FMUL and FDRAIN at a waiting core, of rows and entries that read without error, and with no trap enabled (R96 to R98). -/
def Obligations.FurrowWords : Prop :=
  ∀ (c : CoreId) (f : BitVec 120) (s a : State), Meets s a →
    (∀ w, w = mkWord 0x21 f → Accepts a c w → (viewOf a c).badOf (readRows w) = [] →
      ∃ g, runFres (viewOf a c) (foundEngine a c w) w = .ok g [] ∧ exec (.fres c f) s = .next (executed a c w g [])
      ∧ g.rvec = wf w 48 5 ∧ (g.rbuf (wf w 8 1)).full = true ∧ (g.rbuf (wf w 8 1)).fmt = wf w 10 5 ∧ (g.rbuf (wf w 8 1)).tokens = wf w 48 5
      ∧ (g.rbuf (wf w 8 1)).blocks = wf w 53 4 ∧ g.facc = (a.core c).run.eng.facc ∧ g.flags = (a.core c).run.eng.flags)
    ∧ (∀ w, w = mkWord 0x22 f → Accepts a c w → clash (queued a c w (a.core c).run) w = false →
      let e := foundEngine a c w
      let out := fmulApply e w (localVectors (viewOf a c) w (wf w 48 16) (wf w 64 16) (wf w 27 11))
      (wf w 15 2 = 2 → localGood (viewOf a c) w (wf w 48 16) (wf w 64 16) (wf w 27 11) = (wf w 27 11, []) → out.2 &&& e.trap = 0 →
        exec (.fmul c f) s = .next (executed a c w (flagged out.1 out.2 0) []))
      ∧ (wf w 15 2 = 0 → e.intake = [] → exec (.fmul c f) s = .next (dispatched a c w))
      ∧ (wf w 15 2 = 1 → e.direct = [] → exec (.fmul c f) s = .next (dispatched a c w)))
    ∧ (∀ w, w = mkWord 0x23 f → Accepts a c w → (viewOf a c).badOf (readRows w) = [] → (foundEngine a c w).trap = 0 →
      accBad (a.core c).run.eng.facc (wf w 8 10) (wf w 18 11) = false →
      ∃ g wr, runFdrain (viewOf a c) (foundEngine a c w) w (wordEntry a c w).seed (a.core c).run.eng.rvec = .ok g wr
      ∧ exec (.fdrain c f) s = .next (executed a c w g wr) ∧ g.facc = (a.core c).run.eng.facc ∧ g.vreg = (a.core c).run.eng.vreg)

/-- Tier 2. The elementwise words with a register result (R102 to R105): VADD to VNEG, VIADD to VSRA, VFTOI, VITOF, VDIV, VSQRT, VRCP,
VRSQRT and VEXP2 to VERF. Every active lane of VD takes the operation's value, no other lane changes, the flags of the active lanes are set
and, for VFTOI, FMT_SATCNT advances; with a trapped flag the instruction writes nothing (R52), as `ProgramFaults` says. VSEL selects by PM
in every lane; VCMPEQ, VCMPLT and VCMPLE write the active lanes of a mask register, and a NaN compares false (R104, R105). -/
def Obligations.VectorLanes : Prop :=
  (∀ (i : Instr) (c : CoreId) (w : W128) (s a : State), wordOf i = some (c, w) → Meets s a → Accepts a c w →
    vGroup (wOp w) ∈ [VGroup.arith, .integer, .cvt, .root, .trans] →
    let e := (foundEngine a c w).count 0x02C0 1
    let outs := (activeLanes e w).map fun l =>
      (l, vecLane (wOp w) (vlane e (wf w 13 5) l) (operandB e w l) (vlane e (wf w 23 5) l))
    let fl := outs.foldl (fun f o => f ||| o.2.2) 0
    let sat := if wOp w = 0x59 then (outs.filter (fun o => o.2.2 &&& fCONVSAT != 0)).length else 0
    fl &&& e.trap = 0 → exec i s = .next (executed a c w (flagged (putLanes e (wf w 8 5) (outs.map fun o => (o.1, o.2.1))) fl sat) []))
  ∧ (∀ (i : Instr) (c : CoreId) (w : W128) (s a : State), wordOf i = some (c, w) → Meets s a → Accepts a c w →
    let e := (foundEngine a c w).count 0x02C0 1
    (wOp w = 0x4B → exec i s = .next (executed a c w (flagged (putLanes e (wf w 8 5) ((List.range 512).map fun l =>
      (l, if mbit e (wf w 28 3) l then vlane e (wf w 13 5) l else operandB e w l))) 0 0) []))
    ∧ (vGroup (wOp w) = .cmp →
      let isNan (l : Nat) : Bool := fvNan (ofF32 (vlane e (wf w 13 5) l)) || fvNan (ofF32 (operandB e w l))
      let lt (l : Nat) : Bool := gtF (ofF32 (operandB e w l)) (ofF32 (vlane e (wf w 13 5) l))
      let eq (l : Nat) : Bool := eqF (ofF32 (vlane e (wf w 13 5) l)) (ofF32 (operandB e w l))
      let fl : BitVec 7 := (activeLanes e w).foldl (fun f l => f ||| if isNan l then fNANIN else 0) 0
      fl &&& e.trap = 0 → exec i s = .next (executed a c w (flagged { e with mreg := (activeLanes e w).foldl (fun m l =>
        tput false m (wf w 8 3 * 512 + l) (!isNan l && if wOp w = 0x48 then eq l else if wOp w = 0x49 then lt l && !eq l else lt l || eq l)) e.mreg }
          fl 0) [])))

/-- Tier 2. VRSUM, VRMAX, VRMIN, VRARGMAX and VRARGMIN (R106), VLD, VST (R107) and VGATHER (R108), where rows read without error, no flag
traps and, for VGATHER, every active lane's index lies in the table and the window. -/
def Obligations.VectorReduceMemory : Prop :=
  ∀ (i : Instr) (c : CoreId) (w : W128) (s a : State), wordOf i = some (c, w) → Meets s a → Accepts a c w →
    let e := (foundEngine a c w).count 0x02C0 1
    let v := viewOf a c
    (vGroup (wOp w) = .red →
      let n := 2 ^ wf w 32 4
      let groups := (List.range (512 / n)).map fun k => groupResult (wOp w) (wf w 32 4) ((Config.freeValue (a.freeCtr + k)).setWidth 32)
        ((countFrom (k * n) n).map fun l => (laneActive e w l, vlane e (wf w 13 5) l))
      let fl := groups.foldl (fun f r => f ||| r.2) 0
      fl &&& e.trap = 0 → exec i s = .next (executed a c w (flagged (putLanes e (wf w 8 5) ((activeLanes e w).map fun l =>
        (l, (groups.getD (if wf w 36 1 = 1 then l / n else l) (0, 0)).1))) fl 0) []))
    ∧ (vGroup (wOp w) = .ld → v.badOf (readRows w) = [] → e.trap = 0 → ∃ g, runVld v e w = .ok g [] ∧ exec i s = .next (executed a c w g [])
        ∧ g.mreg = e.mreg ∧ g.acc = e.acc)
    ∧ (vGroup (wOp w) = .st → a.badRows = [] → e.trap = 0 → ∃ g wr, runVst v e w (wordEntry a c w).seed = .ok g wr ∧ exec i s = .next (executed a c w g wr)
        ∧ g.vreg = e.vreg ∧ g.mreg = e.mreg ∧ wr.head?.map (·.1) = some (wf w 48 16 * 512 + wf w 85 2 * vecPlane (fdCode (convOf (wf w 32 16)).tfmt)))
    ∧ (vGroup (wOp w) = .gath →
      let idx (l : Nat) : Int := (vlane e (wf w 13 5) l).toInt
      (∀ l ∈ activeLanes e w, 0 ≤ idx l ∧ idx l < (wf w 64 16 * 128 : Nat) ∧ v.base + (wf w 48 16 + (idx l).toNat / 128) < 49152 ∧ wf w 48 16 + (idx l).toNat / 128 < v.count
        ∧ v.isBad (wf w 48 16 + (idx l).toNat / 128) = false) →
      exec i s = .next (executed a c w (flagged (putLanes e (wf w 8 5) ((activeLanes e w).map fun l =>
        (l, BitVec.ofNat 32 (leNat (v.bytes (wf w 48 16) (4 * (idx l).toNat) 4))))) 0 0) []))

/-- Tier 2. What an executed unit word, whose rows lie in the scratchpad, leaves unchanged: every other core, and of its own core all but the run; every byte of memory
outside the spans that the word wrote; contexts, rakes, trays, pegs, the port, the fabric, host memory, faults and the queue of commands. -/
def Obligations.WordFrame : Prop :=
  ∀ (a : State) (n : Nat) (w : W128) (g : Engine) (wr : List (Nat × List Byte)), (a.core n).mode = .running →
    (∀ r ∈ readRows w, (a.core n).run.rowBase + r < 49152) →
    let t := executed a n w g wr
    (∀ m, m ≠ n → t.core m = a.core m) ∧ (t.core n).mode = .running ∧ (t.core n).ctx = (a.core n).ctx ∧ (t.core n).fault = (a.core n).fault
    ∧ (t.core n).run.eng = g ∧ (t.core n).run.progPc = (a.core n).run.progPc + 16 ∧ (t.core n).run.seeds = (a.core n).run.seeds
    ∧ (t.core n).run.rowBase = (a.core n).run.rowBase ∧ (t.core n).run.rowCount = (a.core n).run.rowCount
    ∧ (t.core n).run.peg = (a.core n).run.peg ∧ (t.core n).run.done = (a.core n).run.done
    ∧ (∀ j, (∀ x ∈ wr, j < rowAddr n (a.core n).run.rowBase + x.1 ∨ rowAddr n (a.core n).run.rowBase + x.1 + x.2.length ≤ j) →
        tget 0 t.mem j = tget 0 a.mem j)
    ∧ t.ctxs = a.ctxs ∧ t.rakes = a.rakes ∧ t.trays = a.trays ∧ t.pegs = a.pegs ∧ t.cxl = a.cxl ∧ t.salt = a.salt ∧ t.hostMem = a.hostMem
    ∧ t.faults = a.faults ∧ t.pending = a.pending ∧ t.units = a.units

/-- Tier 2. Faults at issue (Table 6-9, R69, R70, R99, R100, R110, R118, R119): a word that a check refuses, the reserved OP values among
them, makes its core a program fault with the cause and FAULT_DATA of the check, and at a core that the fault stops nothing else happens.
So do a fetch address outside the program's memory (R126), with CAUSE 0x0A, and a poisoned word, which is uncorrectable data (R442). What a
program fault records (R128): FAULT_STATUS, FAULT_PC, FAULT_WORD and FAULT_DATA of its core; its context is torn down once only (R129), and
context 0 never. A trapped flag (R52): the elementwise word changes no register and no mask, and the core records a program fault of CAUSE
0x02 whose FAULT_DATA is the word's flags. The issue unit of the model then goes on, which has no effect where the teardown stopped the
core. -/
def Obligations.ProgramFaults : Prop :=
  (∀ (i : Instr) (c : CoreId) (w : W128) (s a : State), wordOf i = some (c, w) → Meets s a →
    (∀ cause data, Waiting a c → wOp w ≠ 0x11 → issueFault (a.core c).run w = some (cause, data) →
      let pc := (a.core c).run.progPc
      let t := programFault ((noteRead a pc 16).modRun c fun r => { r with prog := [(pc, w)], progPc := pc + 16 }) c cause
        (if cause = 9 ∨ cause = 0x0B then 0 else unitOf w) pc w data
      (t.core c).mode ≠ .running → exec i s = .next t)
    ∧ ((a.core c).mode = .running → (a.core c).run.ended = false → (a.core c).run.prog = [] → fetchOk a c (a.core c).run.progPc = false →
      let t := programFault a c 0x0A 0 (a.core c).run.progPc 0 (a.core c).run.progPc
      (t.core c).mode ≠ .running → exec i s = .next t)
    ∧ (∀ pc, (a.core c).mode = .running → (a.core c).run.ended = false → (a.core c).run.prog = [] → (a.core c).run.progPc = pc →
      fetchOk a c pc = true → isPoisoned a pc 16 = true →
      let t := unitUncorrRec (noteBad a pc 16) c pc
      (t.core c).mode ≠ .running → exec i s = .next t)
    ∧ ((a.core c).mode ≠ .running → exec i s = .next a))
  ∧ (∀ (s : State) (n cause unit pc data : Nat) (w : W128), (s.core n).mode = .running →
    ((recordFault s n cause unit pc w data).core n).fault
      = { cause := cause, unit := unit, multi := false, ctx := (s.core n).ctx, valid := true, pc := pc, word := w, data := BitVec.ofNat 64 data }
    ∧ (∀ m, m ≠ n → (recordFault s n cause unit pc w data).core m = s.core m)
    ∧ ((s.ctx (s.core n).ctx).faulted = true ∨ (s.core n).ctx = 0 →
        programFault s n cause unit pc w data = recordFault s n cause unit pc w data))
  ∧ (∀ (i : Instr) (c : CoreId) (w : W128) (s a : State), wordOf i = some (c, w) → Meets s a → Accepts a c w →
    vGroup (wOp w) ∈ [VGroup.arith, .integer, .cvt, .root, .trans] →
    let e := (foundEngine a c w).count 0x02C0 1
    let fl := (activeLanes e w).foldl (fun f l => f |||
      (vecLane (wOp w) (vlane e (wf w 13 5) l) (operandB e w l) (vlane e (wf w 23 5) l)).2) 0
    fl &&& e.trap ≠ 0 → exec i s = .next (pumpCore c 70 (programFault ((dispatched a c w).modEng c fun _ => e) c 0x02 7 (a.core c).run.progPc w fl.toNat)))

/-! ### Control, mover and peg words, and what a program's words meet later -/

/-- Tier 2. The control words at a waiting core: NOP has no other effect than its dispatch (R118), SEED sets or adds to a seed register
(R123), LOOP begins its body (R121), GATE enters the queue of its target, leaves it at once where its sources have completed and else waits
there (R119), and END ends the program's dispatch (R118). -/
def Obligations.ControlWords : Prop :=
  ∀ (c : CoreId) (f : BitVec 120) (s a : State), Meets s a → Waiting a c →
    (∀ w : W128, w = mkWord 0x10 0 → exec (.nop c w) s = .next (passed a c id))
    ∧ (∀ w, w = mkWord 0x13 f → wf w 13 51 = 0 → exec (.seed c f) s = .next (passed a c fun r => { r with
        seeds := tput 0 r.seeds (wf w 8 4) (if wf w 12 1 = 1 then tget 0 r.seeds (wf w 8 4) + BitVec.ofNat 64 (wf w 64 64)
          else BitVec.ofNat 64 (wf w 64 64)) }))
    ∧ (∀ w, w = mkWord 0x12 f → controlBad (a.core c).run w = false → exec (.loop c f) s = .next (passed a c fun r => { r with
        prog := [((a.core c).run.progPc, w)], pos := 1, hi := 1
        loops := [{ start := 1, body := wf w 8 8, count := wf w 16 16
                    strides := [32, 56, 80, 104].map fun lo => (wf w lo 8, wf w (lo + 8) 2, toSigned 14 (wf w (lo + 10) 14)) }] }))
    ∧ (∀ w, w = mkWord 0x11 f → controlBad (a.core c).run w = false →
        (gateMet (a.core c).run (gateNeeds (a.core c).run w) = true → exec (.gate c f) s = .next (passed a c id))
        ∧ (gateMet (a.core c).run (gateNeeds (a.core c).run w) = false → exec (.gate c f) s = .next (passed a c fun r => { r with
            q := [{ unit := wf w 8 4, word := w, pc := (a.core c).run.progPc, gate := some (gateNeeds (a.core c).run w) }] })))
    ∧ exec (.endW c 0) s = .next (passed a c fun r => { r with ended := true })

/-- Tier 2. MRING and MKICK at a waiting core (R294). MRING binds a free ring to its descriptors,
from descriptor 0 on where none of an earlier binding is in progress; MKICK releases descriptors, and waits in
the mover's count until they are complete; on a halted ring it completes at once (R300). -/
def Obligations.MoverWords : Prop :=
  ∀ (c : CoreId) (m : Fin 2) (f : BitVec 120) (s a : State), Meets s a →
    (∀ w, w = mkWord (mringOp m) f → Waiting a c → wf w 19 45 = 0 → 3 ≤ wf w 14 5 → wf w 14 5 ≤ 16 → wf w 64 64 % 64 = 0 →
      progMem a c (wf w 64 64) (64 * 2 ^ wf w 14 5) false = true →
      ((a.ring c m (wf w 8 2)).bound = false ∨ (a.ring c m (wf w 8 2)).halted = true
        ∨ ((a.ring c m (wf w 8 2)).live = [] ∧ (a.ring c m (wf w 8 2)).next = (a.ring c m (wf w 8 2)).released)) →
      exec (.mring c m f) s = .next ((passed a c (queued a c w)).modRun c fun r =>
        { (r.setMov m { (r.mov m) with rings := modAt (r.mov m).rings (wf w 8 2) fun _ =>
              { (a.ring c m (wf w 8 2)).anew with bound := true, base := wf w 64 64, log2n := wf w 14 5, retry := wf w 10 4 } }) with
          q := [{ wordEntry a c w with done := true }] }))
    ∧ (∀ x : Ring, x.live = [] → x.anew = {})
    ∧ (∀ w, w = mkWord (mkickOp m) f → Waiting a c → wf w 10 6 = 0 → wf w 32 96 = 0 → (a.ring c m (wf w 8 2)).bound = true →
      let x := a.ring c m (wf w 8 2)
      (x.halted = true → exec (.mkick c m f) s = .next ((passed a c (queued a c w)).modRun c fun r =>
        { r with q := [{ wordEntry a c w with done := true }] }))
      ∧ (x.halted = false → wf w 16 16 ≠ 0 → wf w 16 16 + (x.released - x.next) ≤ 2 ^ x.log2n →
        exec (.mkick c m f) s = .next ((passed a c (queued a c w)).modRun c fun r =>
          { (r.setMov m { (r.mov m) with rings := modAt (r.mov m).rings (wf w 8 2) fun y => { y with released := y.released + wf w 16 16 } }) with
            q := [{ wordEntry a c w with kick := some (wf w 8 2, x.released + wf w 16 16) }] })))

/-- Tier 2. The peg words at a waiting core whose checks pass (R254, R255). PSIG to a peg of this chip by VPID, PWAIT, PARRIVE, PBWAIT and
PRESET go to the peg's home unit, and the word is in progress until PEG_APPLY; PSIG to a host peg takes effect at once (R258), one to a
context of this node is tested and applied, or refused and recorded (R256), and one to another node goes out; PWAIT, PARRIVE with hold and
PBWAIT show as the peg unit's state. -/
def Obligations.PegWords : Prop :=
  ∀ (i : Instr) (c : CoreId) (w : W128) (s a : State), wordOf i = some (c, w) → Meets s a → Waiting a c →
    0x38 ≤ wOp w → wOp w ≤ 0x3C → pegBad a c w = 0 →
    let t := passed a c (queued a c w)
    let ctx := (a.core c).ctx
    let v := wf w 8 12
    let busy (f : PegUnit → PegUnit) : State := t.modRun c fun r => { r with peg := f r.peg, q := [{ wordEntry a c w with kick := some (16, 0) }] }
    let post (x : State) (v : Nat) (op : PegOp) : State :=
      { x with pegReqs := a.pegReqs ++ [{ core := c, ctx := ctx, vpid := v, phys := (vpidPhys a ctx v).getD 0, op := op }] }
    let fin (x : State) : State := x.modRun c fun r =>
      { r with peg := { r.peg with state := 0 }, q := modAt r.q 0 fun e => { e with done := true } }
    let node := wf w 64 16
    (wOp w = 0x38 → wf w 20 2 = 0 → exec i s = .next (post (busy id) v (.signal (wf w 32 32))))
    ∧ (wOp w = 0x38 → wf w 20 2 = 2 → exec i s = .next (fin (hostPegSignal t ctx v (wf w 32 32) (wf w 23 1 == 1))))
    ∧ (wOp w = 0x38 → wf w 20 2 = 1 → node = a.salt.node →
      let r := targetSignal t (wf w 80 12) v (wf w 32 32) (wf w 80 12 == ctx) ⟨node, 0, c⟩
      exec i s = .next (fin (if r.2 = stOK then r.1 else psigRefused r.1 c r.2 node v)))
    ∧ (wOp w = 0x38 → wf w 20 2 = 1 → node ≠ a.salt.node →
      let r := sendReq t { mtype := 4, dst := node, addr := v, arg := wf w 32 32, ctx := wf w 80 12, ukind := 0, unit := c } (.psig c) 1
      (r.2 = .sent → exec i s = .next (fin r.1)) ∧ (∀ st, r.2 = .failed st → exec i s = .next (fin (psigRefused r.1 c st node v))))
    ∧ (wOp w = 0x39 → exec i s = .next (post (busy fun p => { p with state := 1, vpid := v, thresh := wf w 32 32 }) v
        (.wait (wf w 32 32) (wf w 20 1 == 1))))
    ∧ (wOp w = 0x3A → exec i s = .next (post (busy fun p => if wf w 22 1 = 1 then { p with state := 2, vpid := v, thresh := 0 } else p) v
        (.arrive (wf w 22 1 == 1) (wf w 20 2))))
    ∧ (wOp w = 0x3B → ∀ slot : PhaseSlot, (a.core c).run.peg.slots.getD (wf w 20 2) none = some slot →
        exec i s = .next (post (busy fun p => { p with state := 3, vpid := slot.vpid, thresh := 0 }) slot.vpid (.slotWait (wf w 20 2))))
    ∧ (wOp w = 0x3C → exec i s = .next (post (busy id) v (.preset (wf w 32 32))))

/-- Tier 2. Completion at a running or stopping core: ENGINE_WORD_COMPLETE counts the beats of the waits, retires the unit's oldest executed
word and advances its DONE (R116); with no executed word in front it only goes on, and a word that completes behind another one, which only
the vector unit and the movers do, leaves DONE where it is. A beat of the array, a furrow or the vector unit is charged to the first cause of
its order, or to its idle counter (R28, R74, R111). GATE_RELEASE satisfies the gates whose counts stand (R119). PROGRAM_COMPLETE with END
dispatched and every queue empty ends the core's program (R118). RATE_SAMPLE sets ARR_RATE (R22). -/
def Obligations.CoreProgress : Prop :=
  ∀ (c : CoreId) (s a : State), Meets s a →
    (∀ (u : Fin 11) (k : Nat) (waits : List (List Nat × Nat)) (e : QWord), (a.core c).mode = .running ∨ (a.core c).mode = .stopping →
      (a.core c).run.q.find? (QWord.ofUnit u) = some e → e.fin = false →
      let b := chargeWaits a c u waits
      (e.done = true → (∀ x, (delFirst (QWord.ofUnit u) (a.core c).run.q).find? (QWord.ofUnit u) = some x → x.fin = false) →
        exec (.engineWordComplete c u 0 waits) s = .next (goOn (b.modRun c fun r => { r with
          q := delFirst (QWord.ofUnit u) r.q, done := tput 0 r.done u (tget 0 r.done u + 1) }) c))
      ∧ (e.done = false → exec (.engineWordComplete c u 0 waits) s = .next (goOn (b.modRun c fun r => r) c))
      ∧ (0 < k → overlaps u = false → exec (.engineWordComplete c u k waits) s = .next (goOn b c))
      ∧ (0 < k → overlaps u = true → exec (.engineWordComplete c u k waits) s = .next (goOn (b.modRun c fun r => { r with q := markFin u k r.q }) c)))
    ∧ (∀ (u : Nat) (causes : List Nat) (l : List Nat) (idle : Nat), (beatOrder u) = (l, [idle]) →
      (∀ off, l.find? causes.contains = some off → chargedTo u causes = off :: waitCounters.filter causes.contains)
      ∧ (l.find? causes.contains = none → chargedTo u causes = idle :: waitCounters.filter causes.contains))
    ∧ exec (.gateRelease c) s = .next (goOn (a.modRun c fun r => { r with
        q := r.q.map fun e => match e.gate with | some g => { e with gate := some (if gateMet r g then [] else g) } | none => e }) c)
    ∧ ((a.core c).mode = .running → (a.core c).run.ended = true → (a.core c).run.q = [] → ([0, 1].all fun m => (a.mover c m).rings.all ringSettled) = true →
      exec (.programComplete c) s = .next (finishUnits (coreDone a c)))
    ∧ (∀ rate, exec (.rateSample c rate) s = .next (a.modCore c fun k => { k with rate := rate % 2 ^ 32 }))

/-- Tier 2. The descriptors of a mover (R295 to R297). A running core whose ring's next descriptor lies in memory that reads without error,
is owned, has the row's KIND, passes the checks of Table 12-13 and touches no line that the host holds: the descriptor comes into progress,
its read counts in MEM_OBYTES, and the mover begins it: COPY and ADD_COPY between local sides move at once, STREAM begins to deliver, a
remote ATOMIC, TRAY_PUT and UPDATE have their message to send. Then the mover sends what it can. A descriptor that cannot run (R302): its
core makes a program fault of CAUSE 0x0C with the reason of Table 12-13. With nothing released, or on a core that is not running, the rows
have no other effect than the mover's sending; a poisoned descriptor is uncorrectable data (R442). -/
def Obligations.MoverDescriptors : Prop :=
  (∀ (c : CoreId) (m : Fin 2) (r : Fin 4) (s a : State) (k : Nat) (d : Desc), Meets s a → (a.core c).mode = .running →
    (a.ring c m r).nextStart = some k → isPoisoned a ((a.ring c m r).addr k) 64 = false →
    d = { idx := k, bytes := readMem a ((a.ring c m r).addr k) 64 } → d.own = true → descBad a c m d = 0 →
    (d.kind < 2 → isHost d.src = true ∨ isHost d.dst = true → a.cxl.up = true) →
    (descSpans a d).flatMap (fun e => snoopedLines a e.1 e.2) = [] →
    let t := (noteRead a ((a.ring c m r).addr k) 64).modRing c m r fun x =>
      { x with live := x.live ++ [d], started := if x.failed.contains k then x.started else x.started + 1 }
    let set (p : Msg) (loc : Nat) : State := t.modDesc c m r k fun d => { d with pend := [{ msg := p, loc := loc }] }
    let ends (x : State) : Host.Outcome State Fault Refusal := .next (flushAcks (pumpOne x c))
    (d.kind < 2 → hostSideOk t c d = true → isRemote a d.src = false → isRemote a d.dst = false →
      (d.kind = 0 → exec (.copy c m r) s = ends (copyLocal t c m r k d)) ∧ (d.kind = 1 → exec (.addCopy c m r) s = ends (copyLocal t c m r k d)))
    ∧ (d.kind = 2 → exec (.stream c m r) s = ends (t.modDesc c m r k fun d => { d with streaming := true }))
    ∧ (d.kind = 3 → isLocal a d.dst = true → exec (.moverAtomic c m r) s =
        let o := applyAtomic t (gAddr d.dst) d.aux d.arg (d.f 0x20 8)
        ends ((writeMem o.1 (gAddr d.src) (leBytes 8 o.2.1) (o.2.2 == stUNCORR)).modDesc c m r k fun d => { d with ue := o.2.2 == stUNCORR }))
    ∧ (d.kind = 4 → exec (.moverTrayPut c m r) s = ends (set { mtype := 5, dst := gNode d.dst, addr := gAddr d.dst } d.src))
    ∧ (d.kind = 5 → exec (.moverUpdate c m r) s = ends (set { mtype := 6, dst := gNode d.dst } d.src)))
  ∧ (∀ (n m r kind : Nat) (a : State),
    ((a.core n).mode ≠ .running → startDesc a n m r kind = a)
    ∧ ((a.ring n m r).nextStart = none → startDesc a n m r kind = a)
    ∧ (∀ k, (a.core n).mode = .running → (a.ring n m r).nextStart = some k → isPoisoned a ((a.ring n m r).addr k) 64 = true →
        startDesc a n m r kind = unitUncorrRec (noteBad a ((a.ring n m r).addr k) 64) n ((a.ring n m r).addr k))
    ∧ (∀ k (d : Desc), (a.core n).mode = .running → (a.ring n m r).nextStart = some k → isPoisoned a ((a.ring n m r).addr k) 64 = false →
        d = { idx := k, bytes := readMem a ((a.ring n m r).addr k) 64 } → (d.own = false ∨ 6 ≤ d.kind ∨ d.kind = kind) → descBad a n m d ≠ 0 →
        startDesc a n m r kind = programFault a n 0x0C (8 + m) (kickWord a n m r k).pc (kickWord a n m r k).word
          (descBad a n m d + k % 2 ^ (a.ring n m r).log2n % 65536 * 2 ^ 8 + r * 2 ^ 24 + m * 2 ^ 26)))

/-- Tier 2. The later events of a mover. DESCRIPTOR_COMPLETE writes the oldest descriptor back once its data is done and it has no signal
to give (R297, R300, R301); MESSAGE_RETRY sends the messages again whose back-off has passed and counts them, and NO_CREDIT_RETRY those
that waited for credit (R299). -/
def Obligations.MoverEvents : Prop :=
  ∀ (c : CoreId) (m : Fin 2) (r : Fin 4) (s a : State), Meets s a →
    (∀ d rest, (a.ring c m r).live = d :: rest → d.dataDone = true → (d.signal = false ∨ d.signalled = true ∨ d.cause ≠ 0) →
      exec (.descriptorComplete c m r) s = .next (pumpOne (writeBack a c m r d) c))
    ∧ ((a.ring c m r).live = [] → exec (.descriptorComplete c m r) s = .next (pumpOne a c))
    ∧ exec (.messageRetry c m r) s = .next (pumpOne ((a.modRing c m r fun x => { x with live := x.live.map fun d => { d with
        pend := d.pend.map fun p => if p.backoff then { p with backoff := false, attempt := p.attempt + 1 } else p } }).modMover c m
          fun x => { x with retries := x.retries + (((a.ring c m r).live.flatMap Desc.pend).filter PendMsg.backoff).length }) c)
    ∧ exec (.noCreditRetry c m r) s = .next (flushAcks (pumpOne (a.modRing c m r fun x => { x with live := x.live.map fun d => { d with
        pend := d.pend.map fun p => { p with credit := false } } }) c))

/-- Tier 2. PEG_APPLY (R245 to R248): the unit reads the record of the peg of the oldest operation that has its home at the core (R144),
and the operation takes effect, a signal and a preset on a mapped peg as here; a peg freed meanwhile refuses the operation with a program
fault (R251); with none the unit does nothing. -/
def Obligations.PegApply : Prop :=
  (∀ (p : Peg) (n : Nat), p.mode = 3 →
    (p.arrived + n < p.parties → p.signal n = { p with arrived := p.arrived + n, phases := p.phases % 2 ^ 31 })
    ∧ (p.arrived < p.parties → p.arrived + 1 = p.parties → p.signal 1 = { p with arrived := 0, sense := !p.sense, phases := (p.phases + 1) % 2 ^ 31 }))
  ∧ ∀ (c : CoreId) (s a : State), Meets s a →
    ((a.pegReqs.find? fun r => r.phys / 2048 == c.val) = none → exec (.pegApply c) s = .next a)
    ∧ (∀ q, (a.pegReqs.find? fun r => r.phys / 2048 == c.val) = some q → a.badRows.contains (pegRow q.phys) = true →
        ((pegRead a q.phys).pegReqs.find? fun r => r.phys / 2048 == c.val) = none → exec (.pegApply c) s = .next (pegRead a q.phys))
    ∧ (∀ q, a.badRows.contains (pegRow q) = false → pegRead a q = a)
    ∧ (∀ q r, (a.pegReqs.find? fun r => r.phys / 2048 == c.val) = some q →
        ((pegRead a q.phys).pegReqs.find? fun r => r.phys / 2048 == c.val) = some r →
        let a := pegRead a q.phys
        let b : State := { a with pegReqs := delFirst (fun r => r.phys / 2048 == c.val) a.pegReqs }
        (r.dead = false → vpidOk a r.ctx r.vpid = some r.phys →
          exec (.pegApply c) s = .next (goOn (applyPegOp b r) r.core)
          ∧ (∀ k, r.op = .signal k → applyPegOp b r = applySignal (markDone b r.core 10) r.phys k ⟨a.salt.node, 0, r.core⟩)
          ∧ (∀ v, r.op = .preset v → applyPegOp b r = applyPreset (markDone b r.core 10) r.phys v ⟨a.salt.node, 0, r.core⟩)
          ∧ (∀ k con, r.op = .wait k con → applyPegOp b r = releasePeg b r.phys
              { a.peg r.phys with waits := (a.peg r.phys).waits ++ [{ who := .core r.core, k := k, consume := con, phases := (a.peg r.phys).phases }] }))
        ∧ (r.dead = true ∨ vpidOk a r.ctx r.vpid ≠ some r.phys → exec (.pegApply c) s = .next (programFault b r.core 0x0D 10 (pegWordOf a r.core).pc
            (pegWordOf a r.core).word (0x01 + r.vpid * 2 ^ 8))))

/-- Tier 2. Counting pegs: a signal of AMOUNT n adds n to VALUE; when the sum would exceed 2^32 − 1, VALUE becomes 2^32 − 1 and OVERFLOW is
set. OVERFLOW stays set over every further signal and every wait, and a preset or a reset clears it (R244). -/
def Obligations.CounterPegs : Prop :=
  (∀ (p : Peg) (n : Nat), p.mode = 1 →
    (p.value + n ≤ 0xFFFFFFFF → p.signal n = { p with value := p.value + n })
    ∧ (0xFFFFFFFF < p.value + n → p.signal n = { p with value := 0xFFFFFFFF, overflow := true }))
  ∧ (∀ (s : State) (i n : Nat) (g : Signaller), (s.peg i).mode = 1 → (s.peg i).overflow = true → ((applySignal s i n g).peg i).overflow = true)
  ∧ (∀ (s : State) (i : Nat) (w : Wait), (s.peg i).overflow = true → ((applyWait s i w).peg i).overflow = true)
  ∧ (∀ (s : State) (i v : Nat) (g : Signaller), tabWf {} s.pegs = true → ((applyPreset s i v g).peg i).overflow = false)
  ∧ (∀ p : Peg, p.resetTo.overflow = false)

/-- Tier 2. Flag pegs: a signal of any AMOUNT sets VALUE to 1, and sets DOUBLED when VALUE was already 1 or AMOUNT exceeds 1; a wait
ignores its threshold, is satisfied while VALUE = 1, and sets VALUE to 0 where it consumes. DOUBLED stays set until a preset or a reset
clears it (R246). -/
def Obligations.FlagPegs : Prop :=
  (∀ (p : Peg) (n : Nat), p.mode = 2 → (p.signal n).value = 1 ∧ ((p.signal n).doubled = true ↔ p.doubled = true ∨ p.value = 1 ∨ 1 < n)
    ∧ p.signal n = { p with value := 1, doubled := (p.signal n).doubled })
  ∧ (∀ (p : Peg) (w : Wait), p.mode = 2 → (p.meets w = true ↔ p.value = 1) ∧ p.take w = { p with value := 0 })
  ∧ (∀ (s : State) (i n : Nat) (g : Signaller), (s.peg i).mode = 2 → (s.peg i).doubled = true → ((applySignal s i n g).peg i).doubled = true)
  ∧ (∀ (s : State) (i : Nat) (w : Wait), (s.peg i).doubled = true → ((applyWait s i w).peg i).doubled = true)
  ∧ (∀ (s : State) (i v : Nat) (g : Signaller), tabWf {} s.pegs = true → ((applyPreset s i v g).peg i).doubled = false)
  ∧ (∀ p : Peg, p.resetTo.doubled = false)

/-- Tier 2. Pre-emption and its end (R131 to R136). PREEMPTION_POINT at a stopping core that is at rest and runs no unit begins its save
and measures the stop; a state that goes to LPDDR5X waits its turn among eight. SAVE_COMPLETE keeps the core's run, writes its slot and frees
the core; SAVED_STATE_RESTORED brings it back; an uncorrectable error of either tears the context down (R136). RESUME_CONTEXT of a saved unit
whose cores are free begins the restore. -/
def Obligations.Preemption : Prop :=
  ∀ (c : CoreId) (s a : State), Meets s a →
    (∀ nonpre, (a.core c).mode = .stopping → atRest a c = true → unitOn a c = none → exec (.preemptionPoint c nonpre) s = .next
        (let lp := !(a.spReserve && !(a.core c).resFull)
         let b := dropWait { a with pegReqs := a.pegReqs.filter fun r => r.core != c.val } (.core c)
         (if lp then joinMove b c else b).modCore c fun k => { k with
           mode := .saving, stopNs := a.now - (a.core c).reqAt.getD a.now, nonpre := nonpre, pointAt := a.now, reqAt := none, saveTarget := lp }))
    ∧ ((a.core c).mode = .saving → moves a c = true →
      let v : Saved := { ctx := (a.core c).ctx, core := c, inReserve := !(a.core c).saveTarget, plotsz := a.plotsz, at0 := (a.core c).pointAt
                         unit := ((unitOn a c).map WUnit.id).getD 0, run := (a.core c).run }
      (runBad (a.core c).run = false → ∃ t, exec (.saveComplete c) s = .next t ∧ (t.core c).mode = .idle ∧ t.saved = a.saved ++ [v]
        ∧ t.mem = (writeSlot a v).mem ∧ t.moveQ = a.moveQ.filter (· != c.val))
      ∧ (runBad (a.core c).run = true → exec (.saveComplete c) s = .next (moveFault a c 0)))
    ∧ (∀ v, (a.core c).mode = .restoring → moves a c = true →
      (a.saved.find? fun v => v.core == c.val && v.ctx == (a.core c).ctx && (unitOn a c).any (fun u => u.id == v.unit)) = some v →
      (slotBad a v = false → ∃ t, exec (.savedStateRestored c) s = .next (goOn t c) ∧ stateRestored a c = t
        ∧ t.saved = a.saved.filter fun w => !(w.core == c.val && w.unit == v.unit))
      ∧ (slotBad a v = true → exec (.savedStateRestored c) s = .next (goOn (moveFault (noteBad a (slotAt a v) slotBytes) c (slotAt a v)) c)))
    ∧ (moves a c = false → exec (.saveComplete c) s = .next a)
    ∧ (∀ id u, (a.units.find? fun u => u.id == id && u.st == 4) = some u → (∃ v ∈ a.saved, v.unit = id) →
        (∀ v ∈ a.saved, v.unit = id → v.plotsz = a.plotsz) → u.cores.all (coreFree a [] u.ctx) = true →
        exec (.resumeContext id) s = .next (((a.saved.filter fun v => v.unit == id).foldl (fun s v =>
          (if v.inReserve then s else joinMove s v.core).modCore v.core fun c => { c with mode := .restoring, ctx := u.ctx }) (unsolo a u.ctx)).modUnit id fun v => { v with st := 5 }))

/-! ### Trays -/

/-- Tier 2. OPEN (R167, R170, R178, R180) of a packet that passes the checks of Table 8-3. A work tray with journal room, in version 2 a
fresh PSEQ and no open packet of that PSEQ, the credit of its slot and free ring words (log 91) takes it, with its space and credit, at the
tray's next ring word; an open packet of that PSEQ is taken back first; a log or telemetry tray makes room by discarding its oldest READY
packets, and else counts the packet lost. The answer is ST_OK, with PADDR where a packet opened. An OPEN that opens nothing (Table 8-3, R170,
R178, R433): a check of the table refuses it with the check's status, a full journal and missing credit refuse it with ST_NO_CREDIT, and a
PSEQ that has committed is answered as a duplicate with its SEQ. -/
def Obligations.TrayOpens : Prop :=
  (∀ (n : TrayId) (e : TrayEntry) (node : Nat) (own : Bool) (s a : State), Meets s a →
    let t := a.tray n
    let b : State := { a with readOut := [] }
    let k := if t.fmtver = 2 then e.slot else 0
    let room (t : Tray) : Prop := 1 ≤ (t.slot k).pktAvail ∧ e.length + 1 ≤ (t.slot k).wordAvail ∧ t.words + (e.length + 1) ≤ t.ringWords
    let takes (s : State) (t : Tray) : State := s.setTray n { (t.accept (newPacket s t e node .none)) with
      expired := if t.fmtver = 2 then t.expired.filter (· != (e.slot, e.pseq)) else t.expired }
    openCheck a t e node own = stOK →
    (t.kind = 1 → jfull a = false → (t.fmtver = 2 → pseqClass (t.slot k) e.pseq = .fresh) →
      ((t.fmtver = 2 → t.packets.find? (isOpen e.slot e.pseq) = none) → room t → exec (.openPkt n e node own) s = .next
        { (flushAcks (takes b t)) with readOut := openAnswer stOK false 0 (t.wordAddr t.nextWord) })
      ∧ (∀ p, t.fmtver = 2 → t.packets.find? (isOpen e.slot e.pseq) = some p →
        let s1 := answerPkt (rewind b n p) p stCANCELLED
        room (s1.tray n) → exec (.openPkt n e node own) s = .next
          { (flushAcks (takes s1 (s1.tray n))) with readOut := openAnswer stOK false 0 ((s1.tray n).wordAddr (s1.tray n).nextWord) ++ s1.readOut }))
    ∧ (1 < t.kind →
      let r := logMakeRoom (e.length + 1) a.now t.packets.length t
      (r.words + (e.length + 1) ≤ r.ringWords → r.packets.length < r.maxpkt →
        exec (.openPkt n e node own) s = .next { (flushAcks (b.setTray n (r.accept (newPacket a r e node .none)))) with
          readOut := openAnswer stOK false 0 ((r.accept (newPacket a r e node .none)).wordAddr r.nextWord) })
      ∧ (r.maxpkt ≤ r.packets.length ∨ r.ringWords < r.words + (e.length + 1) →
        exec (.openPkt n e node own) s = .next { (flushAcks (b.setTray n { r with lost := r.lost + 1 })) with readOut := openAnswer stOK false 0 0 })))
  ∧ (∀ (n : TrayId) (e : TrayEntry) (node : Nat) (own : Bool) (s a : State), Meets s a →
    let t := a.tray n
    let b : State := { a with readOut := [] }
    let told (b : State) (st : Nat) (dup : Bool) (seq : Nat) : Host.Outcome State Fault Refusal :=
      .next { (flushAcks b) with readOut := openAnswer st dup seq 0 }
    (openCheck a t e node own ≠ stOK → exec (.openPkt n e node own) s = told b (openCheck a t e node own) false 0)
    ∧ (openCheck a t e node own = stOK → t.kind = 1 → jfull a = true → exec (.openPkt n e node own) s =
        told (if a.faults.jpaused then b else b.modFaults fun f => { f with jfull := f.jfull + 1, jpaused := true }) stNOCREDIT false 0)
    ∧ (openCheck a t e node own = stOK → t.kind = 1 → t.fmtver = 2 → jfull a = false → pseqClass (t.slot e.slot) e.pseq = .dup →
        exec (.openPkt n e node own) s = told b stOK true
          (((t.packets.find? (fun p => p.slot == e.slot && p.pseq == e.pseq && p.seq != 0)).map Packet.seq).getD 0))
    ∧ (openCheck a t e node own = stOK → t.kind = 1 → t.fmtver = 2 → jfull a = false → pseqClass (t.slot e.slot) e.pseq = .fresh →
        t.packets.find? (isOpen e.slot e.pseq) = none →
        ((t.slot e.slot).pktAvail = 0 ∨ (t.slot e.slot).wordAvail < e.length + 1 ∨ t.ringWords < t.words + (e.length + 1)) →
        exec (.openPkt n e node own) s = told (b.setTray n { t with nocredit := t.nocredit + 1 }) stNOCREDIT false 0))

/-- Tier 2. COMMIT (R167 to R169): with a good payload the packet keeps it in its ring words and waits for its commit point; with a bad one
it is rewound and the COMMIT answered with the reason of R169; one that names no open packet is answered by R168, and one that comes again changes nothing.
COMMIT_POINT (R167, R170): the next packet becomes READY with the tray's next SEQ; a work tray appends COMMIT to the journal first and, in
version 2, moves its slot's LAST; the producer is answered. With no packet due nothing changes. -/
def Obligations.TrayCommits : Prop :=
  (∀ (n : TrayId) (slot pseq : Nat) (words : List Byte) (poison fabric : Bool) (s a : State), Meets s a →
    let t := a.tray n
    (t.openOf slot pseq = none → exec (.commit n slot pseq words poison fabric) s = .next { (a.modTray n fun t => { t with
        expired := delFirst (· == (if t.fmtver = 2 then (slot, pseq) else (0, 0))) t.expired }) with
        readOut := ackBytes (lateCommit t slot pseq).1 (lateCommit t slot pseq).2.1 (lateCommit t slot pseq).2.2 })
    ∧ (∀ p, t.openOf slot pseq = some p → p.commitOk = true → exec (.commit n slot pseq words poison fabric) s = .next a)
    ∧ (∀ p, t.openOf slot pseq = some p → p.commitOk = false →
        let w := fixLen words (64 * p.nwords)
        let st := commitStatus p w poison fabric
        (st = stOK → exec (.commit n slot pseq words poison fabric) s = .next (flushAcks ((writeRing a t p.pos (chunks 64 p.nwords w)).setTray n { t with
          packets := modFirst (fun q => q == p) (fun q => { q with commitOk := true, order := t.nextOrder }) t.packets
          nextOrder := t.nextOrder + 1 })))
        ∧ (st ≠ stOK → p.reply = .none → exec (.commit n slot pseq words poison fabric) s = .next { (flushAcks (rewind a n p)) with
            readOut := ackBytes st false 0 })
        ∧ (poison = true → st = stUNCORR) ∧ (poison = false → fabric = true → st = stLINK)
        ∧ (poison = false → fabric = false → ((crc32c w).toNat ≠ p.crc → st = stDIGEST) ∧ ((crc32c w).toNat = p.crc → st = stOK))))
  ∧ (∀ (n : TrayId) (s a : State), Meets s a →
    let t := a.tray n
    (t.nextCommit = none → exec (.commitPoint n) s = .next a)
    ∧ (∀ p, t.nextCommit = some p → p.reply = .none →
        let b := if t.kind = 1 then jAppend a { type := 0x11, ctx := t.ctx, tray := n, seq := t.nextSeq, idx := p.pseq
                                                result := t.wordAddr p.pos + p.length * 2 ^ 48 + p.slot * 2 ^ 56 } else a
        let u : Tray := { t with
          packets := modFirst (fun q => q == p) (fun q => { q with st := .ready, seq := t.nextSeq, order := t.nextOrder, reply := .none }) t.packets
          nextSeq := seqNext t.nextSeq, nextOrder := t.nextOrder + 1, commits := t.commits + 1 }
        exec (.commitPoint n) s = .next { (flushAcks (b.setTray n
          (if t.kind = 1 && t.fmtver = 2 then u.modSlot p.slot (fun x => { x with last := p.pseq, committed := true }) else u))) with
          readOut := ackBytes stOK false t.nextSeq }))

/-- Tier 2. Reading by a core program of the tray's context (R175, R177). CLAIM takes the first READY packet of a work tray to CLAIMED and
journals it, READ takes that of a log or telemetry tray and holds its space; the answer is the entry and the first payload word. With none
READY the answer is the idle packet, or in the read mode of R177 the program waits, as the last of at most four. A packet whose entry is
uncorrectable is passed over: it retires FAULTED from a work tray, and is lost from another (R184). After the read (R175,
R209): UNCLAIM returns a claimed packet that no unit holds to READY, and journals it; RETIRE settles it DONE, where the context names no
telemetry tray by the journal alone, and frees its space in order; PAYLOAD_COPIED ends a hold, and READ_HOLD_EXPIRY 20 µs after the read. -/
def Obligations.TrayReading : Prop :=
  (∀ (n : TrayId) (k : CoreId) (s a : State), Meets s a → (a.core k).mode = .running → (a.core k).ctx = (a.tray n).ctx →
    let t := a.tray n
    (t.kind = 1 → ∀ p, t.head = some p → p.bad = false → (p.ecc && p.spill.isNone) = false →
      let q := { p with st := .claimed, claimer := t.ctx, byCore := some k.val, spill := none }
      let b := (jAppend a { type := 0x12, ctx := t.ctx, tray := n, seq := p.seq, idx := p.pseq }).setTray n { t with
        packets := modFirst (fun x => x == p) (fun _ => q) t.packets }
      exec (.claim n (some k)) s = .next { b with readOut := headOut b (b.tray n) q })
    ∧ (2 ≤ t.kind → ∀ p, t.head = some p → p.bad = false → (p.ecc && p.spill.isNone) = false →
      let b := a.setTray n { t with packets := modFirst (fun x => x == p) (fun x => { x with st := .held, heldAt := a.now, spill := none }) t.packets }
      exec (.read n (some k)) s = .next { b with readOut := headOut b (b.tray n) p })
    ∧ (t.head = none → t.readmode = false →
      (t.kind = 1 → exec (.claim n (some k)) s = .next { a with readOut := idleEntry a t ++ idleWord a t })
      ∧ (2 ≤ t.kind → exec (.read n (some k)) s = .next { a with readOut := idleEntry a t ++ idleWord a t }))
    ∧ (t.head = none → t.readmode = true → t.waiters.length < 4 →
      (t.kind = 1 → exec (.claim n (some k)) s = .next (a.setTray n { t with waiters := t.waiters ++ [.prog k] }))
      ∧ (2 ≤ t.kind → exec (.read n (some k)) s = .next (a.setTray n { t with waiters := t.waiters ++ [.prog k] }))))
  ∧ (∀ (n fuel : Nat) (p : Packet) (a : State), (a.tray n).head = some p → (p.bad = true ∨ p.ecc = true ∧ p.spill = none) →
    let b := if p.ecc && p.spill.isNone then trayError a else a
    dropBadHeads n (fuel + 1) a = dropBadHeads n fuel (if (a.tray n).kind = 1 then retirePkt b n p dFAULTED stUNCORR
      else reclaimTray (b.setTray n { ((a.tray n).drop (fun q => q == p)) with lost := (a.tray n).lost + 1 }) n))
  ∧ (∀ (n : TrayId) (seq : Nat) (s a : State), Meets s a →
    let t := a.tray n
    (∀ p, t.find .claimed seq = some p → inUnit a n seq = false →
      (exec (.unclaim n seq) s = .next ((jAppend a { type := 0x13, ctx := t.ctx, tray := n, seq := seq, idx := p.pseq }).modTray n fun t =>
        { t with packets := modFirst (fun q => q == p) (fun q => { q with st := .ready, started := false, byCore := none }) t.packets }))
      ∧ ((a.ctx t.ctx).sweep = none → exec (.retire n seq) s = .next (reclaimTray
        ((jAppend a { type := 0x14, disp := dDONE, status := stOK, ctx := t.ctx, tray := n, seq := p.seq, idx := p.pseq }).setTray n
          (t.drop (fun q => q.seq == p.seq && q.seq != 0 && (q.st == .ready || q.st == .claimed)))) n)))
    ∧ exec (.payloadCopied n seq) s = .next (endHold a n seq)
    ∧ (∀ p, t.find .held seq = some p → exec (.readHoldExpiry n seq) s = .next (endHold { a with now := max a.now (p.heldAt + 20000) } n seq))
    ∧ endHold a n seq = reclaimTray (a.modTray n fun t => { t with
        packets := modFirst (fun p => p.st == .held && p.seq == seq) (fun p => { p with st := .gone }) t.packets }) n)

/-- Tier 2. Times of a tray (R171, R179). OPEN_TIMEOUT takes an open packet back whose commit point is not due, with its credit and its
space, and its time has passed; CREDIT_UPDATE of a work tray's slot with credit to return clears what it returns, where none is due its 10 µs
have passed, and tells the slot's producer: by CREDIT at another part, at once on this one, and the host by the tray's registers. The
implicit slot of version 1 tells each producer whose packets returned (log 28). A packet taken back (R169, R171) leaves all memory as it is, counts in REWOUND, and
returns the packet and the words of its slot. -/
def Obligations.TrayTimes : Prop :=
  (∀ (n : TrayId) (slot pseq : Nat) (s a : State), Meets s a →
    let t := a.tray n
    (∀ p, t.openOf slot pseq = some p → t.eligible p = false → exec (.openTimeout n slot pseq) s = .next (flushAcks
      (answerPkt (rewind { a with now := max a.now (p.openedAt + t.timeout * 1000) } n p) p stCANCELLED)))
    ∧ (t.kind = 1 → 0 < (t.slot slot).retPkts →
      let a1 : State := if creditDue a (t.slot slot) then a else { a with now := max a.now ((t.slot slot).retAt.getD a.now + 10000) }
      let b := a1.setTray n (t.modSlot slot fun x => { x with retPkts := 0, retWords := 0, retAt := none, retNodes := [] })
      (t.fmtver = 2 → (t.slot slot).node = 0xFFFE → exec (.creditUpdate n slot) s = .next b)
      ∧ (t.fmtver = 2 → (t.slot slot).node ≠ 0xFFFE → (t.slot slot).node = a.salt.node →
        exec (.creditUpdate n slot) s = .next (creditWake b (t.slot slot).node n slot))
      ∧ (t.fmtver ≠ 2 → exec (.creditUpdate n slot) s = .next ((t.slot slot).retNodes.foldl (fun s node => tellCredit s n slot (t.slot slot) node) b))
      ∧ (t.fmtver = 2 → (t.slot slot).node ≠ 0xFFFE → (t.slot slot).node ≠ a.salt.node → exec (.creditUpdate n slot) s = .next (sendRsp b
          { mtype := 7, dst := (t.slot slot).node, src := a.salt.node, addr := n, slot := slot
            arg := (t.slot slot).pktAvail % 2 ^ 17 + (t.slot slot).wordAvail % 2 ^ 28 * 2 ^ 17 }))))
  ∧ (∀ (s : State) (n : Nat) (p : Packet), (rewind s n p).mem = s.mem ∧ (rewind s n p).ctxs = s.ctxs ∧ (rewind s n p).hostMem = s.hostMem
    ∧ ((s.tray n).kind = 1 → (((s.tray n).giveBack s.now p).slot p.slot).pktAvail = ((s.tray n).slot p.slot).pktAvail + 1
      ∧ (((s.tray n).giveBack s.now p).slot p.slot).wordAvail = ((s.tray n).slot p.slot).wordAvail + p.nwords))

/-! ### The fabric -/

/-- Tier 2. RD, WR and ATOMIC at this chip (R273, R278 to R280, R283, R292). The port returns the link credit of the message. A well-formed access that a window passes and that touches no line
the host holds is served: WR stores its words, marked poisoned where they came so, and answers WRACK; ATOMIC of a good word replaces it and
answers the old value; RD answers the parts of its range, each good or poisoned as a whole. A malformed access and one that no window
passes, or to a register block, are refused, and store nothing. -/
def Obligations.FabricAccess : Prop :=
  ∀ (i : Instr) (p : PortId) (m : Msg) (s a : State), msgOf i = some (p, m) → m.mtype ≤ 3 → Meets s a → arrival a p m = .mine →
    let b := creditBack a p m
    (accessBad m = true → exec i s = .next (respond b m stBADPARAM))
    ∧ (accessBad m = false → (inRegs m.addr (msgSpan m) = true ∨ windowOk b p m = false) →
        exec i s = .next (respond (b.modSalt fun x => { x with winref := x.winref + 1 }) m stWINDOW))
    ∧ (accessBad m = false → inRegs m.addr (msgSpan m) = false → windowOk b p m = true → snoopedLines b m.addr (msgSpan m) = [] →
        (m.mtype = 2 → exec i s = .next (respond (writeMem b m.addr m.words m.poison) m stOK))
        ∧ (m.mtype = 3 → isPoisoned b m.addr 8 = false → exec i s = .next (sendRsp
            (writeLE b m.addr 8 (atomicOp m.aop (readLE b m.addr 8) m.arg (leNat (m.words.take 8)))) { (rspMsg b m stOK) with arg := readLE b m.addr 8 }))
        ∧ (m.mtype = 3 → isPoisoned b m.addr 8 = true → exec i s = .next (sendRsp (noteBad b m.addr 8) { (rspMsg b m stUNCORR) with arg := 0 }))
        ∧ (m.mtype = 1 → exec i s = .next ((readParts b m.addr (m.len + 1)).foldl (fun s e =>
            sendRsp (noteBad s e.1 (64 * e.2.1))
              { mtype := 0x21, tag := m.tag, dst := m.src, src := s.salt.node, status := if e.2.2 then stUNCORR else stOK, poison := e.2.2
                addr := e.1, data := true, len := e.2.1 - 1, words := readMem s e.1 (64 * e.2.1) }) (noteRead b m.addr (msgSpan m)))))
    ∧ (accessBad m = false → inRegs m.addr (msgSpan m) = false → windowOk b p m = true → snoopedLines b m.addr (msgSpan m) ≠ [] → exec i s = .next
        ((sendSnoops b (snoopedLines b m.addr (msgSpan m))).modSalt fun x => { x with snoopHeld := x.snoopHeld ++ [(p.val, m, b.salt.swaps)] }))

/-- Tier 2. The other requests at this chip: SIGNAL by R256, behind the data of its source (R278), with AMOUNT 1 and to a counting peg only
on a version 1 link (R268); TRAY_PUT opens and commits its packet (R282), and is refused with bad fields or another version's entry; UPDATE
queues a good block at a rake with room, and withholds its credit at a rake without (R215, R216); CREDIT is kept and ends the waits for it
(R179, R299). -/
def Obligations.FabricRequests : Prop :=
  ∀ (p : PortId) (m : Msg) (s a : State), Meets s a →
    (∀ q, q = { m with mtype := 4 } → arrival a p q = .mine →
      let b := creditBack a p q
      let v := vpidRead b q.ctx q.addr
      let chamos := (v.port p).version = 1
      let plain := (vpidOk v q.ctx q.addr).map fun i => (v.peg i).mode
      (signalWaits b q = true → exec (.signal p m) s = .next (b.modSalt fun x => { x with sigHeld := x.sigHeld ++ [(p.val, q)] }))
      ∧ (signalWaits b q = false → (signalBad q = true ∨ chamos ∧ plain ≠ some 1) → exec (.signal p m) s = .next (respond v q stBADPARAM))
      ∧ (signalWaits b q = false → signalBad q = false → (chamos → plain = some 1) →
        let r := targetSignal v m.ctx m.addr (if (v.port p).version = 1 then 1 else m.arg) (m.src == v.salt.node) ⟨m.src, m.ukind, m.unit⟩
        exec (.signal p m) s = .next (respond r.1 q r.2)))
    ∧ (∀ q, q = { m with mtype := 5 } → arrival a p q = .mine → ∀ e, e = { (parseEntry (m.words.take 32)) with slot := m.slot } →
      let b := creditBack a p q
      let good := m.rsvd = false ∧ m.addr < 32768 ∧ m.arg = 0 ∧ m.data = true ∧ m.barrier = false ∧ m.aop = 0
      (¬ good → exec (.trayPut p m) s = .next (flushAcks (respond b q stBADPARAM)))
      ∧ (good → (b.port p).version = 1 → e.fver ≠ 1 → exec (.trayPut p m) s = .next (flushAcks (respond b q stVERSION)))
      ∧ (good → ((b.port p).version = 1 → e.fver = 1) → m.words.length ≠ 64 * (e.length + 2) → exec (.trayPut p m) s = .next (flushAcks (respond b q stBADPARAM)))
      ∧ (good → ((b.port p).version = 1 → e.fver = 1) → m.words.length = 64 * (e.length + 2) →
        exec (.trayPut p m) s = .next (flushAcks (putPacket b m.addr e m.src (m.words.drop 64) m.poison false (.port p q)))))
    ∧ (∀ q, q = { m with mtype := 6 } → arrival a p q = .mine →
      let b := creditBack a p q
      (updateBad q = true → exec (.update p m) s = .next (respond b q stBADPARAM))
      ∧ (updateBad q = false → rakeRoom a p = false → exec (.update p m) s = .next a)
      ∧ (updateBad q = false → rakeRoom a p = true → m.poison = true → exec (.update p m) s = .next (respond (rakePoison b p) q stUNCORR))
      ∧ (updateBad q = false → rakeRoom a p = true → m.poison = false →
        exec (.update p m) s = .next (respond (rakeTake b p m.words).1 q (rakeTake b p m.words).2)))
    ∧ (∀ q, q = { m with mtype := 7 } → arrival a p q = .mine → m.rsvd = false → m.addr < 32768 → m.arg < 2 ^ 45 →
      exec (.credit p m) s = .next (creditWake ((creditBack a p q).modSalt fun x => { x with
        creditSeen := (m.src, m.addr, m.slot, bitsAt m.arg 0 17, bitsAt m.arg 17 28)
          :: x.creditSeen.filter (fun e => !(e.1 == m.src && e.2.1 == m.addr && e.2.2.1 == m.slot)) }) m.src m.addr m.slot))

/-- Tier 2. MGMT (R276, Table 17-9): its CODE names the operation of board boot, of training records or of an SPDM exchange; another CODE
has no effect. Responses (R278 to R281): one that no outstanding request of its TAG, node and type awaits counts in LATE; a WRACK, SIGACK,
TRAY_ACK or UPDACK ends its request with the status it bears; a part of a read is kept until the last word has come; an ATOMRESP writes the
old value to its descriptor's SRC, poisoned with ST_UNCORRECTABLE. -/
def Obligations.FabricAnswers : Prop :=
  (∀ (p : PortId) (m : Msg) (s a : State), Meets s a → 2 ≤ (a.port p).state → m.rsvd = false →
    let b := creditBack a p { m with mtype := 8 }
    let at' off n := leNat ((m.words.drop off).take n)
    (m.arg % 256 = 0x01 → exec (.mgmt p m) s = .next (bootReq b p (at' 0 16) (at' 16 1) (at' 20 1)))
    ∧ (m.arg % 256 = 0x02 → exec (.mgmt p m) s = .next (bootData b p (bitsAt m.arg 8 8) m.addr m.words))
    ∧ (m.arg % 256 = 0x03 → exec (.mgmt p m) s = .next (bootEnd b p (bitsAt m.arg 8 8) (at' 0 8) ((m.words.drop 8).take 32) (at' 40 2)))
    ∧ (m.arg % 256 = 0x04 → exec (.mgmt p m) s = .next (trainPut b p (if m.addr = 0 then at' 0 16 else ((b.start.trainPut.map (·.1)).getD 0)) m.words))
    ∧ (m.arg % 256 = 0x10 → exec (.mgmt p m) s = .next (spdmMsg b p ((m.words.drop 4).take (at' 0 4))))
    ∧ (m.arg % 256 ∉ [0x01, 0x02, 0x03, 0x04, 0x10] → exec (.mgmt p m) s = .next b))
  ∧ (∀ (i : Instr) (p : PortId) (m : Msg) (s a : State), msgOf i = some (p, m) → 0x21 ≤ m.mtype → Meets s a → arrival a p m = .mine →
    let b := creditBack a p m
    (outOf b p m = none → exec i s = .next (b.modSalt fun x => { x with late := x.late + 1 }))
    ∧ (∀ o, outOf b p m = some o →
      (m.mtype ∉ [0x21, 0x23] → exec i s = .next (outDone (dropOut b o) o m.status))
      ∧ (m.mtype = 0x21 → m.status ≠ stOK → m.status ≠ stUNCORR → exec i s = .next (outDone (dropOut b o) o m.status))
      ∧ (m.mtype = 0x21 → (m.status = stOK ∨ m.status = stUNCORR) →
        (o.msg.len + 1 ≤ o.got + (m.len + 1) → exec i s = .next (outDone (dropOut (partIn b o m) o) o stOK))
        ∧ (o.got + (m.len + 1) < o.msg.len + 1 → exec i s = .next ((partIn b o m).modSalt fun x => { x with
            outs := modFirst (fun q => q == o) (fun q => { q with got := q.got + (m.len + 1) }) x.outs })))
      ∧ (m.mtype = 0x23 → ∀ n v k j loc piece, o.src = .mover n v k j loc piece → ((b.ring n v k).desc j).isSome = true →
        (m.status = stOK → exec i s = .next (outDone (dropOut (writeMem b (gAddr loc) (leBytes 8 m.arg)) o) o stOK))
        ∧ (m.status = stUNCORR → exec i s = .next (outDone (dropOut (writeMem b (gAddr loc) (leBytes 8 m.arg) true) o) o stUNCORR)))))

/-- Tier 2. A message that is not for this chip (R272, R284, R285, R287, R309): with a transit route it goes on by that route's port, marked
as in transit, unless a version 1 link is on its way; with none a request is refused with ST_NOROUTE and a response is dropped, and it counts
where no port leads to its node; on a port that does not carry it, it is dropped. -/
def Obligations.FabricForward : Prop :=
  ∀ (i : Instr) (p : PortId) (m : Msg) (s a : State), msgOf i = some (p, m) → Meets s a →
    let b := creditBack a p m
    let c := if routePort b m.dst = none then b.modSalt fun x => { x with noroute := x.noroute + 1 } else b
    (∀ q, arrival a p m = .forwarded q → exec i s = .next (transmit b q { m with transit := true }))
    ∧ (arrival a p m = .refused → exec i s = .next (if isRequest m.mtype then respond c m stNOROUTE else c))
    ∧ (arrival a p m = .dropped → exec i s = .next b)
    ∧ (∀ q, arrival a p m = .forwarded q ↔ (2 ≤ (a.port p).state ∧ m.mtype ≠ 8 ∧ portCarries a p = true ∧ m.dst ≠ a.salt.node
        ∧ (a.port p).version ≠ 1 ∧ (a.port q).version ≠ 1 ∧ routePort a m.dst = some q ∧ (tget {} a.salt.routes m.dst : Route).valid = true ∧ (tget {} a.salt.routes m.dst : Route).transitOk = true
        ∧ m.transit = false ∧ q ≠ p))

/-- Tier 2. RSP_TIMEOUT (R281): the request that its port and TAG name ends with ST_LINK, with RSP_TIMEOUT microseconds passed since it was
sent; with no such request nothing happens. ROUTE_HOLD_RELEASE (R286): once every request to a held node has ended, its held messages go in
order and the hold ends; before that, and without a hold, nothing happens. -/
def Obligations.FabricWaits : Prop :=
  ∀ (s a : State), Meets s a →
    (∀ (p : PortId) tag, (a.salt.outs.find? fun o => o.port == p.val && o.tag == tag) = none → exec (.rspTimeout p tag) s = .next a)
    ∧ (∀ (p : PortId) tag o, (a.salt.outs.find? fun o => o.port == p.val && o.tag == tag) = some o → exec (.rspTimeout p tag) s = .next
        (outDone (dropOut { a with now := max a.now (o.at0 + a.salt.rspTimeout * 1000) } o) o stLINK))
    ∧ (∀ node, a.salt.heldNodes.contains node = true → (∀ o ∈ a.salt.outs, o.msg.dst ≠ node) → exec (.routeHoldRelease node) s = .next
        ((a.salt.held.filter (fun e => e.1.dst == node)).foldl sendHeld (a.modSalt fun x =>
          { x with heldNodes := x.heldNodes.filter (· != node), held := x.held.filter (fun e => e.1.dst != node) })))
    ∧ (∀ node, (a.salt.heldNodes.contains node = false ∨ ∃ o ∈ a.salt.outs, o.msg.dst = node) → exec (.routeHoldRelease node) s = .next a)

/-- Tier 2. Frames of a port that is up (R273, R274, R464): a frame with a bad CRC counts and is asked for again once; one that carries
nothing only acknowledges; one out of sequence is asked for again; the one expected is taken. REPLAY sends again from its FSEQ on,
LINK_CREDIT returns slots and sends what they cover, and TAG of the current group with a good tag ends the group. A port that is down
ignores them all. -/
def Obligations.LinkFrames : Prop :=
  ∀ (p : PortId) (s a : State), Meets s a →
    (∀ kind fseq fack fixed bad, 2 ≤ (a.port p).state →
      let x := { (a.port p) with fec := (a.port p).fec + fixed }
      exec (.frameReceive p kind fseq fack false fixed bad) s = .next (a.setPort p ({ x with crcCtr := x.crcCtr + 1 } : Port).askReplay)
      ∧ (kind = 0 → exec (.frameReceive p kind fseq fack true fixed bad) s = .next (a.setPort p (({ x with groupAge := x.groupAge + 1 } : Port).acked fack)))
      ∧ (kind ≠ 0 → fseq ≠ x.rxSeq → exec (.frameReceive p kind fseq fack true fixed bad) s = .next (a.setPort p (x.acked fack).askReplay))
      ∧ (kind ≠ 0 → fseq = x.rxSeq → x.encrypt = false → exec (.frameReceive p kind fseq fack true fixed bad) s = .next
          ((a.setPort p { (x.acked fack) with rxSeq := (x.rxSeq + 1) % 1024, rxb := x.rxb + 256, asked := false, groupAge := (x.acked fack).groupAge + 1 }).modSalt
            fun v => { v with badmsg := v.badmsg + bad })))
    ∧ (∀ fseq, 2 ≤ (a.port p).state → exec (.replay p fseq) s = .next (replayFrom a p fseq))
    ∧ (∀ vc hdrs flits, 2 ≤ (a.port p).state → vc < 4 → exec (.linkCredit p vc hdrs flits) s = .next (a.modPort p fun x =>
        ({ x with crHdr := tput 0 x.crHdr vc (tget 0 x.crHdr vc + hdrs), crData := tput 0 x.crData vc (tget 0 x.crData vc + flits) } : Port).drain))
    ∧ (∀ epoch fseq, (a.port p).encrypt = true → (a.port p).groupN ≠ 0 → (a.port p).groupSeq = fseq →
        exec (.tag p epoch fseq true) s = .next (a.modPort p fun x => { x with groupsRx := x.groupsRx + 1, groupN := 0, groupAge := 0, epochRx := epoch })
        ∧ exec (.tag p epoch fseq false) s = .next (groupFail a p)
        ∧ (64 ≤ (a.port p).groupAge → exec (.tagTimeout p) s = .next (groupFail a p)))
    ∧ ((a.port p).state < 2 → (∀ kind fseq fack ok fixed bad, exec (.frameReceive p kind fseq fack ok fixed bad) s = .next a)
        ∧ (∀ fseq, exec (.replay p fseq) s = .next a) ∧ (∀ vc h f, exec (.linkCredit p vc h f) s = .next a)
        ∧ (∀ r, exec (.train p r) s = .next a) ∧ (∀ r, exec (.retrain p r) s = .next a) ∧ (∀ r, exec (.portRetrain p r) s = .next a))

/-- Tier 2. Training (R270 to R272, R275, R286): TRAIN keeps what the peer tells; LINK_TRAINING trains a port that is not up; RETRAIN, and
PORT_RETRAIN where the replays ask for it, which tells the peer first, train again and count; PORT_DOWN drops what waits on the port and
holds the nodes that it leads to, as their port or their alternative, with requests outstanding. -/
def Obligations.LinkTraining : Prop :=
  ∀ (p : PortId) (s a : State), Meets s a →
    (∀ r, 2 ≤ (a.port p).state → exec (.train p r) s = .next (a.modPort p fun x => { x with peer := r.node, transit := r.transit, peerEnc := r.encrypt }))
    ∧ (∀ r, (a.port p).state < 2 → exec (.linkTraining p r) s = .next (trainPort a p r))
    ∧ (∀ r, 2 ≤ (a.port p).state →
        let t (x : State) := trainPort (x.modPort p fun x => { x with retrainCtr := x.retrainCtr + 1 }) p r
        let u (x : State) := if ((t x).port p).state < 2 then portDown (t x) p else t x
        exec (.linkTraining p r) s = .next a ∧ exec (.retrain p r) s = .next (u a)
        ∧ (mustRetrain a (a.port p) = true → exec (.portRetrain p r) s = .next (u (sendControl a p .retrain)))
        ∧ (mustRetrain a (a.port p) = false → exec (.portRetrain p r) s = .next a))
    ∧ ((a.port p).state ≠ 0 → exec (.portDown p) s = .next (holdNodes
        (a.modPort p fun x => { x with state := 0, lanes := 0, encrypt := false, txq := [], outq := [], waitq := [] })
        ((a.salt.routes.filter (fun e => (e.2.valid && e.2.port == p.val) || (e.2.altValid && e.2.alt == p.val))).map (·.1))))
    ∧ (∀ r, lanesUsed r.lanesOk = 15 → r.locked = true → r.peer.versions = 3 → a.ident.require.testBit p = false → (trainedPort a p r).state = 2
        ∧ (trainedPort a p r).version = 2 ∧ (trainedPort a p r).lanes = 15)

/-! ### Rakes -/

/-- Tier 2. One operation of a rake's program (R230, R231, Table 10-4): every active lane of the destination takes the operation's value of
that lane's operands, all read before the lane is written; RAKE_BEATS counts the operation's beats; nothing else of the chip changes.
Values of rake operations in one lane (Table 10-4, R231): MOV, the arithmetic of Table 5-8 for ADD, SUB, MUL, FMA, ABS, NEG, DIV, SQRT and
RSQRT, FNMA as FMA with A negated, MIN and MAX with a NaN losing, SIGN with zeros kept, and SELGT, which takes B where A is greater than
zero and else C; MOV and SELGT give the canonical NaN for a NaN (R33, R105). -/
def Obligations.RakeOperation : Prop :=
  (∀ (i : Instr) (r : RakeId) (op : Nat) (d : Fin 16) (x y z : BitVec 5) (s a : State), rakeRow i = some (r, op, d, x, y, z) → Meets s a →
    exec i s = .next (a.modRake r fun k => { k with
      e := k.active.foldl (fun t l => tput 0 t (d * 256 + l)
        (rakeLane op (rakeOperand k x.toNat l) (rakeOperand k y.toNat l) (rakeOperand k z.toNat l))) k.e
      ctr := tput 0 k.ctr 0x40 (tget 0 k.ctr 0x40 + if op = 0x0B ∨ op = 0x0C then 4 else 1) }))
  ∧ (∀ a b c : W32,
    let z (w : W32) : W32 := if fvNan (ofF32 w) then nan32 else w
    rakeLane 0x01 a b c = z a ∧ rakeLane 0x09 a b c = (vecLane 0x46 a b c).1 ∧ rakeLane 0x0A a b c = (vecLane 0x47 a b c).1 ∧ rakeLane 0x02 a b c = (vecLane 0x40 a b c).1 ∧ rakeLane 0x03 a b c = (vecLane 0x41 a b c).1
    ∧ rakeLane 0x04 a b c = (vecLane 0x42 a b c).1 ∧ rakeLane 0x05 a b c = (vecLane 0x43 a b c).1
    ∧ rakeLane 0x06 a b c = rakeLane 0x05 (a ^^^ 0x80000000#32) b c ∧ rakeLane 0x0B a b c = (vecLane 0x60 a b c).1
    ∧ rakeLane 0x0C a b c = (vecLane 0x61 a b c).1 ∧ rakeLane 0x0D a b c = (vecLane 0x63 a b c).1
    ∧ (fvNan (ofF32 a) = true → fvNan (ofF32 b) = false → ofF32 b ≠ .inf false → rakeLane 0x07 a b c = b)
    ∧ (fvNan (ofF32 a) = true → fvNan (ofF32 b) = false → ofF32 b ≠ .inf true → rakeLane 0x08 a b c = b)
    ∧ (fvNan (ofF32 a) = true → rakeLane 0x0E a b c = nan32 ∧ rakeLane 0x0F a b c = z c)
    ∧ (fvZero (ofF32 a) = true → rakeLane 0x0E a b c = a ∧ rakeLane 0x0F a b c = z c)
    ∧ (∀ m e, ofF32 a = .fin true m e → m ≠ 0 → rakeLane 0x0E a b c = 0xBF800000#32 ∧ rakeLane 0x0F a b c = z c)
    ∧ (∀ m e, ofF32 a = .fin false m e → m ≠ 0 → rakeLane 0x0E a b c = 0x3F800000#32 ∧ rakeLane 0x0F a b c = z b))

/-- Tier 2. BED_PASS (R216 to R218, R224, R235, R238). A rake whose first block may not be taken does nothing. A block that reads
uncorrectable, and one that meets a bed already updated, leave the queue resolved and are counted, and update no bed, and the reads of OWN
and the tails count; a block that finds no Gram slot waits; else the beds run, the Gram slots take the checked gradients, and the block counts as applied (unless all that it would
update is of rejected groups), in RAKE_REJECT where a group of it is rejected, and its mismatches as such. A rake phase begins with the
rejected groups marked, those enabled and not frozen whose COUNT is not the expected one (R224). What an update then does with a bed: an
invalid or frozen bed, and one of a group that is frozen or not enabled, is skipped without a check; one of a rejected group is rejected;
else STEP decides, one more than expected being a duplicate and any other difference a mismatch. -/
def Obligations.BedPassRuns : Prop :=
  (∀ (r : RakeId) (s a : State), Meets s a →
    (readyBlk a r = none → exec (.bedPass r) s = .next a)
    ∧ (∀ b, readyBlk a r = some b →
      let hs := (List.range 16).map fun k => (k, bedHdr a b.bed k)
      let fate (h : Nat × BedHdr) : BedFate := bedFate a b.step h.2
      let checked := hs.filter fun h => fate h != .skip && fate h != .rejected
      let keys := gramKeys a b.bed (hs.filter fun h => h.2.valid && !groupFrozen a h.2.group && fate h != .rejected)
      let upd := hs.filter fun h => fate h == .update
      let mis := (hs.filter fun h => fate h == .mismatch).length
      let bad := isPoisoned a b.own 4096 || isPoisoned a (b.bed + 0x0C00) (16 * 0x340)
      (bad = true → exec (.bedPass r) s = .next
        (let t := blkReads (rakeCount (popBlk a r b) r 0x70 1) b
         { t with rphase := { t.rphase with ue := t.rphase.ue + 1 } }))
      ∧ (bad = false → hs.any (fun h => fate h == .dup) = true → exec (.bedPass r) s = .next
        (let t := rakeCount (blkReads (popBlk a r b) b) r 0x10 1
         { t with rphase := { t.rphase with dups := t.rphase.dups + 1 } }))
      ∧ (bad = false → hs.any (fun h => fate h == .dup) = false → gramRoom (a.rake r) keys = false →
        exec (.bedPass r) s = .next a)
      ∧ (bad = false → hs.any (fun h => fate h == .dup) = false → gramRoom (a.rake r) keys = true →
        exec (.bedPass r) s = .next
        (let g := sumGrads a b
         let rej := hs.any fun h => fate h == .rejected
         let applied := !rej || !upd.isEmpty
         let t1 := runBeds (blkReads (popBlk a r b) b) r b.step b a.rphase.rseed g upd
         let t2 := keys.foldl (fun s e => gramBlock s r b.step e.1 e.2
           ((checked.filter fun h => h.2.group == e.1).map fun h => (g.drop (h.1 * 128)).take 128)) t1
         let t3 := rakeCount (if rej then rakeCount t2 r 0x20 1 else t2) r 0x28 mis
         let t4 := if applied then rakeCount t3 r 0x08 1 else t3
         { t4 with rphase := { t4.rphase with bedmis := t4.rphase.bedmis + mis, applied := t4.rphase.applied + b2n applied } }))))
  ∧ ((∀ (s : State) (c : Nat) (w : Sweep), (s.ctx c).sweep = some w → s.badRows = [] → (phaseBegin s c).rphase.rejected =
    (List.range (groupCount s)).filter fun g => (groupRec s g).enabled && !groupFrozen s g && (groupRec s g).count != (w.step + 2 ^ 32 - (groupRec s g).offset) % 2 ^ 32)
  ∧ ∀ (s : State) (step : Nat) (h : BedHdr),
    (h.valid = false ∨ h.frozen = true ∨ groupFrozen s h.group = true → bedFate s step h = .skip)
    ∧ (h.valid = true → h.frozen = false → groupFrozen s h.group = false →
      (s.rphase.rejected.contains h.group = true → bedFate s step h = .rejected)
      ∧ (s.rphase.rejected.contains h.group = false →
        let e := (step + 2 ^ 32 - (groupRec s h.group).offset) % 2 ^ 32
        (h.step = (e + 1) % 2 ^ 32 → bedFate s step h = .dup)
        ∧ (h.step = e → bedFate s step h = .update)
        ∧ (h.step ≠ (e + 1) % 2 ^ 32 → h.step ≠ e → bedFate s step h = .mismatch))))

/-- Tier 2. REFRESH (R236, R237): once the COUNTs are set, the rake's next refresh leaves its list; one that converges writes the root and
the block's header, one that does not marks the block for the diagonal program and counts; before that, on a halted rake, or with none due,
none runs. The phase closes behind its last refresh. The end of a rake phase (R216, R225, R443). RAKE_PHASE_END sets the COUNTs once every
expected block is resolved, and closes the phase where no refresh is left; blocks of the ended step then leave the queues as stale;
MISSING_BLOCK_TIMEOUT counts each missing block and does the same; RAKE_HARDWARE_FAULT halts the rake, dooms an intrusive test of it, and
reports it. -/
def Obligations.RakePhase : Prop :=
  (∀ (r : RakeId) (s a : State), Meets s a →
    let closed (u : State) : State := if u.rphase.active && u.rphase.counted && !refreshLeft u then closePhase u else u
    ((a.rake r).refresh = [] ∨ (a.rake r).halted = true ∨ a.rphase.counted = false → exec (.refresh r) s = .next (closed a))
    ∧ (∀ g b step rest, (a.rake r).refresh = (g, b, step) :: rest → (a.rake r).halted = false → a.rphase.counted = true →
        let t := a.modRake r fun k => { k with refresh := rest }
        let x := groupRec a g
        let u := readIn (if isPoisoned a (rootAddr x b) 65536 then noteBad t (rootAddr x b) 65536 else t) (statAddr x b) 65536
        exec (.refresh r) s = .next (closed (refreshBlock t r g b step))
        ∧ (isPoisoned a (statAddr x b) 65536 = true ∨ isPoisoned a (rootAddr x b) 65536 = true → refreshBlock t r g b step = refreshed u r x b step 1 none)
        ∧ (isPoisoned a (statAddr x b) 65536 = false → isPoisoned a (rootAddr x b) 65536 = false → refreshBlock t r g b step =
            refreshed u r x b step 4 (refreshTry (if x.root = 2 then 4 else 2) (readMat a (statAddr x b)) 4 1 x.eps0))))
  ∧ (∀ (s a : State), Meets s a →
    let closes (u : State) : State :=
      let v := countPhase u
      if refreshLeft v then v
      else rakeRelease ((List.range 8).foldl (fun s r => staleIn s v.rphase.ctx v.rphase.step r) (phaseEnd v))
    (phaseDone a = false → exec .rakePhaseEnd s = .next a)
    ∧ (phaseDone a = true → exec .rakePhaseEnd s = .next (closes a))
    ∧ (∀ v, v = countPhase a → v.rphase.counted = true ∧ v.rakes = a.rakes ∧ v.ctxs = a.ctxs)
    ∧ (a.rphase.active = false ∨ a.rphase.counted = true ∨ missingBeds a = [] → exec .missingBlockTimeout s = .next a)
    ∧ (a.rphase.active = true → a.rphase.counted = false → missingBeds a ≠ [] → exec .missingBlockTimeout s = .next
        (let t := (missingBeds a).foldl (fun s _ => countMissing s) { a with now := max a.now (a.rphase.at0 + 10000000000) }
         closes { t with rphase := { t.rphase with ue := t.rphase.ue + (missingBeds a).length } }))
    ∧ (∀ r : RakeId, exec (.rakeHardwareFault r) s = .next
        (reportFault (((a.modRake r fun k => { k with halted := true }).modSvc fun v => { v with running := v.running.map fun (t : Test) =>
            if t.intrusive && t.block == 0x0A && t.index == r.val then { t with doomed := true } else t }).modFaults fun f => { f with hwfNew := true })
          { status := stHWFAULT, source := 2, index := r })))

/-! ### The stage schedule, heat and hardware faults -/

/-- Tier 2. Times of the stage schedule (R191, R195, R208, R210, R371): STEP_FENCE opens a closed fence once the step has its heads, and
the next step begins; PERIOD_START begins the period of a live deadline context that is in none; PERIOD_END stops the units of the period,
settles its commands EXPIRED, resets its trays and pegs, moves its number and end on and opens the gap, in which a waiting configuration
comes and behind which the next period begins, and does nothing outside a period; PLOT_RECONFIG takes the new size where its conditions
hold; SLICE_END of a best-effort unit has the Trellis decide again. The blocks that attention reads (R206): every block of a sequence of
at most 32 + RECENT full blocks, and always the RECENT newest full blocks and the partial one. -/
def Obligations.ScheduleTimes : Prop :=
  ∀ (s a : State), Meets s a →
    (∀ c : CtxId, (a.ctx c).fenceClosed = true → (a.rphase.active = false ∨ a.rphase.ctx ≠ c.val) →
      ((a.ctx c).sweep = none →
        exec (.stepFence c) s = .next (fenceHarvest { (a.modCtx c fun x => { x with fenceClosed := false }) with schedPhase := 0 } c))
      ∧ (∀ w, (a.ctx c).sweep = some w → (w.serving = true ∨ w.phase ≠ 3) → exec (.stepFence c) s = .next
          (fenceHarvest { (a.modCtx c fun x => { x with fenceClosed := false }) with schedStep := w.step, schedPhase := 1 } c))
      ∧ (∀ w, (a.ctx c).sweep = some w → w.serving = false → w.phase = 3 → exec (.stepFence c) s = .next a))
    ∧ (∀ c : CtxId, (a.ctx c).fenceClosed = false → exec (.stepFence c) s = .next a)
    ∧ (∀ c : CtxId, (a.ctx c).live = true → (a.ctx c).faulted = false → (a.ctx c).deadline = true → (a.ctx c).inPeriod = false → 0 < (a.ctx c).period →
      let now := max a.now (a.ctx c).pstart
      let k := (now - (a.ctx c).pstart) / (a.ctx c).period
      exec (.periodStart c) s = .next (beginPeriod (({ a with now := now } : State).modCtx c fun x => { x with periodNo := k, tend := (a.ctx c).pstart + (k + 1) * (a.ctx c).period }) c))
    ∧ (∀ c : CtxId, (a.ctx c).inPeriod = false ∨ (a.ctx c).deadline = false → exec (.periodEnd c) s = .next (flushAcks a))
    ∧ (a.plotWait = true → streaming a = false → a.saved = [] → (∀ e ∈ a.ctxs, e.2.inPeriod = false) → a.units = [] →
      exec .plotReconfig s = .next { a with plotsz := a.plotNext, plotWait := false, reconf := a.reconf + 1 })
    ∧ (∀ c : CtxId, (a.ctx c).live = true → (a.ctx c).faulted = false → (a.ctx c).deadline = true → (a.ctx c).inPeriod = true →
      let a0 : State := { a with now := max a.now (a.ctx c).tend }
      let started := a0.units.any (fun u => u.ctx == c.val && u.st ≥ 2 && u.st ≤ 5) || ((a.ctx c).sweep.map fun w => !w.igrDone.isEmpty && w.phase == 1) == some true
      let a1 := expireCmds (stopUnits a0 c).1 c
      let a2 := ((workTrays a1 c).filter fun t => (a1.tray t).periodic).foldl (fun s t => periodReset s t fun _ => true) a1
      let a3 := (restorePegs a2 c).modCtx c fun x => { x with
        expired := x.expired + (stopUnits a0 c).2, periodNo := (x.periodNo + 1) % 2 ^ 32, tend := x.tend + x.period, inPeriod := false, vcommit := 0, rateC := 0
        overcommit := false, broken := false, gapWait := true }
      let a4 := a3.modSweep c fun w => if started then { w with step := (w.step + 1) % 2 ^ 32 } else w
      exec (.periodEnd c) s = .next (flushAcks (openGap a4)))
    ∧ (∀ (b : State) (c : Nat), (gapOpen b = true → openGap b = b)
      ∧ (gapOpen b = false → ((liveCtxs b).filter fun c => (b.ctx c).gapWait) = [c] → openGap b = beginPeriod (plotReconfig b) c))
    ∧ (∀ id u, (a.units.find? fun u => u.id == id && u.st == 2) = some u → isDeadline a u = false → exec (.sliceEnd id) s = .next
        (trellisDecide (a.units.length + 1) { a with now := max a.now (u.sliceAt + u.sliceLen) }))
    ∧ (∀ id, (a.units.find? fun u => u.id == id && u.st == 2) = none → exec (.sliceEnd id) s = .next a)
    ∧ (∀ (recent l : Nat) (score : Nat → W32),
      (l / 64 ≤ 32 + recent → ∀ j, 64 * j < l → j ∈ attended recent l score)
      ∧ (∀ j, 64 * j < l → l / 64 ≤ j + recent → j ∈ attended recent l score) ∧ ∀ j ∈ attended recent l score, 64 * j < l)

/-- Tier 2. Hardware faults of cores (R385, R439). HANDSHAKE_TIMEOUT and PARITY_FAULT fence the core, once, and doom an intrusive test of it
(R478); a fenced core stays fenced.
SENSOR_FAIL_TIMEOUT of a core whose sensor fails reports a hardware fault. Rings that wait for a neighbour (R437): RING_RESTART releases
the failed descriptor of every halted ring of a waiting unit again; NEIGHBOUR_WAIT_TIMEOUT faults the unit with ST_LINK ten seconds after
its first halt, and reports it. -/
def Obligations.CoreFaults : Prop :=
  (∀ (c : CoreId) (s a : State), Meets s a →
    let hit (t : Test) : Bool := t.intrusive && coreBlock t.block && t.index == c.val
    (a.svc.running.any hit = false → exec (.handshakeTimeout c) s = .next (fenceCore a c) ∧ exec (.parityFault c) s = .next (fenceCore a c))
    ∧ (a.svc.running.any hit = true →
      let t := fenceCore (unfence (a.modSvc fun v => { v with running := v.running.map fun (t : Test) => if hit t then { t with doomed := true } else t }) c) c
      exec (.handshakeTimeout c) s = .next t ∧ exec (.parityFault c) s = .next t)
    ∧ ((a.core c).mode = .fenced → fenceCore a c = a)
    ∧ ((a.core c).failAt = none → exec (.sensorFailTimeout c) s = .next a)
    ∧ (∀ t, (a.core c).failAt = some t → exec (.sensorFailTimeout c) s = .next (reportFault
        (({ a with now := max a.now (t + 1000000) } : State).modFaults fun f => { f with hwfNew := true }) { status := stHWFAULT, source := 0x0A, index := c })))
  ∧ (∀ (s a : State), Meets s a →
    exec .ringRestart s = .next ((a.units.filter WUnit.waitRing).foldl (fun s u => u.cores.foldl (fun s n =>
      [0, 1].foldl (fun s m => (List.range 4).foldl (fun s r => restartRing s n m r) s) s) s) a)
    ∧ (∀ n m r t i rest, (a.ring n m r).haltAt = some t → (a.ring n m r).failed = i :: rest → (a.ring n m r).halted = true → (a.ring n m r).live = [] →
        restartRing a n m r = (writeLE a ((a.ring n m r).addr i) 4 (setBits (readLE a ((a.ring n m r).addr i) 4) 0 1 1)).modRing n m r fun x => { x with halted := false })
    ∧ (∀ id, (a.units.find? fun u => u.id == id && u.waitRing) = none → exec (.neighbourWaitTimeout id) s = .next a)
    ∧ (∀ id u t, (a.units.find? fun u => u.id == id && u.waitRing) = some u → firstHalt a u = some t → exec (.neighbourWaitTimeout id) s = .next
        (setNwait (reportFault (unitFault { a with now := max a.now (t + 10000000000) } u stLINK)
          { status := stLINK, source := 7, action := 3, index := (u.cores.head?).getD 0, ctx := u.ctx }))))

/-- Tier 2. Heat and voltage (R368, R374, R377, R384, R499): CURRENT_READ keeps the current, in A by the configured unit, and holds CAL within 0.5 to 2.0; AVS_POLL keeps
the regulator's temperature, and AVS_ALERT nothing, and a poll or alert that is not answered, or tells a fault, counts as a failure;
HEAT_RECORD sends the records and begins new counts; TICK is the Trellis's tick, behind which a sensor at 115 °C trips the part. The energy
of a tick (Table 15-3) joins the package energy, and the leakage at 85 °C and 750 mV is 120 W. The heat states of Table 15-2 and their order: at the temperature ceiling, or beyond 105 % of the power
limit, CRIT; within 5 °C or 2 % HOT; from 15 °C and 10 % below on COOL; else WARM. Every tick takes one of the four. The balls of the
package's centre carry the core rail and ground in turn, but for the two sense balls, and each ring of the ring region one rail (R483, R484). -/
def Obligations.HeatAndVoltage : Prop :=
  (∀ (s a : State), Meets s a →
    (∀ raw, exec (.currentRead raw true false) s = .next (refreshCeil (a.modTrellis fun t =>
      let unit := (config a.start.inputs).currentUnit
      let amps := raw * (if unit = 0 then 100 else unit) / 100
      let u := { t with imeas := amps, amps := (amps :: t.amps).take 20, curFail := false }
      { u with cal := calOf u })))
    ∧ (∀ raw ack fault, ack = false ∨ fault = true → exec (.currentRead raw ack fault) s = .next (avsFailed (a.modTrellis fun t => { t with curFail := true })))
    ∧ (∀ t : Trellis, 0x80 ≤ t.cal → t.cal ≤ 0x200 → 0x80 ≤ calOf t ∧ calOf t ≤ 0x200)
    ∧ (∀ mv temp, exec (.avsPoll mv temp true false) s = .next ((voltageRead a mv).modTrellis fun t => { t with tavs := temp }))
    ∧ (∀ mv temp, exec (.avsPoll mv temp true true) s = .next (avsFailed ((voltageRead a mv).modTrellis fun t => { t with tavs := temp })))
    ∧ (∀ mv temp fault, exec (.avsPoll mv temp false fault) s = .next (avsFailed a))
    ∧ exec (.avsAlert true false) s = .next a ∧ (∀ fault, exec (.avsAlert false fault) s = .next (avsFailed a)) ∧ exec (.avsAlert true true) s = .next (avsFailed a)
    ∧ exec .heatRecord s = .next (heatRecords a)
    ∧ (∀ i : TickIn, (∀ e ∈ i.temps, e.2 < 1150) → exec (.tick i) s = .next (heatTick a i))
    ∧ (∀ i : TickIn, (∃ e ∈ i.temps, 1150 ≤ e.2) → exec (.tick i) s = .next (hardwareTrip (heatTick a i))))
  ∧ (∀ b : State, (noteTick b).trellis.energy = b.trellis.energy + packageAt b (tickWork b).1 (tickWork b).2 b.trellis.vtarget
    ∧ ((∀ n, n < 128 → coreTemp b n = 850) → leakAt b 750 = 1200000))
  ∧ (∀ r c, 21 ≤ r → r ≤ 78 → 21 ≤ c → c ≤ 78 → ¬ (r = 50 ∧ (c = 49 ∨ c = 50)) → ballAt r c = if (r + c) % 2 = 0 then .vddCore else .vss)
  ∧ (∀ r c, ballRing r c = true → ballAt r c = ringBall (ringDepth r c))
  ∧ (∀ (tmax : Int) (tj pavg plimit : Nat),
    (((tj : Int) * 10 ≤ tmax ∨ 105 * plimit < 100 * pavg) → heatState tmax tj pavg plimit = 3)
    ∧ (tmax < (tj : Int) * 10 → 100 * pavg ≤ 105 * plimit →
      ((tj : Int) * 10 < tmax + 50 ∨ 98 * plimit < 100 * pavg → heatState tmax tj pavg plimit = 2)
      ∧ (tmax + 50 ≤ (tj : Int) * 10 → 100 * pavg ≤ 98 * plimit →
        (tmax + 150 ≤ (tj : Int) * 10 ∧ 100 * pavg ≤ 90 * plimit → heatState tmax tj pavg plimit = 0)
        ∧ (¬ (tmax + 150 ≤ (tj : Int) * 10 ∧ 100 * pavg ≤ 90 * plimit) → heatState tmax tj pavg plimit = 1))))

/-! ### Commands of the rings -/

/-- Tier 2. Every row of Table 14-7 (R337, R358): out of its turn nothing of it is read; in its turn it is accepted with the next ASEQ and
the ring goes on; on an otherwise empty ring a command that fails a check of R337 settles FAULTED with that status, and one that passes
starts at once. A completion record has the layout of Table 14-3. -/
def Obligations.CommandsTaken : Prop :=
  ∀ (i : Instr) (c : CtxId) (r : Cmd) (s a : State), cmdRow i = some (c, r) → Meets s a →
    (¬ MayRead a c r → exec i s = .next (ringPump a c))
    ∧ (MayRead a c r → exec i s = .next (ringPump (acceptCmd a c r) c))
    ∧ (MayRead a c r → (a.ctx c).cmds = [] → (a.ctx c).badOps = [] → headerStatus a c r ≠ stOK →
        exec i s = .next (ringStarts c 1 (refuse (acceptCmd a c r) c (a.ctx c).aseq (headerStatus a c r))))
    ∧ (∀ t k, Starts i s t c k → exec i s = .next (ringStarts c 1 (startByOp t c k)))
    ∧ (∀ (y : Ctx) (n : Nat) (k : Cmd) (disp st res now : Nat),
        let b := recordBytes y n k disp st res now
        let f (o m : Nat) : Nat := leNat ((b.drop o).take m)
        disp ≤ 3 → b.length = 32 ∧ f 0 4 = k.hdr.cmdid % 2 ^ 32 ∧ f 4 1 = k.op % 2 ^ 8 ∧ f 5 1 = disp + (if y.cmplIdx / 2 ^ y.cmplLog2 % 2 = 0 then 4 else 0) ∧ f 6 2 = n % 2 ^ 16
          ∧ f 8 2 = st % 2 ^ 16 ∧ f 0x0A 2 = 0 ∧ f 0x0C 4 = k.aseq % 2 ^ 32 ∧ f 0x10 8 = (if disp = dDONE then res % 2 ^ 64 else 0) ∧ f 0x18 8 = now % 2 ^ 64)

/-- Tier 2. SESSION_OPEN (R344, R346) opens a session at the highest version of Table 14-5 in its range, destroys or adopts the contexts
and locks the console; SESSION_CLOSE destroys every context but 0, and settles, closing the session, once it stands first on context 0
(R346). CTX_CREATE (R351) makes a context with the number asked for, or the
lowest free one; CTX_DESTROY (R350) ends its TARGET; CTX_CONFIG (R352) gives its TARGET the sections that it carries. -/
def Obligations.SessionAndContextCommands : Prop :=
  ∀ (c : Nat) (k : Cmd) (s t : State) (x : CtxId) (h : CmdHdr) (p : List Byte),
    (∀ v, Starts (.sessionOpen x h p) s t c k → (versions.filter fun v => k.fld 0 2 ≤ v && v ≤ k.fld 2 2).getLast? = some v → k.fld 0 2 ≤ k.fld 2 2 →
      parRsvd k [(0, 5)] = false → k.fld 4 1 ≤ 3 → (k.fld 4 1 ≠ 0 → 0x202 ≤ v) → (t.sess.opened = true → k.fld 4 1 % 2 = 1) → t.svc.running = [] →
      let adopt := bitsAt (k.fld 4 1) 1 1 == 1
      let s1 := if adopt then (otherCtxs t).foldl (fun s n => s.modCtx n fun x => { x with orphan := false, fresh := true }) t else (otherCtxs t).foldl destroyCtx t
      exec (.sessionOpen x h p) s = .next (settled c k (v + (if adopt then (otherCtxs t).length else 0) * 2 ^ 16)
        { (s1.modFaults fun f => { f with hostlost := false }) with
          sess := { s1.sess with opened := true, version := v, number := s1.sess.number + 1 }, svc := { s1.svc with locked := true, lockAfter := false } }))
    ∧ (Starts (.sessionClose x h p) s t c k →
      exec (.sessionClose x h p) s = .next (ringStarts c 1
        (closeSession (modCmd ((otherCtxs t).foldl destroyCtx t) c k.aseq fun k => { k with mark := (otherCtxs t).length }))))
    ∧ (∀ (u : State) (r : Cmd) (l : List Cmd), (u.ctx 0).cmds = r :: l → (r.op = 0x02 ∧ r.started = true →
        closeSession u = { settle u 0 r.aseq dDONE stOK r.mark with sess := { u.sess with opened := false, version := 0 } })
      ∧ (¬ (r.op = 0x02 ∧ r.started = true) → closeSession u = u))
    ∧ (∀ n, Starts (.ctxCreate x h p) s t c k →
      let y : Ctx := { live := true, prio := k.fld 2 1, cls := k.fld 3 1, pegQuota := k.fld 4 2, vector := k.fld 6 2, memQuota := k.fld 8 4, cores := maskBits 128 (k.fld 0x10 16)
                       cmdBase := k.fld 0x20 8, cmdLog2 := k.fld 0x28 1, cmplLog2 := k.fld 0x29 1, cmplBase := k.fld 0x30 8 }
      parRsvd k [(0, 12), (0x10, 26), (0x30, 8)] = false → k.fld 0 2 ≤ 4095 → y.prio ≤ 7 → y.cls ≤ 15 → y.pegQuota ≤ 4096 → 1 ≤ y.vector → y.vector ≤ 2047 → y.cores ≠ [] →
      2432 * y.cores.length ≤ y.memQuota * 1024 → y.cmdBase % 4096 = 0 → y.cmplBase % 4096 = 0 → 6 ≤ y.cmdLog2 → y.cmdLog2 ≤ 16 → 6 ≤ y.cmplLog2 → y.cmplLog2 ≤ 16 →
      (t.image.isSome = true → heapUsed t + saveBytes y ≤ heapSize t) → y.cores.length ≤ (slotsFor t y.cls y.cores.length).length →
      (k.fld 0 2 = n ∧ n ≠ 0 ∧ (t.ctx n).live = false) ∨ (k.fld 0 2 = 0 ∧ (countFrom 1 4095).find? (fun i => !(t.ctx i).live) = some n) →
      exec (.ctxCreate x h p) s = .next (settled c k n (t.setCtx n { y with slots := slotsFor t y.cls y.cores.length })))
    ∧ (Starts (.ctxDestroy x h p) s t c k → k.hdr.target ≠ 0 → (t.ctx k.hdr.target).live = true →
      exec (.ctxDestroy x h p) s = .next (settled c k 0 (destroyCtx t k.hdr.target)))
    ∧ (∀ y far, Starts (.ctxConfig x h p) s t c k → (t.ctx k.hdr.target).live = true ∨ k.hdr.target = 0 → (t.ctx k.hdr.target).faulted = false →
      let farN := if (configSections k.par).contains 5 then k.fld (sectionAt k.par 5 + 4) 2 else 0
      (if farN = 0 then Except.ok [] else readExt t c k.hdr.haddr (16 * farN)) = .ok far → configured t k.hdr.target k far = .ok y →
      exec (.ctxConfig x h p) s = .next (settled c k 0 (if (configSections k.par).contains 6 then moveHeld (t.setCtx k.hdr.target y) k.hdr.target else t.setCtx k.hdr.target y)))

/-- Tier 2. STAGE_LOAD (R353) takes the image into the block, with the modes of the tracts past the pool (R154), its content and its measurement;
the save slots and page pools that the contexts already have are placed anew, or it is refused with ST_NO_MEMORY. STAGE_DRAIN begins the
drain, which in mode 1 cancels the running sweeps. TRAY_CONFIG (R178, R354) places the tray's area at the lowest free range of the pool and
configures the tray; TRAY_RELEASE releases an empty tray; TRAY_FLUSH (R181) settles its packets CANCELLED. -/
def Obligations.StageAndTrayCommands : Prop :=
  ∀ (c : Nat) (k : Cmd) (s t : State) (x : CtxId) (h : CmdHdr) (p : List Byte),
    (∀ im : Image, Starts (.stageLoad x h p im) s t c k →
      let a := k.fld 0 8 % 2 ^ 48
      let len := k.fld 8 8
      let nres := if k.fld 0x10 1 = 0 then 16 else k.fld 0x10 1
      parRsvd k [(0, 17)] = false → 4 ≤ nres → nres ≤ 128 → t.image = none → t.draining = none →
      (k.fld 0 8 / 2 ^ 48 = 0xFFFE ∧ inRegion (t.ctx c) a len false = true ∧ t.cxl.up = true ∧ (spanLines 64 a len).any t.hostPoison.contains = false)
        ∨ (k.fld 0 8 / 2 ^ 48 ≠ 0xFFFE ∧ (k.fld 0 8 / 2 ^ 48 = t.salt.node ∨ k.fld 0 8 / 2 ^ 48 = 0xFFFF) ∧ hdmStart t ≤ a ∧ inLp a len = true ∧ isPoisoned t a len = false) →
      0x400 ≤ im.fmtVer → im.fmtVer ≤ 0x402 → im.digestOk = true → imageFits t im nres = true → imageBad im = false →
      let t1 := { t with
        image := some im, nRes := nres, spSplit := im.split, spReserve := im.reserve, solo := [], affinity := []
        tractModes := (im.tractModes.filter fun e => decide (5 + nres ≤ e.1)).foldl (fun t e => tput 0 t e.1 e.2) (t.tractModes.filter fun e => decide (e.1 < 5)) }
      (∀ u, placeAll t1 = some u →
        exec (.stageLoad x h p im) s = .next (settled c k im.fmtVer (setMeas (writePieces u (im.content.map fun e => (e.1, [e.2]))) 7 im.digest)))
      ∧ (placeAll t1 = none → exec (.stageLoad x h p im) s = .next (ringStarts c 1 (refuse t c k.aseq stNOMEM))))
    ∧ (Starts (.stageDrain x h p) s t c k → parRsvd k [(0, 1)] = false → k.fld 0 1 ≤ 1 → t.image.isSome = true → t.draining = none →
      (k.fld 0 1 = 0 → exec (.stageDrain x h p) s = .next (ringStarts c 1 { t with draining := some 0 }))
      ∧ (k.fld 0 1 = 1 → exec (.stageDrain x h p) s = .next (ringStarts c 1
          (((liveCtxs t).filter fun n => (t.ctx n).sweep.isSome).foldl (fun s n => s.modSweep n fun w => { w with cancelling := true }) { t with draining := some 1 }))))
    ∧ (∀ base, Starts (.trayConfig x h p) s t c k →
      let n := k.fld 0 2
      let fl := k.fld 3 1
      let fmt := bitsAt fl 1 2
      let sl := configSlots k 2 0 0
      64 ≤ n → n ≤ 32767 → (t.tray n).kind = 0 ∨ (t.tray n).ctx = c → 1 ≤ k.fld 2 1 → k.fld 2 1 ≤ 3 → fmt = 1 ∨ fmt = 2 →
      parRsvd k ([(0, 7), (8, 12)] ++ (List.range (k.fld 6 1)).map fun i => (0x40 + 16 * i, 12)) = false → (List.range (k.fld 6 1)).any (fun i => k.fld (0x42 + 16 * i) 2 != 0) = false →
      fl ≤ 15 → k.fld 4 1 ≤ k.fld 5 1 → k.fld 5 1 ≤ 7 → k.fld 6 1 ≤ 16 → (k.fld 2 1 ≠ 1 → k.fld 6 1 = 0) → 1 ≤ k.fld 8 4 → k.fld 8 4 ≤ 65536 → 1 ≤ k.fld 0x0C 4 →
      100 ≤ k.fld 0x10 4 → k.fld 0x10 4 ≤ 100000 → (sl.map fun e => e.2.pktLimit).foldl (· + ·) 0 ≤ k.fld 8 4 → (sl.map fun e => e.2.wordLimit).foldl (· + ·) 0 ≤ k.fld 0x0C 4 →
      (t.tray n).packets = [] → poolPlace (t.setTray n { t.tray n with mib := 0 }) (areaMib (k.fld 0x0C 4) (k.fld 8 4)) = some base →
      exec (.trayConfig x h p) s = .next (settled c k base ((releaseReaders (t.setTray n { t.tray n with mib := 0 }) n).setTray n
        { kind := k.fld 2 1, readmode := bitsAt fl 0 1 == 1, fmtver := fmt, pmin := k.fld 4 1, pmax := k.fld 5 1, periodic := bitsAt fl 3 1 == 1, ctx := c
          maxpkt := k.fld 8 4, timeout := k.fld 0x10 4, base := base, mib := areaMib (k.fld 0x0C 4) (k.fld 8 4), ringWords := k.fld 0x0C 4
          slots := if k.fld 2 1 = 1 then configSlots k fmt (k.fld 8 4) (k.fld 0x0C 4) else [] })))
    ∧ (Starts (.trayRelease x h p) s t c k → k.fld 2 1 = 0 → 64 ≤ k.fld 0 2 → k.fld 0 2 ≤ 32767 → (t.tray (k.fld 0 2)).kind ≠ 0 → (t.tray (k.fld 0 2)).ctx = c →
      parRsvd k [(0, 3)] = false → (t.tray (k.fld 0 2)).packets = [] →
      exec (.trayRelease x h p) s = .next (settled c k 0 (releaseTray t (k.fld 0 2))))
    ∧ (Starts (.trayFlush x h p) s t c k → parRsvd k [(0, 2)] = false → 64 ≤ k.fld 0 2 → k.fld 0 2 ≤ 32767 → (t.tray (k.fld 0 2)).kind ≠ 0 → (t.tray (k.fld 0 2)).ctx = c →
      exec (.trayFlush x h p) s = .next (settled c k ((t.tray (k.fld 0 2)).packets.filter fun q => q.st == .ready || q.st == .open).length
        (flushTray t (k.fld 0 2) dCANCELLED stCANCELLED)))

/-- Tier 2. SWEEP_RUN (R354) gives its context the sweep that its parameters describe, lifting the hold of a restore whose
step it continues (R402), and SWEEP_RUN_STOP asks the running one to end, or
settles at once. SEQ_JOIN and SEQ_LEAVE (R200) enter a sequence, withdraw one that waits, and mark one that runs. RAKE_PROGRAM (R230) and
RAKE_GROUP (R232) take effect at once outside a rake phase, and inside one are held to its end (R233). -/
def Obligations.SweepAndRakeCommands : Prop :=
  ∀ (c : Nat) (k : Cmd) (s t : State) (x : CtxId) (h : CmdHdr) (p : List Byte),
    (Starts (.sweepRun x h p) s t c k → parRsvd k [(0, 4), (8, 34), (0x30, 12)] = false → k.fld 1 1 = 0 → t.draining = none → t.image.isSome = true → periodBad (t.ctx c) k = false →
      (k.fld 2 2 = 0 ∨ ((t.tray (k.fld 2 2)).kind = 3 ∧ (t.tray (k.fld 2 2)).ctx = c)) →
      ctxHeap t (t.ctx c) true ≤ (t.ctx c).memQuota * 0x100000 → heapUsed t + roundUp (imageD t).ctxBytes 256 ≤ heapSize t →
      let w : Sweep := { aseq := k.aseq, serving := k.fld 0 1 == 1, tele := k.fld 2 2, rseed := BitVec.ofNat 64 (k.fld 8 8), first := k.fld 0x10 4, nsteps := k.fld 0x14 4
                         m := k.fld 0x18 2, fwd := if k.fld 0 1 = 1 then k.fld 0x18 2 else k.fld 0x1A 2, igr := if k.fld 0 1 = 1 then k.fld 0x1A 2 else k.fld 0x1C 2
                         wgr := k.fld 0x1E 2, sched := k.fld 0x20 8, nseg := k.fld 0x28 2, shard := k.fld 0x30 8, nshard := k.fld 0x38 4, step := k.fld 0x10 4 }
      (k.fld 0 1 = 1 → kindIs t w.fwd 4 = true → kindIs t w.igr 5 = true → exec (.sweepRun x h p) s = .next (ringStarts c 1 (t.modCtx c fun x => { x with sweep := some w })))
      ∧ (k.fld 0 1 = 0 → (t.ctx c).deadline = false → w.m = (imageD t).m → kindIs t w.fwd 1 = true → kindIs t w.igr 2 = true → kindIs t w.wgr 3 = true → w.nsteps ≠ 0 →
          schedBad t w.sched w.nseg = false →
          let lift := (t.ctx c).restored.map (fun n => (n + 1) % 2 ^ 32) == some w.first
          let s1 := (if lift then liftHold t else t).modCtx c fun x => { x with sweep := some w, restored := if lift then none else x.restored }
          exec (.sweepRun x h p) s = .next (ringStarts c 1 { s1 with schedStep := w.step, schedPhase := if (t.ctx c).fenceClosed then s1.schedPhase else 1 })))
    ∧ (Starts (.sweepRunStop x h p) s t c k → parRsvd k [(0, 4), (8, 34), (0x30, 12)] = false → k.fld 0 1 ≤ 1 → k.fld 1 1 = 1 →
      ((t.ctx c).sweep.isSome = true → exec (.sweepRunStop x h p) s = .next (ringStarts c 1 (t.modSweep c fun w => { w with stop := true })))
      ∧ ((t.ctx c).sweep = none → exec (.sweepRunStop x h p) s = .next (settled c k 0 t)))
    ∧ (Starts (.seqJoin x h p) s t c k → parRsvd k [(0, 12)] = false → periodBad (t.ctx c) k = false → 1 ≤ k.fld 8 4 → k.fld 8 4 ≤ k.fld 4 4 → k.fld 4 4 ≤ 16777216 →
      (t.ctx c).seqs.any (fun q => q.id == k.fld 0 4) = false → ((t.ctx c).sweep.map Sweep.serving) = some true →
      (reserveOf (imageD t) (k.fld 4 4)).1 ≤ (t.ctx c).kvLocal * 0x100000 → (reserveOf (imageD t) (k.fld 4 4)).2 ≤ farPool (t.ctx c) →
      exec (.seqJoin x h p) s = .next (ringStarts c 1 (t.modCtx c fun x => { x with seqs := x.seqs ++ [{ id := k.fld 0 4, st := 1, maxlen := k.fld 4 4, locB := (reserveOf (imageD t) (k.fld 4 4)).1, farB := (reserveOf (imageD t) (k.fld 4 4)).2, at0 := t.now, joinAseq := k.aseq, entry := freeEntry (t.ctx c) }] })))
    ∧ (∀ q, Starts (.seqLeave x h p) s t c k → (t.ctx c).seqs.find? (fun q => q.id == k.fld 0 4 && q.st != 4) = some q → parRsvd k [(0, 4)] = false → periodBad (t.ctx c) k = false →
      (q.st = 3 → exec (.seqLeave x h p) s = .next (ringStarts c 1 (t.modCtx c fun x => { x with
        seqs := modFirst (fun e => e.id == k.fld 0 4) (fun e => { e with st := 4, leaveAseq := some k.aseq }) x.seqs })))
      ∧ (q.st ≠ 3 → exec (.seqLeave x h p) s = .next (settled c k q.l
          (settle (t.modCtx c fun x => { x with seqs := delFirst (fun e => e.id == k.fld 0 4) x.seqs }) c q.joinAseq dCANCELLED stCANCELLED 0))))
    ∧ (Starts (.rakeProgram x h p) s t c k → rakeProgramStatus t k = stOK →
      (t.rphase.active = false → exec (.rakeProgram x h p) s = .next (settled c k 0 { t with rakeProgs := tput [] t.rakeProgs (k.fld 0 1) (programWords k) }))
      ∧ (t.rphase.active = true → exec (.rakeProgram x h p) s = .next (ringStarts c 1 { t with rakeHeld := t.rakeHeld ++ [(c, k.aseq)] })))
    ∧ (∀ b, Starts (.rakeGroup x h p) s t c k → rakeGroupData t c k = .ok b →
      (t.rphase.active = false → exec (.rakeGroup x h p) s = .next (settled c k (k.fld 4 4) ((List.range (k.fld 4 4)).foldl (fun s i =>
        writeMem s (groupAt s (k.fld 0 2 + i)) (leBytes 1 (bitsAt ((((b.drop (128 * i)).take 128).getD 0 0).toNat) 0 7) ++ ((b.drop (128 * i)).take 128).drop 1)) t)))
      ∧ (t.rphase.active = true → exec (.rakeGroup x h p) s = .next (ringStarts c 1 { t with rakeHeld := t.rakeHeld ++ [(c, k.aseq)] })))

/-- Tier 2. Pegs through the ring (R262 to R265): PEG_ALLOC maps COUNT VPIDs to free pegs, PEG_FREE frees them and PEG_RESET restores INIT,
each with a swap; PEG_SIGNAL settles DONE once its signal is applied, and is refused with ST_BAD_PARAM for an unmapped VPID or an AMOUNT of
0; PEG_WAIT is kept on its peg, and settles FAULTED with ST_OWNER_LOST on a poisoned one; PEG_WAIT_TIMEOUT settles the wait EXPIRED and
consumes nothing; PEG_DUMP writes the records. -/
def Obligations.PegCommands : Prop :=
  ∀ (c : Nat) (k : Cmd) (s t : State) (x : CtxId) (h : CmdHdr) (p : List Byte),
    (Starts (.pegAlloc x h p) s t c k → k.fld 0 1 = 0 → pegRangeBad k = false → (countFrom (k.fld 2 2) (k.fld 4 2)).any (fun v => (vpidPhys t c v).isSome) = false →
      1 ≤ k.fld 1 1 → k.fld 1 1 ≤ 3 → (k.fld 1 1 = 2 → k.fld 8 4 ≤ 1) → (k.fld 1 1 = 3 → k.fld 6 2 ≠ 0) → (k.fld 0x0D 1 < 128 ∨ k.fld 0x0D 1 = 0xFF) → k.fld 0x0E 2 ≤ k.fld 0x10 2 →
      (t.ctx c).vpids.length + k.fld 4 2 ≤ (t.ctx c).pegQuota → k.fld 4 2 ≤ pegsFree t →
      exec (.pegAlloc x h p) s = .next (settled c k (k.fld 4 2) (pegSwap
        (((List.range (k.fld 4 2)).zip (scanFree t 262144 (k.fld 4 2) (if k.fld 0x0D 1 = 0xFF then 0 else k.fld 0x0D 1 * 2048))).foldl (fun s e =>
          (s.setPeg e.2 { mode := k.fld 1 1, value := k.fld 8 4, init := k.fld 8 4, parties := if k.fld 1 1 = 3 then k.fld 6 2 else 0, owner := c, vpid := k.fld 2 2 + e.1
                          remote := bitsAt (k.fld 0x0C 1) 0 1 == 1, periodic := bitsAt (k.fld 0x0C 1) 1 1 == 1, nodeLo := k.fld 0x0E 2, nodeHi := k.fld 0x10 2 }).modCtx c
            fun x => { x with vpids := tset x.vpids (k.fld 2 2 + e.1) e.2 }) t) c (countFrom (k.fld 2 2) (k.fld 4 2)))))
    ∧ (Starts (.pegFree x h p) s t c k → k.fld 0 1 = 1 → pegRangeStatus t c k = stOK →
      exec (.pegFree x h p) s = .next (settled c k (k.fld 4 2) (pegSwap (freePegs t c (countFrom (k.fld 2 2) (k.fld 4 2))) c (countFrom (k.fld 2 2) (k.fld 4 2)))))
    ∧ (Starts (.pegReset x h p) s t c k → k.fld 0 1 = 2 → pegRangeStatus t c k = stOK →
      exec (.pegReset x h p) s = .next (settled c k (k.fld 4 2) (pegSwap ((countFrom (k.fld 2 2) (k.fld 4 2)).foldl (fun s v => match vpidPhys s c v with
        | some q => s.setPeg q (s.peg q).resetTo
        | none => s) t) c [])))
    ∧ (Starts (.pegSignal x h p) s t c k → parRsvd k [(0, 2), (4, 4)] = false → k.fld 0 2 ≤ 4095 →
      let z := targetSignal (vpidRead t c (k.fld 0 2)) c (k.fld 0 2) (k.fld 4 4) true ⟨t.salt.node, 3, 0⟩
      (z.2 = stOK → exec (.pegSignal x h p) s = .next (settled c k 0 z.1))
      ∧ (z.2 ≠ stOK → exec (.pegSignal x h p) s = .next (ringStarts c 1 (refuse z.1 c k.aseq z.2))))
    ∧ (Starts (.pegSignal x h p) s t c k → parRsvd k [(0, 2), (4, 4)] = false → k.fld 0 2 ≤ 4095 → vpidOk t c (k.fld 0 2) = none ∨ k.fld 4 4 = 0 →
      exec (.pegSignal x h p) s = .next (ringStarts c 1 (refuse (pegCount (vpidRead t c (k.fld 0 2)) 0x010 1) c k.aseq stBADPARAM)))
    ∧ (∀ t0 q, Starts (.pegWait x h p) s t0 c k → t = vpidRead t0 c (k.fld 0 2) → vpidOk t c (k.fld 0 2) = some q → parRsvd k [(0, 3), (4, 8)] = false → k.fld 0 2 ≤ 4095 → k.fld 2 1 ≤ 1 → k.fld 8 4 ≤ 10000000 →
      ((t.peg q).mode = 1 → k.fld 4 4 ≠ 0) →
      ((t.peg q).poisoned = true → exec (.pegWait x h p) s = .next (ringStarts c 1 (settle t c k.aseq dFAULTED stOWNERLOST 0)))
      ∧ ((t.peg q).poisoned = false → hostWaits (t.peg q) < 255 →
          exec (.pegWait x h p) s = .next (ringStarts c 1 (applyWait t q { who := .host c k.aseq, k := k.fld 4 4, consume := k.fld 2 1 == 1, phases := (t.peg q).phases }))))
    ∧ (∀ a aseq, Meets s a →
      ((a.ctx x).cmds.find? (fun k => k.aseq == aseq && k.op == 0x62 && k.started) = none → exec (.pegWaitTimeout x aseq) s = .next (ringPump a x))
      ∧ (∀ w, (a.ctx x).cmds.find? (fun k => k.aseq == aseq && k.op == 0x62 && k.started) = some w → w.fld 8 4 ≠ 0 → exec (.pegWaitTimeout x aseq) s = .next
          (ringPump (settle (dropWait { a with now := max a.now (w.at0 + w.fld 8 4 * 1000) } (.host x aseq)) x aseq dEXPIRED stEXPIRED 0) x)))
    ∧ (∀ u, Starts (.pegDump x h p) s t c k →
      let n := if c = 0 then k.hdr.target else c
      parRsvd k [(0, 4), (8, 8)] = false → 1 ≤ k.fld 2 2 → k.fld 0 2 + k.fld 2 2 ≤ 4096 → (t.ctx n).live = true → (t.ctx n).faulted = false → putDest t c n (k.fld 8 8) (dumpBytes t n (k.fld 0 2) (k.fld 2 2)) false = .ok u →
      exec (.pegDump x h p) s = .next (settled c k ((dumpBytes t n (k.fld 0 2) (k.fld 2 2)).length / 64 - 1) u))

/-- Tier 2. WINDOW_OPEN takes the lowest free window (R291) and WINDOW_CLOSE frees its owner's, and settles after its
swap, once no access is held under the old generation; ROUTE_SET writes its entries in one swap
and holds back the nodes whose port changes (R286). POWER_SET waits for the next tick (R379), SELFTEST begins its test (R475), DEBUG_READ
copies what it reads (R357), and ATTEST writes the evidence (R463). -/
def Obligations.PlatformCommands : Prop :=
  ∀ (c : Nat) (k : Cmd) (s t : State) (x : CtxId) (h : CmdHdr) (p : List Byte),
    (∀ i, Starts (.windowOpen x h p) s t c k →
      let fl := k.fld 0x0C 1
      let w : Window := { base := k.fld 0 8, size := k.fld 8 4, read := bitsAt fl 0 1 == 1, write := bitsAt fl 1 1 == 1, atom := bitsAt fl 2 1 == 1, v1ok := bitsAt fl 3 1 == 1
                          anyctx := bitsAt fl 4 1 == 1, owner := c, rctx := k.fld 0x0E 2, valid := true, nodeLo := k.fld 0x10 2, nodeHi := k.fld 0x12 2 }
      parRsvd k [(0, 13), (0x0E, 6)] = false → fl ≤ 31 → w.base % 4096 = 0 → w.size ≠ 0 → w.size < 2 ^ 28 → w.nodeLo ≤ w.nodeHi → w.rctx ≤ 4095 →
      windowMem t c w.base (w.size * 4096) false = true → (w.write = true ∨ w.atom = true → windowMem t c w.base (w.size * 4096) true = true) →
      (List.range 16384).find? (fun i => !(tget {} t.salt.windows i).valid) = some i →
      exec (.windowOpen x h p) s = .next (settled c k i (winSwap (t.modSalt fun y => { y with windows := tput {} y.windows i w }) [i])))
    ∧ (Starts (.windowClose x h p) s t c k → parRsvd k [(0, 2)] = false → k.fld 0 2 ≤ 16383 → (tget {} t.salt.windows (k.fld 0 2)).valid = true →
      (tget {} t.salt.windows (k.fld 0 2)).owner = c →
      let u := winSwap (t.modSalt fun y => { y with windows := tput {} y.windows (k.fld 0 2) {} }) [k.fld 0 2]
      (t.salt.snoopHeld = [] → exec (.windowClose x h p) s = .next (settled c k 0 u))
      ∧ (t.salt.snoopHeld ≠ [] → exec (.windowClose x h p) s = .next (ringStarts c 1 (modCmd u c k.aseq fun k => { k with mark := u.salt.swaps }))))
    ∧ (∀ b, Starts (.routeSet x h p) s t c k → parRsvd k [(0, 4)] = false → 1 ≤ k.fld 2 2 → k.fld 2 2 ≤ 4096 → k.fld 0 2 + k.fld 2 2 ≤ 65536 → k.hdr.hlen = 8 * k.fld 2 2 →
      readExt t c k.hdr.haddr (8 * k.fld 2 2) = .ok b →
      let es := (List.range (k.fld 2 2)).map fun i => leNat ((b.drop (8 * i)).take 8)
      es.any (fun e => bitsAt e 10 6 != 0 || bitsAt e 20 44 != 0) = false →
      let s1 := t.modSalt fun y => { y with
        routes := ((List.range (k.fld 2 2)).zip es).foldl (fun m e => tput {} m (k.fld 0 2 + e.1) (parseRoute e.2)) y.routes, swaps := y.swaps + 1 }
      let moved := (countFrom (k.fld 0 2) (k.fld 2 2)).filter fun d => portOf t d != portOf s1 d && t.salt.outs.any fun o => o.msg.dst == d
      exec (.routeSet x h p) s = .next (settled c k (k.fld 2 2)
        ((routeSwap s1 ((countFrom (k.fld 0 2) (k.fld 2 2)).zip es)).modSalt fun y => { y with heldNodes := moved.foldl ninsert y.heldNodes })))
    ∧ (Starts (.powerSet x h p) s t c k → parRsvd k [(0, 7)] = false → k.fld 0 2 ≤ packageLimit t → 550 ≤ k.fld 2 2 → k.fld 2 2 ≤ k.fld 4 2 → k.fld 4 2 ≤ 850 → k.fld 6 1 ≤ 105 →
      exec (.powerSet x h p) s = .next (ringStarts c 1 (t.modTrellis fun y => { y with pendSet := some (k.aseq, k.fld 0 2, k.fld 2 2, k.fld 4 2, k.fld 6 1) })))
    ∧ (Starts (.selftest x h p) s t c k → parRsvd k [(0, 5)] = false → k.fld 4 1 ≤ 1 → testStatus t (k.fld 0 1) (k.fld 1 1) (k.fld 2 2) (k.fld 4 1 == 1) = stOK →
      exec (.selftest x h p) s = .next (ringStarts c 1
        (beginTest t { block := k.fld 0 1, test := k.fld 1 1, index := k.fld 2 2, intrusive := k.fld 4 1 == 1, aseq := some k.aseq })))
    ∧ (Starts (.debugRead x h p) s t c k → parRsvd k [(0, 12), (0x10, 8)] = false → k.fld 0 8 % 64 = 0 → k.fld 8 4 % 64 = 0 → k.fld 8 4 ≤ 0x1000000 →
      debugRange (k.fld 0 8) (k.fld 8 4) = true → inRegion (t.ctx c) (k.fld 0x10 8) (k.fld 8 4) true = true → t.cxl.up = true →
      exec (.debugRead x h p) s = .next (ringStarts c 1 (settle (putLines (readIn t (k.fld 0 8) (k.fld 8 4)) (k.fld 0x10 8) ((List.range (k.fld 8 4 / 64)).map fun i =>
        (debugBytes t (k.fld 0 8 + 64 * i) 64, isPoisoned t (k.fld 0 8 + 64 * i) 64))) c k.aseq dDONE (if isPoisoned t (k.fld 0 8) (k.fld 8 4) then stUNCORR else stOK) (k.fld 8 4))))
    ∧ (Starts (.attest x h p) s t c k →
      let u := linkMeas t
      let body := evidence u (k.par.take 32) (k.fld 0x2C 1)
      parRsvd k [(0, 45)] = false → k.fld 0x2C 1 ≤ 7 → u.ident.valid = true → certChain u (k.fld 0x2C 1) ≠ [] → body.length + 49856 ≤ k.fld 0x28 4 →
      inRegion (u.ctx c) (k.fld 0x20 8) (body.length + 49856) true = true → u.cxl.up = true →
      exec (.attest x h p) s = .next (settled c k (body.length + 49856) (takeFree (putHost u (k.fld 0x20 8) (body ++ freeStr u 49856)) 1)))

/-- Tier 2. Harvests (R357, R390, R395, R399). HARVEST of a step that the running sweep has yet to fence waits for the fence, and that of
the last step begins at once; HARVEST_POLL takes what the chip reads of the store and goes on; HARVEST_TIMEOUT ends the harvest EXPIRED.
RESTORE of a store that cannot be read settles with the status of the read; else the first complete manifest that
passes, in descending order of HSEQ, decides (R400 to R403): none settles FAULTED with ST_STEP_MISMATCH and changes nothing, and so do counters
that differ without ADOPT; a read that fails or differs in the load settles FAULTED with what was loaded; else the shards load, the counters are
adopted, the groups are held, and the command settles DONE with the step. The reasons found go where BADLIST asks (R403). -/
def Obligations.HarvestCommands : Prop :=
  ∀ (c : Nat) (k : Cmd) (s t : State) (x : CtxId) (h : CmdHdr) (p : List Byte),
    (∀ pl, Starts (.harvest x h p) s t c k → parRsvd k [(0, 16)] = false → periodBad (t.ctx c) k = false → k.fld 8 8 / 2 ^ 48 ≠ t.salt.node → k.fld 8 8 / 2 ^ 48 ≠ 0xFFFF →
      k.fld 8 8 % 64 = 0 → k.fld 6 2 ≤ 16383 → t.image.bind Image.plan = some pl → (myRank t).isSome = true → (t.ctx c).harvest = none →
      k.fld 4 2 = 2 ∨ (k.fld 4 2 = 1 ∧ pl.shards.any (fun h => h.kind == 2) = false) →
      let s1 := t.modCtx c fun y => { y with harvest := some { aseq := k.aseq, step := k.fld 0 4, manver := k.fld 4 2, win := k.fld 6 2, store := k.fld 8 8 } }
      (∀ w, (t.ctx c).sweep = some w → w.serving = true ∨ nextFence (t.ctx c) w ≤ k.fld 0 4 → exec (.harvest x h p) s = .next (ringStarts c 1 s1))
      ∧ ((t.ctx c).sweep = none → k.fld 0 4 = (t.ctx c).lastStep.getD 0xFFFFFFFF → exec (.harvest x h p) s = .next (ringStarts c 1 (harvestBegin s1 c))))
    ∧ (∀ a seen, Meets s a → exec (.harvestPoll x seen) s = .next (ringPump (harvestLoop x 12 (flushStore (seeStore a x seen) x)) x))
    ∧ (∀ a, Meets s a →
      ((a.ctx x).harvest = none → exec (.harvestTimeout x) s = .next (ringPump a x))
      ∧ (∀ y, (a.ctx x).harvest = some y → y.begun = true → exec (.harvestTimeout x) s = .next
          (ringPump (harvestEnd { a with now := max a.now (y.at0 + (planD a).htimeout * 1000000000) } x dEXPIRED stEXPIRED) x)))
    ∧ (∀ (seen : StoreReads) st pl rank, Starts (.restore x h p seen) s t c k → parRsvd k [(0, 11), (0x10, 12)] = false → periodBad (t.ctx c) k = false → k.fld 0x0A 1 ≤ 1 →
      k.fld 0 8 / 2 ^ 48 ≠ t.salt.node → k.fld 0 8 / 2 ^ 48 ≠ 0xFFFF → k.fld 0 8 % 64 = 0 → k.fld 8 2 ≤ 16383 → (t.ctx c).sweep = none → (t.ctx c).harvest = none →
      t.image.bind Image.plan = some pl → myRank t = some rank →
      let host := k.fld 0 8 / 2 ^ 48 = 0xFFFE
      let s0 := if host then applyHost t seen.seen else t
      let view : Tab Byte := seen.seen.foldl (fun m e => tput 0 m e.1 e.2) []
      let rd := restoreRead s0 c (k.fld 0 8) view seen.lost
      let again := restoreRead (if host then applyHost s0 seen.again else s0) c (k.fld 0 8) (seen.again.foldl (fun m e => tput 0 m e.1 e.2) view) seen.lostAgain
      (rd 0 64 = .error st → exec (.restore x h p seen) s = .next (ringStarts c 1 (listed s0 c k s0 0 [] fun t => refuse t c k.aseq st)))
      ∧ (∀ hd, rd 0 64 = .ok hd →
        let size := fieldAt hd 8 8
        let slots := if fieldAt hd 0 8 % 2 = 0 then [] else
          ((List.range (bitsAt (fieldAt hd 0 8) 32 4 + 1)).filterMap fun g => match rd (genOff size g) 64 with
            | .ok l => if (parseCommit l).valid then some (g, (parseCommit l).hseq) else none
            | .error _ => none).foldr insertSlot []
        let z := tryManifests (fun g => manifestReasons s0 pl rank fun o n => rd (genOff size g + o) n) slots
        exec (.restore x h p seen) s = .next (ringStarts c 1 (restored s0 c k pl rank (fun g o n => storeRead s0 (k.fld 0 8) view (genOff size g + o) n)
          (fun g o n => rd (genOff size g + o) n) (fun g o n => again (genOff size g + o) n) z.2 z.1))))

/-! ### Local memory -/

/-- Tier 2. Local memory (R152, R156): a write keeps the memory's canonical form and every byte outside it, what was written is read back,
and LPDDR5X bytes count in MEM_OBYTES. A whole 64 B of LPDDR5X written without poison is poisoned no more, a write with poison poisons each
64 B that it touches, and no other 64 B changes its mark. A whole 64 B or row that is written has no correctable error any more (R144,
R152), and a write to the scratchpads counts the rows that it touches (Table 15-3). -/
def Obligations.LocalMemory : Prop :=
  ∀ (s : State) (x : Nat) (l : List Byte) (bad : Bool),
    (Memory.wf s.mem = true → Memory.wf (writeMem s x l bad).mem = true ∧ readMem (writeMem s x l bad) x l.length = l)
    ∧ (∀ y n, y + n ≤ x ∨ x + l.length ≤ y → readMem (writeMem s x l bad) y n = readMem s y n)
    ∧ (writeMem s x l bad).obytes = s.obytes + (if inLp x l.length then l.length else 0)
    ∧ (writeMem s x l bad).rowAcc = s.rowAcc + (if inAperture x l.length then (spanRows x l.length).length else 0)
    ∧ (∀ k, k ∈ wholeLines 64 x l.length → inLp x l.length = true → k ∉ (writeMem s x l false).soft64)
    ∧ (∀ k, inAperture x l.length = true → inLp x l.length = false → k ∈ wholeLines 512 (x - 0x010000000000) l.length →
        k ∉ (writeMem s x l false).softRows ∧ k ∉ (writeMem s x l false).badRows)
    ∧ (inLp x l.length = true →
      (∀ y, inLp y 64 = true → y % 64 = 0 → (y + 64 ≤ x ∨ x + l.length ≤ y) → isPoisoned (writeMem s x l bad) y 64 = isPoisoned s y 64)
      ∧ (∀ y, y % 64 = 0 → x ≤ y → y + 64 ≤ x + l.length → isPoisoned (writeMem s x l false) y 64 = false)
      ∧ (∀ y, y % 64 = 0 → x < y + 64 → y < x + l.length → 0 < l.length → isPoisoned (writeMem s x l true) y 64 = true))

/-- Tier 2. Errors that the memories find by themselves. WEEDING (R145) reads the row that its bank is due: a corrected one, which the command
or the row's own mark shows, is counted, signalled and mended, an uncorrectable one is marked and reported. PATROL (R152, R155) of a channel
counts a corrected 64 B, and marks and reports an uncorrectable one; it repairs one of the journal, counts its read, and does not read a line
of another channel. -/
def Obligations.MemoryErrors : Prop :=
  ∀ (s a : State), Meets s a →
    (∀ (c : CoreId) (b : Fin 16) (ce ue forced : Bool),
      let row := (weedNext a.spSplit (a.core c) b).1
      let k := (weedNext a.spSplit (a.core c) b).2
      let soft := ce || a.softRows.contains (rowKey c row)
      (ue = false → exec (.weeding c b ce ue forced) s = .next
        (let t := { a.setCore c { k with weedForced := k.weedForced + b2n forced, spCe := satAdd 0xFFFFFFFFFFFFFFFF k.spCe (b2n soft) } with
           softRows := a.softRows.filter (· != rowKey c row), rowAcc := a.rowAcc + 1 }
         if soft then t.modCxl fun x => { x with correctable := true } else t))
      ∧ (ue = true → exec (.weeding c b ce ue forced) s = .next (rowLost
        { a.setCore c { k with weedForced := k.weedForced + b2n forced, spUe := satAdd 0xFFFFFFFFFFFFFFFF k.spUe 1, ueRow := row, ueControl := false, ueWeed := true, ueValid := true } with
          badRows := ninsert a.badRows (rowKey c row), rowAcc := a.rowAcc + 1 } c row)))
    ∧ (∀ (s : State) (n row : Nat), row < 43776 → rowLost s n row = reportFault (s.modFaults fun f => { f with ueNew := true })
        { status := stUNCORR, source := 1, index := n, addr := rowAddr n row })
    ∧ (∀ (ch : Fin 96) (line : Nat) (ce ue : Bool),
      (inLp (line * 64) 64 = false ∨ chanOf a (line * 64) ≠ ch.val → exec (.patrol ch line ce ue) s = .next a)
      ∧ (inLp (line * 64) 64 = true → chanOf a (line * 64) = ch.val →
        let z := noteRead a (line * 64) 64
        (a.soft64.contains line = false → exec (.patrol ch line false false) s = .next z)
        ∧ (ce = true ∨ a.soft64.contains line = true → exec (.patrol ch line ce false) s = .next
            ((countChan { z with soft64 := a.soft64.filter (· != line) } ch 1 0).modCxl fun x => { x with correctable := true }))
        ∧ (inJournal (line * 64) = false → exec (.patrol ch line ce true) s = .next
            (let t := countChan z ch 0 1
             spillLost (reportFault (({ t with poison := ninsert t.poison line } : State).modFaults fun f => { f with ueNew := true })
               { status := stUNCORR, source := 4, index := ch, addr := line * 64 }) (line * 64)))
        ∧ (inJournal (line * 64) = true → exec (.patrol ch line ce true) s = .next
            (reportFault (((countChan z ch 0 1).modFaults fun f => { f with jrepair := f.jrepair + 1 }).modFaults fun f => { f with ueNew := true })
              { status := stUNCORR, source := 6, index := ch, addr := line * 64 }))))

/-! ### The host port -/

/-- Tier 2. Doorbells (R315, R316, R338). With the link down nothing happens, and a write to the page of a context that does not exist is
counted. CMD_TAIL and HTR_TAIL take what the host makes visible, and a tail that leaves at most the ring's size announces its entries,
while any other is ignored and counted; CMPL_HEAD and EVR_HEAD keep the head; HTR_RESUME ends the halt. -/
def Obligations.HostDoorbells : Prop :=
  ∀ (c : CtxId) (r : Fin 2) (v : Nat) (d : Cells) (s a : State), Meets s a →
    (a.cxl.up = false → exec (.cmdTail c v d) s = .next (ringPump a c) ∧ exec (.cmplHead c v) s = .next a ∧ exec (.evrHead c v) s = .next a
      ∧ exec (.htrTail c r v d) s = .next a ∧ exec (.htrResume c r) s = .next a)
    ∧ (a.cxl.up = true → (a.ctx c).live = false →
      let w := a.modCxl fun x => { x with wdrop := x.wdrop + 1 }
      exec (.cmdTail c v d) s = .next (ringPump w c) ∧ exec (.cmplHead c v) s = .next w ∧ exec (.evrHead c v) s = .next w
      ∧ exec (.htrTail c r v d) s = .next w ∧ exec (.htrResume c r) s = .next w)
    ∧ (a.cxl.up = true → (a.ctx c).live = true →
      exec (.cmplHead c v) s = .next (jAdvance (a.modCtx c fun x => { x with cmplHead := v }))
      ∧ exec (.evrHead c v) s = .next (a.modCtx c fun x => { x with evrHead := v })
      ∧ exec (.htrResume c r) s = .next (a.modHtr c r fun x => { x with halted := false })
      ∧ (let t := applyHost a d
         let x := t.ctx c
         let n := (v + 2 ^ 32 - x.cmdRead) % 2 ^ 32
         (a.cxl.ready = false → exec (.cmdTail c v d) s = .next (ringPump t c))
         ∧ (a.cxl.ready = true → 2 ^ x.cmdLog2 < n → exec (.cmdTail c v d) s = .next (ringPump (dbIgnored t c) c))
         ∧ (a.cxl.ready = true → n ≤ 2 ^ x.cmdLog2 → exec (.cmdTail c v d) s = .next
              (ringPump (t.modCtx c fun k => { k with cmdTail := v, badOps := scanOps t x (2 ^ x.cmdLog2) x.cmdRead n, fresh := false }) c)))
      ∧ (let t := applyHost a d
         let x := t.htr c r
         let n := (v + 2 ^ 16 - x.head) % 2 ^ 16
         (a.cxl.ready = false → exec (.htrTail c r v d) s = .next t)
         ∧ (a.cxl.ready = true → (x.log2n < 3 ∨ 2 ^ x.log2n < n ∨ n < (x.started + 2 ^ 16 - x.head) % 2 ^ 16) → exec (.htrTail c r v d) s = .next (dbIgnored t c))
         ∧ (a.cxl.ready = true → 3 ≤ x.log2n → n ≤ 2 ^ x.log2n → (x.started + 2 ^ 16 - x.head) % 2 ^ 16 ≤ n → exec (.htrTail c r v d) s = .next
              ((t.modHtr c r fun x => { x with tail := v }).modCtx c fun k => { k with fresh := false }))))

/-- Tier 2. Registers of the host port (R51, R272, R306, R312, R313). SALT_NODE is taken while no port of a chip with a node is up, and is
otherwise discarded and counted; SALT_CFG takes 10 to 100,000; a read of FMT_SATCNT gives the count and clears it; REGISTER_WRITE reaches
the window's selection, the component registers, which keep what is written (DESIGN CHOICE, log 105), the CSR window and the context pages,
and a write of no register is counted. A read of BAR0 (R313) gives the register there, the CSRs of the selected window, and zero at an
unassigned offset; the configuration header (R312) gives Vendor ID, Device ID 0x1412, Revision ID 0xB1, class code 0x120000 and the board's
Subsystem IDs (at the places of PCI Express: PRESUMED, log 106). -/
def Obligations.HostRegisters : Prop :=
  ∀ (v : BitVec 64) (c : CoreId) (off : Nat) (s a : State), Meets s a →
    (a.cxl.up = false → exec (.saltNodeWrite v) s = .next a ∧ exec (.saltCfgWrite v) s = .next a ∧ exec (.registerWrite off v) s = .next a)
    ∧ exec (.fmtSatcntRead c) s = .next { (a.modEng c fun e => { e with satcnt := 0 }) with readOut := leBytes 8 (a.core c).run.eng.satcnt }
    ∧ (a.cxl.up = true →
      let w := a.modCxl fun x => { x with wdrop := x.wdrop + 1 }
      let n := v.toNat % 2 ^ 16
      let upNode := a.salt.node ≠ 0xFFFF ∧ (List.range 8).any (fun p => decide ((a.port p).state ≥ 2)) = true
      (n = 0xFFFE ∨ upNode → exec (.saltNodeWrite v) s = .next w)
      ∧ (n ≠ 0xFFFE → ¬ upNode → exec (.saltNodeWrite v) s = .next
          (let t := (a.modSalt fun x => { x with node := n }).modStart fun t => { t with hdr := { t.hdr with node := n } }
           (List.range 8).foldl (fun s p => if (s.port p).state ≥ 2 then sendControl s p (.train (ownTrain s p)) else s) t))
      ∧ (v.toNat % 2 ^ 17 < 10 ∨ 100000 < v.toNat % 2 ^ 17 → exec (.saltCfgWrite v) s = .next w)
      ∧ (10 ≤ v.toNat % 2 ^ 17 → v.toNat % 2 ^ 17 ≤ 100000 → exec (.saltCfgWrite v) s = .next (a.modSalt fun x => { x with rspTimeout := v.toNat % 2 ^ 17 }))
      ∧ (off % 8 ≠ 0 → exec (.registerWrite off v) s = .next w)
      ∧ exec (.registerWrite 0x00010008 v) s = .next (a.modCxl fun x => { x with winsel := v.toNat % 2 ^ 12 })
      ∧ (off % 8 = 0 → 0x00400000 ≤ off → off < 0x00800000 → exec (.registerWrite off v) s = .next (csrWrite a (a.cxl.winsel * 0x400000 + (off - 0x00400000)) v.toNat))
      ∧ (off % 8 = 0 → 0x01000000 ≤ off → off < 0x02000000 →
          exec (.registerWrite off v) s = .next (pageWrite a ((off - 0x01000000) / 0x1000) (off % 0x1000) v.toNat))
      ∧ (off % 8 = 0 → off ≠ 0x00010008 → 0x00010000 ≤ off → (off < 0x00020000 ∨ 0x00028000 ≤ off) → (off < 0x00400000 ∨ 0x00800000 ≤ off) → (off < 0x01000000 ∨ 0x02000000 ≤ off) →
          exec (.registerWrite off v) s = .next w)
      ∧ (off % 8 = 0 → off < 0x00010000 → ∃ t, exec (.registerWrite off v) s = .next t ∧ bar0Read t off = v.toNat))
    ∧ (off % 8 ≠ 0 → bar0Read a off = 0)
    ∧ (0x00011000 ≤ off → (off < 0x00020000 ∨ 0x00028100 ≤ off) → (off < 0x00400000 ∨ 0x00800000 ≤ off) → (off < 0x01000000 ∨ 0x02000000 ≤ off) → bar0Read a off = 0)
    ∧ (off % 8 = 0 → 0x00400000 ≤ off → off < 0x00800000 → bar0Read a off = regAt a (a.cxl.winsel * 0x400000 + (off - 0x00400000)))
    ∧ configHeader a 0x00 = Config.vendorId.toNat + 0x1412 * 2 ^ 16 ∧ configHeader a 0x08 = 0xB1 + 0x120000 * 2 ^ 8
    ∧ configHeader a 0x2C = (config a.start.inputs).subsys % 2 ^ 32 ∧ dvsecs = [0, 7, 8]

/-- Tier 2. Host-managed device memory (R323, R324, R326). A commit of the decoder with an interleave of R310 locks it until it is uncommitted; a read or write
outside the committed range completes with an error and changes no memory; a read gives the 64 B with their poison, a write stores its
bytes at the address that R323 gives and leaves every other byte; BIRSP takes the line from the filter, and held accesses go on. -/
def Obligations.HostMemory : Prop :=
  ∀ (s a : State), Meets s a →
    (∀ on base size ways gran, (a.cxl.up = false → exec (.hdmDecoderCommit on base ⟨size, ways, gran⟩) s = .next a)
      ∧ (a.cxl.up = true →
        let ok := (ways = 1 ∨ ways = 2 ∨ ways = 4 ∨ ways = 8)
          ∧ (gran = 256 ∨ gran = 512 ∨ gran = 1024 ∨ gran = 2048 ∨ gran = 4096 ∨ gran = 8192 ∨ gran = 16384)
        exec (.hdmDecoderCommit false base ⟨size, ways, gran⟩) s = .next (a.modCxl fun x => { x with hdmCommitted := false })
        ∧ (a.cxl.hdmCommitted = true ∨ ¬ ok → exec (.hdmDecoderCommit true base ⟨size, ways, gran⟩) s = .next a)
        ∧ (a.cxl.hdmCommitted = false → ok → exec (.hdmDecoderCommit true base ⟨size, ways, gran⟩) s = .next
            (a.modCxl fun x => { x with hdmCommitted := true, hdmBase := base, hdmSize := min size (ways * a.hdmBytes), hdmWays := ways, hdmGran := gran }))))
    ∧ (∀ x, x < a.cxl.hdmBase ∨ a.cxl.hdmBase + a.cxl.hdmSize ≤ x → hdmLine a x = none)
    ∧ (∀ x l bad, hdmLine a x = none →
      exec (.hostMemRead x) s = .next { (a.modCxl fun y => { y with memRsp := 2 }) with readOut := [] }
      ∧ exec (.hostMemWrite x l bad) s = .next (a.modCxl fun y => { y with memRsp := 2 }))
    ∧ (∀ x y l bad, hdmLine a x = some y →
      (let o := x - a.cxl.hdmBase
       y = 0x00C000000000 - a.hdmBytes + (o / (a.cxl.hdmGran * a.cxl.hdmWays) * a.cxl.hdmGran + o % a.cxl.hdmGran) / 64 * 64)
      ∧ (isPoisoned a y 64 = false → exec (.hostMemRead x) s = .next
          { (noteRead ((snoopAdd (noteBad a y 64) (y / 64)).modCxl fun z => { z with memRsp := 0 }) y 64) with readOut := readMem a y 64 })
      ∧ (isPoisoned a y 64 = true → exec (.hostMemRead x) s = .next
          { (noteRead ((snoopAdd (noteBad a y 64) (y / 64)).modCxl fun z => { z with memRsp := 1 }) y 64) with readOut := readMem a y 64 })
      ∧ (∃ t, exec (.hostMemWrite x l bad) s = .next t ∧ t = (writeMem a (y + x % 64) (l.take (64 - x % 64)) bad).modCxl (fun z => { z with memRsp := 0 })
          ∧ (∀ j, j < y + x % 64 ∨ y + x % 64 + (l.take (64 - x % 64)).length ≤ j → tget 0 t.mem j = tget 0 a.mem j) ∧ t.ctxs = a.ctxs ∧ t.cores = a.cores ∧ t.pegs = a.pegs))
    ∧ (∀ line, (a.cxl.snooping.contains line = false → exec (.birsp line) s = .next a)
      ∧ (a.cxl.snooping.contains line = true → exec (.birsp line) s = .next
          (let t := a.modCxl fun x => { x with snoop := x.snoop.filter (· ≠ line), snooping := x.snooping.filter (· ≠ line) }
           a.salt.snoopHeld.foldl (fun s e => passedAccess s e.1 e.2.1 e.2.2) (t.modSalt fun x => { x with snoopHeld := [] }))))

/-- Tier 2. The host link (R322, R332, R445). CXL_LINK_DOWN of a link that is up takes it down and signals vector 0; CXL_LINK_UP at a row
of Table 13-2 brings it up with the presets of R420 and an empty device cache, and writes what was held, then each pending sum; HOST_LOSS ends the session and leaves its contexts to be
adopted; HOLDOFF_END raises the vector that was held back. CX_PERST (R331, R420) with nothing held for a snoop: its assertion takes the
link down with vector 0, and clears the window select, the decoder, the snoop filter, IDE, the MSI-X table and the DOE sessions, and READY
where the board requires IDE; its deassertion trains the link of a row of Table 13-2. -/
def Obligations.HostLink : Prop :=
  (∀ (s a : State), Meets s a →
    (a.cxl.up = false → exec .cxlLinkDown s = .next a)
    ∧ (a.cxl.up = true → exec .cxlLinkDown s = .next
        (raiseVec (a.modCxl fun x => { x with up := false, downAt := some a.now, width := 0, rate := 0, flit256 := false }) 0))
    ∧ (∀ width rate f, a.cxl.up = true ∨ linkRow width rate f = false → exec (.cxlLinkUp width rate f) s = .next a)
    ∧ (∀ width rate f, a.cxl.up = false → linkRow width rate f = true → exec (.cxlLinkUp width rate f) s = .next
        (a.cxl.pendSums.foldl applySum (a.cxl.held.foldl toHost (a.modCxl fun x => { x with
          txPresets := linkPresets a, dcache := [], up := true, downAt := none, width := if width = 4 then 3 else if width = 8 then 4 else 5, rate := rate, flit256 := f
          memActive := f && a.start.phase == 0xF, held := [], pendSums := [], linkloss := false }))))
    ∧ (∀ width rate f, linkRow width rate f = true → (width = 4 ∨ width = 8 ∨ width = 16) ∧ 1 ≤ rate ∧ rate ≤ 4 ∧ (rate = 4 → f = true) ∧ (f = true → 3 ≤ rate))
    ∧ (a.cxl.downAt = none → exec .hostLoss s = .next a)
    ∧ (∀ t, a.cxl.downAt = some t → exec .hostLoss s = .next
        (let u : State := { a with now := max a.now (t + hostLossNs a) }
         { ((otherCtxs u).foldl (fun s c => s.modCtx c fun x => { x with orphan := true }) u).modFaults (fun f => { f with hostlost := true }) with
           sess := { a.sess with opened := false } }))
    ∧ (∀ c : CtxId, ((a.ctx c).irqHeld = false ∨ (a.ctx c).lastIrq = none → exec (.holdoffEnd c) s = .next a)
      ∧ (∀ t, (a.ctx c).lastIrq = some t → (a.ctx c).irqHeld = true → exec (.holdoffEnd c) s = .next
          (((raiseVec { a with now := max a.now (t + (a.ctx c).holdoff * 1000) } (a.ctx c).vector).modCtx c fun x =>
            { x with lastIrq := some (max a.now (t + (a.ctx c).holdoff * 1000)), irqHeld := false })))))
  ∧ (∀ (w r : Nat) (f : Bool) (s a : State), Meets s a → a.salt.snoopHeld = [] →
    (∃ t, exec (.cxPerst true w r f) s = .next t ∧ t.cxl.up = false ∧ t.cxl.winsel = 0 ∧ t.cxl.hdmCommitted = false ∧ t.cxl.snoop = [] ∧ t.cxl.dcache = [] ∧ t.cxl.comp = []
      ∧ t.cxl.ideActive = 0 ∧ (a.cxl.ideReq = true → t.cxl.ready = false) ∧ (a.cxl.ideReq = false → t.cxl.ready = a.cxl.ready)
      ∧ t.mem = a.mem ∧ t.ctxs = a.ctxs ∧ t.trays = a.trays ∧ t.cores = a.cores ∧ t.faults = a.faults ∧ t.salt = a.salt)
    ∧ exec (.cxPerst false w r f) s = .next (linkUp a w r f))

/-- Tier 2. Host tray rings (R318 to R321). A row takes the next descriptor of a ring that may start one and whose descriptor names the
row's OP: a broken one fails with ST_BAD_PARAM; PUT opens and commits its packet; GET takes the first READY packet; DONE retires, and
UNCLAIM puts back, the packet that this host has claimed. Descriptors are written back in ring order. -/
def Obligations.HostTrayRings : Prop :=
  ∀ (c : CtxId) (r : Fin 2) (ok : Bool) (s a : State), Meets s a →
    exec (.htrPut c r ok) s = .next (htrFlush c r 17 (flushAcks (startHtr a c r 1 ok)))
    ∧ exec (.htrGet c r ok) s = .next (htrFlush c r 17 (flushAcks (startHtr a c r 2 ok)))
    ∧ exec (.htrDone c r ok) s = .next (htrFlush c r 17 (flushAcks (startHtr a c r 3 ok)))
    ∧ exec (.htrUnclaim c r ok) s = .next (htrFlush c r 17 (flushAcks (startHtr a c r 4 ok)))
    ∧ (∀ op, htrMayStart a c r = false → startHtr a c r op ok = a)
    ∧ (let x := a.htr c r
       let l := readHost a (x.base + x.started % 2 ^ x.log2n * 64) 64
       let f (o n : Nat) : Nat := leNat ((l.drop o).take n)
       let k := bitsAt (f 0 4) 1 3
       let d : HtrLive := { idx := x.started, op := k, tray := f 6 2, slot := f 8 1, irq := bitsAt (f 0 4) 4 1 == 1, buf := f 0x10 8, bufWords := f 0x18 4, seq := f 0x1C 4 }
       let t := a.modHtr c r fun x => { x with started := (x.started + 1) % 2 ^ 16, live := x.live ++ [d] }
       htrMayStart a c r = true →
       (∀ op, k ≠ op → 1 ≤ k → k ≤ 4 → startHtr a c r op ok = a)
       ∧ (htrBad a c l = true → startHtr a c r k ok = htrResult t c r d.idx stBADPARAM false 0)
       ∧ (htrBad a c l = false →
         (k = 1 → startHtr a c r k ok = htrPut t c r d ok)
         ∧ (k = 2 → startHtr a c r k ok = htrGet t c r d ok)
         ∧ (∀ p, k = 3 ∨ k = 4 → (t.tray d.tray).find .claimed d.seq = some p → p.claimer = c + 4096 →
             startHtr a c r k ok = htrResult (if k = 3 then retirePkt t d.tray p dDONE stOK else unclaimPkt t d.tray d.seq) c r d.idx stOK false 0)
         ∧ (∀ p, k = 2 → (∀ q ∈ (t.tray d.tray).packets, q.bad = false) → (t.tray d.tray).head = some p → (t.tray d.tray).kind = 1 → p.nwords ≤ d.bufWords →
             inRegion (t.ctx c) d.buf (64 + 64 * p.nwords) true = true →
             let u := (claimHead t d.tray (c + 4096)).1
             startHtr a c r k true = htrResult (htrCopy u d.buf (entryBytes (t.tray d.tray) p) (payloadLines t (t.tray d.tray) p)) c r d.idx stOK false p.seq)))

/-! ### Identity -/

/-- Tier 2. The SPDM requests (R451, R457 to R460, R466). A request that does not reach the device has no effect; one on a die without a
valid identity, or before its place in the exchange, is answered ERROR; each other request has the answer and the effect of the exchange. -/
def Obligations.SpdmRequests : Prop :=
  ∀ (s a : State), Meets s a →
    (∀ i l n, spdmRow i = some (l, n) →
      (linkReaches a l = false → exec i s = .next a)
      ∧ (linkReaches a l = true → a.ident.valid = false → exec i s = .next (spdmError a l errUnspecified))
      ∧ (linkReaches a l = true → a.ident.valid = true → (a.link l).st < n → exec i s = .next (spdmError a l errUnexpected)))
    ∧ (∀ l : Fin 9, linkReaches a l = true → a.ident.valid = true →
      exec (.getVersion l) s = .next (spdmAnswer ((endSession a l).modLink l fun x => { x with st := 1 }) l 0x04 (leBytes 1 0x13))
      ∧ (1 ≤ (a.link l).st → exec (.getCapabilities l) s = .next (spdmAnswer (a.modLink l fun x => { x with st := max x.st 2 }) l 0x61 (leBytes 4 0x10000)))
      ∧ (2 ≤ (a.link l).st → exec (.negotiateAlgorithms l true) s = .next (spdmAnswer (a.modLink l fun x => { x with st := max x.st 3 }) l 0x63 (leBytes 2 1 ++ leBytes 2 2))
          ∧ exec (.negotiateAlgorithms l false) s = .next (spdmError a l errUnsupported))
      ∧ (3 ≤ (a.link l).st →
        (let held := (List.range 8).filter fun k => !(certChain a k).isEmpty
         exec (.getDigests l) s = .next (spdmAnswer a l 0x01 (leBytes 1 ((held.map fun k => 2 ^ k).foldl (· + ·) 0) ++ held.flatMap fun k => sha3_384 (certChain a k))))
        ∧ (∀ slot, certChain a slot = [] → exec (.getCertificate l slot) s = .next (spdmError a l errInvalid) ∧ exec (.challenge l slot) s = .next (spdmError a l errInvalid))
        ∧ (∀ slot, certChain a slot ≠ [] → exec (.getCertificate l slot) s = .next (spdmAnswer a l 0x02 (certChain a slot))
            ∧ exec (.challenge l slot) s = .next (takeFree (spdmAnswer a l 0x03 (sha3_384 (certChain a slot) ++ freeStr a (32 + 49856))) 1))
        ∧ exec (.getMeasurements l 0) s = .next (spdmAnswer a l 0x60 (leBytes 1 9))
        ∧ exec (.getMeasurements l 0xFF) s = .next (spdmAnswer a l 0x60 ((countFrom 1 9).flatMap (measRecord a)))
        ∧ (∀ k, 1 ≤ k → k ≤ 9 → exec (.getMeasurements l k) s = .next (spdmAnswer a l 0x60 (measRecord a k)))
        ∧ (∀ ek authed, ek.length = 1568 → exec (.keyExchange l ek authed) s = .next
            (takeFree (spdmAnswer ((endSession a l).modLink l fun x => { x with st := 4, authed := authed }) l 0x64 (freeStr a (1568 + 49856))) 1))
        ∧ (∀ ek authed, ek.length ≠ 1568 → exec (.keyExchange l ek authed) s = .next (spdmError a l errInvalid)))
      ∧ ((a.link l).st = 4 → l.val = 8 ∨ (a.link l).authed = true →
        let t := spdmAnswer (a.modLink l fun x => { x with st := 5, epoch := false }) l 0x65 []
        (l.val = 8 ∨ mustEncrypt a l = false ∨ (a.port l).peerEnc = false → exec (.finish l true) s = .next t)
        ∧ (l.val < 8 → mustEncrypt a l = true → (a.port l).peerEnc = true → exec (.finish l true) s = .next (t.modPort l fun x => { x with
            encrypt := true, groupsTx := 0, groupsRx := 0, groupN := 0, epochTx := false, epochRx := false, keyedAt := a.now })))
      ∧ (∀ ok, (a.link l).st = 4 → ok = false ∨ (l.val < 8 ∧ (a.link l).authed = false) →
        let t := spdmError (a.modLink l fun x => { x with st := 3, authed := false }) l errInvalid
        exec (.finish l ok) s = .next (if l.val < 8 ∧ a.ident.require.testBit l = true then portDown t l else t))
      ∧ (5 ≤ (a.link l).st →
        exec (.keyUpdate l) s = .next (spdmAnswer (flipEpoch a l) l 0x69 []) ∧ exec (.heartbeat l) s = .next (spdmAnswer a l 0x68 [])
        ∧ exec (.endSession l) s = .next (endSession (spdmAnswer a l 0x6C []) l)
        ∧ (∀ slot chain, 1 ≤ slot → slot ≤ 7 → chain ≠ [] → exec (.setCertificate l slot chain true) s = .next
            (spdmAnswer (a.modIdent fun d => { d with chains := tput [] d.chains slot chain }) l 0x6E []))
        ∧ (∀ slot chain ends, slot = 0 ∨ 7 < slot ∨ ends = false ∨ chain = [] → exec (.setCertificate l slot chain ends) s = .next (spdmError a l errInvalid))))

/-- Tier 2. The requests of the mailboxes (R328, R329, R335, R461, R466). RING_ANCHOR places the control ring, outside a session and with
good fields; LINK_POLICY inside a secured session sets the masks; DOE_DISCOVERY and CDAT_READ answer while the link is up; IDE_KM keys a
stream; KEY_UPDATE_DUE flips an encrypted port's epoch. -/
def Obligations.MailboxRequests : Prop :=
  ∀ (s a : State), Meets s a →
    (∀ x, linkReaches a 8 = false → exec (.ringAnchor x) s = .next a)
    ∧ (∀ x, linkReaches a 8 = true → a.ident.valid = true →
      (a.sess.opened = true → exec (.ringAnchor x) s = .next (vendorAnswer a stBUSY))
      ∧ (a.sess.opened = false → anchorBad x = true → exec (.ringAnchor x) s = .next (vendorAnswer a stBADPARAM))
      ∧ (a.sess.opened = false → anchorBad x = false → a.cxl.ideReq = true → inSession a x.secured = false → exec (.ringAnchor x) s = .next (vendorAnswer a stAUTH))
      ∧ (a.sess.opened = false → anchorBad x = false → a.cxl.ideReq = false ∨ inSession a x.secured = true → exec (.ringAnchor x) s = .next
          (vendorAnswer { (a.modCtx 0 fun k => { k with
            live := true, vector := x.vector, cmdBase := x.cmdBase, cmplBase := x.cmplBase, cmdLog2 := x.cmdLog2, cmplLog2 := x.cmplLog2
            cmdTail := 0, cmdRead := 0, aseq := 0, cmplIdx := 0, cmplHead := 0, accepted := 0, badOps := [] }) with sess := { a.sess with anchored := true } } stOK)))
    ∧ (∀ req allow rsvd sec, linkReaches a 8 = true → a.ident.valid = true →
      (inSession a sec = false → exec (.linkPolicy req allow rsvd sec) s = .next (vendorAnswer a stAUTH))
      ∧ (inSession a sec = true → rsvd = true ∨ 255 < req ∨ 255 < allow ∨ (req &&& allow) ≠ req → exec (.linkPolicy req allow rsvd sec) s = .next (vendorAnswer a stBADPARAM))
      ∧ (inSession a sec = true → rsvd = false → req ≤ 255 → allow ≤ 255 → (req &&& allow) = req → exec (.linkPolicy req allow rsvd sec) s = .next
          (vendorAnswer ((List.range 8).foldl (policyPort a.ident) (a.modIdent fun d => { d with require := req, allow := allow })) stOK)))
    ∧ (∀ (m : Fin 2) k, (a.cxl.up = true → exec (.doeDiscovery m k) s = .next (spdmAnswer a (8 + m) 0 (discovery m k)))
      ∧ (a.cxl.up = false → exec (.doeDiscovery m k) s = .next a ∧ exec (.cdatRead k) s = .next a))
    ∧ (a.cxl.up = true → exec (.cdatRead 0) s = .next (spdmAnswer a 9 1 (leBytes 8 0 ++ leBytes 8 a.hdmBytes ++ leBytes 1 0))
      ∧ exec (.cdatRead 1) s = .next (spdmAnswer a 9 1 (leBytes 4 250 ++ leBytes 4 250 ++ leBytes 4 56000 ++ leBytes 4 56000)))
    ∧ (∀ k, (linkReaches a 8 = false ∨ (a.link 8).st ≠ 5 ∨ a.ident.valid = false → exec (.ideKm k) s = .next a)
      ∧ (linkReaches a 8 = true → (a.link 8).st = 5 → a.ident.valid = true →
        let t := a.modCxl fun x => { x with ideActive := x.ideActive ||| 2 ^ k }
        (ideOk t = false ∨ a.start.phase ≠ 0xF → exec (.ideKm k) s = .next t)
        ∧ (ideOk t = true → a.start.phase = 0xF → exec (.ideKm k) s = .next (setReady t true))))
    ∧ (∀ p : PortId, ((a.port p).encrypt = false → exec (.keyUpdateDue p) s = .next a)
      ∧ ((a.port p).encrypt = true → exec (.keyUpdateDue p) s = .next
        (let t : State := if 2 ^ 32 ≤ (a.port p).groupsTx ∨ 2 ^ 32 ≤ (a.port p).groupsRx then a else { a with now := max a.now ((a.port p).keyedAt + 86400000000000) }
         flipEpoch (sendMgmt t p 0x10 0 (leBytes 4 4 ++ leBytes 4 0x0001E913 ++ fillBytes 56 0)) p)))

/-! ### Field service -/

/-- Tier 2. The maintenance console (R470 to R473, R481). A command that needs Dister is answered with ST_WRONG_STATE before Dister runs;
ID, STATUS and AMON are answered always. Each has the output of Table 20-1; READ below the CSRs needs an unlocked console, BAUD takes a
rate of R470, UNLOCK is refused inside a session, and PEGDUMP without a context prints every peg record of the chip (R265). -/
def Obligations.ConsoleCommands : Prop :=
  ∀ (s a : State), Meets s a →
    (∀ i, consoleRow i = true → a.start.dister = false → exec i s = .next (say a stWRONG []))
    ∧ exec .idRecord s = .next (say a stOK (groups (identRecord a)))
    ∧ exec .status s = .next (say a stOK [startReg a 0, faultReg a 0, faultReg a 8, faultReg a 0x10, secReg a 0, trellisReg a 0])
    ∧ (∀ sel idx mv, (amonOk sel idx = false → exec (.amon sel idx mv) s = .next (say a stBADPARAM []))
      ∧ (amonOk sel idx = true → exec (.amon sel idx mv) s = .next
        (say (a.modSvc fun v => { v with amonSel := sel, amonIdx := idx, amonOut := amonMv a sel idx mv }) stOK [amonMv a sel idx mv])))
    ∧ (∀ mv, exec (.amonUpdate mv) s = .next (a.modSvc fun v => { v with amonOut := amonMv a v.amonSel v.amonIdx mv }))
    ∧ (a.start.dister = true →
      exec .help s = .next (say a stOK (List.range 14))
      ∧ (∀ n, exec (.log n) s = .next (say a stOK ((a.faults.log.reverse.take n).flatMap fun r => groups r.bytes)))
      ∧ (∀ c : CtxId, exec (.pegdump (some c)) s = .next (say a stOK (groups (dumpBytes a c 0 4096))))
      ∧ exec (.pegdump none) s = .next (say a stOK ((List.range 262144).flatMap fun p => groups ((a.peg p).bytes a.now)))
      ∧ (∀ x n, x < 0x020000000000 → unlocked a = false → exec (.consoleRead x n) s = .next (say a stNOTPERM []))
      ∧ (∀ x n, 0x020000000000 ≤ x ∨ unlocked a = true → n % 8 = 0 → n ≤ 4096 → x % 8 = 0 → debugRange x n = true ∨ (logRegion ≤ x ∧ x + n ≤ logRegion + 0x1000000) →
        exec (.consoleRead x n) s = .next (say (readIn a x n) (if isPoisoned a x n then stUNCORR else stOK) (groups (debugBytes a x n))))
      ∧ (∀ r, r = 230400 ∨ r = 460800 ∨ r = 921600 ∨ r = 1500000 ∨ r = 3000000 → exec (.baud r) s = .next ((say a stOK []).modSvc fun v => { v with baud := r }))
      ∧ (a.sess.opened = true → exec .unlock s = .next (say a stWRONG []))
      ∧ (a.sess.opened = false → exec .unlock s = .next ((say a stOK []).modSvc fun v => { v with locked := false, lockAfter := false }))
      ∧ exec .lock s = .next ((say a stOK []).modSvc fun v => { v with locked := true, lockAfter := false })
      ∧ (let l := identRecord a ++ leBytes 8 (startReg a 0) ++ leBytes 8 (testReg a 0) ++ leBytes 8 (testReg a 8) ++ (a.faults.log.reverse.take 64).flatMap FRec.bytes
         exec .rma s = .next (say a stOK (groups (l ++ shake256 l 32)))))

/-- Tier 2. Resets and self-tests of field service (R446, R472, R475 to R479). RESET needs an unlocked console and restarts the part;
RECOVER works in ROM recovery with an image that verifies; TEST begins a test that nothing refuses, or names the refusal; TEST ALL begins
with the first target that may be tested; SELFTEST_COMPLETE gives the verdict of a test that may end: it passes where the device says so, the
data meets the criterion of Table 20-3, and no fault has doomed it. -/
def Obligations.ServiceActions : Prop :=
  ∀ (s a : State), Meets s a →
    (∀ i, a.start.dister = true → unlocked a = false → exec (.resetWarm i) s = .next (say a stNOTPERM []) ∧ exec (.resetCold i) s = .next (say a stNOTPERM []))
    ∧ (∀ i, a.start.dister = true → unlocked a = true → powered (quiesce a) = true →
      exec (.resetWarm i) s = .next (beginStart (logicReset (quiesce a)) 2 i)
      ∧ exec (.resetCold i) s = .next (beginStart (logicReset ((quiesce a).modStart fun t => { t with hdr := { t.hdr with valid := false } })) 3 i))
    ∧ (∀ slot r i, (a.start.recovery = false → exec (.recover slot r i) s = .next (say a stWRONG []))
      ∧ (a.start.recovery = true → 1 < slot → exec (.recover slot r i) s = .next (say a stBADPARAM []))
      ∧ (a.start.recovery = true → slot ≤ 1 → recOk r 1 a.start.inputs.dieId 0x01000000 = false → exec (.recover slot r i) s = .next (say a stAUTH []))
      ∧ (a.start.recovery = true → slot ≤ 1 → recOk r 1 a.start.inputs.dieId 0x01000000 = true → exec (.recover slot r i) s = .next
          (beginStart ((logicReset a).modStart fun t => { t with hdr := {} }) a.faults.lastCause (if slot = 0 then { i with slot0 := r } else { i with slot1 := r }))))
    ∧ (∀ b t n intr, a.start.dister = true →
      ((intr = true ∨ destructive b t = true) → unlocked a = false → exec (.test b t n intr) s = .next (say a stNOTPERM []))
      ∧ ((intr = false ∧ destructive b t = false) ∨ unlocked a = true →
        (testStatus a b t n intr ≠ stOK → exec (.test b t n intr) s = .next
          (say (noteTest a b t n (testStatus a b t n intr) true) (testStatus a b t n intr) []))
        ∧ (testStatus a b t n intr = stOK → exec (.test b t n intr) s = .next
          (beginTest (a.modSvc fun v => { v with final := none, out := [] }) { block := b, test := t, index := n, intrusive := intr, console := true }))))
    ∧ (a.start.dister = true → a.svc.allPass.isSome = true → exec .testAll s = .next (say a stBUSY []))
    ∧ (a.start.dister = true → a.svc.allPass = none → exec .testAll s = .next (nextTest (a.modSvc fun v => { v with final := none, out := [], allPass := some true }) allTests))
    ∧ (∀ b n pass d, (a.svc.running.find? fun t => t.block == b && t.index == n) = none → exec (.selftestComplete b n pass d) s = .next a)
    ∧ (∀ b n pass d x, (a.svc.running.find? fun t => t.block == b && t.index == n) = some x →
      let waits := x.intrusive && ((coreBlock b && !quickTest b x.test && (a.core n).mode != .fenced) || (b == 0x0A && a.rphase.active))
      let t := a.modSvc fun v => { v with running := delFirst (fun t => t.block == b && t.index == n) v.running }
      (waits = true → exec (.selftestComplete b n pass d) s = .next a)
      ∧ (waits = false → exec (.selftestComplete b n pass d) s = .next
        (let ok := pass && meetsCriterion a x d && !x.doomed
         reportTest (verdict (if destructive b x.test then scramble t (scrambled t x) else t) x ok) x ok d)))
end

