-- ==== Sys2Proof/Laws/Table.lean ====
section
/-! SUPPORT. The sparse tables: a read after a write, and that writes keep the canonical form. -/

namespace Sys2Proof.Machine

variable {α : Type}

/-- A read of the key just set. -/
@[simp] theorem tget_tset_same (d : α) (t : Tab α) (k : Nat) (v : α) : tget d (tset t k v) k = v := by
  induction t with
  | nil => simp [tset, tget]
  | cons e t ih =>
    obtain ⟨j, x⟩ := e
    simp only [tset]
    split
    · simp [tget]
    · split
      · simp [tget]
      · simp [tget, *]

/-- Of two sets of one key the later holds. -/
@[simp] theorem tset_tset (t : Tab α) (k : Nat) (v w : α) : tset (tset t k v) k w = tset t k w := by
  induction t with
  | nil => simp [tset]
  | cons e t ih =>
    obtain ⟨j, x⟩ := e
    simp only [tset]
    split
    · simp [tset]
    · split
      · rename_i hj
        subst hj
        simp [tset]
      · simp [tset, *]

/-- A read of another key after a set. -/
theorem tget_tset_other (d : α) (t : Tab α) {k j : Nat} (v : α) (h : j ≠ k) : tget d (tset t k v) j = tget d t j := by
  induction t with
  | nil => simp [tset, tget, Ne.symm h]
  | cons e t ih =>
    obtain ⟨i, x⟩ := e
    simp only [tset]
    split
    · simp [tget, Ne.symm h]
    · split
      · rename_i h2
        subst h2
        simp [tget, Ne.symm h]
      · simp only [tget, ih]

/-- A read of another key after an entry has gone. -/
theorem tget_terase_other (d : α) (t : Tab α) {k j : Nat} (h : j ≠ k) : tget d (terase t k) j = tget d t j := by
  induction t with
  | nil => rfl
  | cons e t ih =>
    obtain ⟨i, x⟩ := e
    simp only [terase]
    split
    · rename_i h2
      subst h2
      simp [tget, Ne.symm h]
    · simp only [tget, ih]

/-- Every key of a canonical table's rest lies above its first. -/
theorem tabSorted_head {k : Nat} {v : α} {t : Tab α} (h : tabSorted ((k, v) :: t) = true) : ∀ e ∈ t, k < e.1 := by
  induction t generalizing k v with
  | nil => simp
  | cons e t ih =>
    obtain ⟨j, x⟩ := e
    simp only [tabSorted, Bool.and_eq_true, decide_eq_true_eq] at h
    intro e he
    cases he with
    | head => exact h.1
    | tail _ he => exact Nat.lt_trans h.1 (ih h.2 e he)

/-- The rest of a canonical table is canonical. -/
theorem tabSorted_tail {e : Nat × α} {t : Tab α} (h : tabSorted (e :: t) = true) : tabSorted t = true := by
  cases t with
  | nil => rfl
  | cons f t =>
    obtain ⟨k, v⟩ := e
    obtain ⟨j, x⟩ := f
    simp only [tabSorted, Bool.and_eq_true] at h
    exact h.2

/-- A table whose first key lies below all others of a canonical rest is canonical. -/
theorem tabSorted_cons {k : Nat} {v : α} {t : Tab α} (h : tabSorted t = true) (hk : ∀ e ∈ t, k < e.1) : tabSorted ((k, v) :: t) = true := by
  cases t with
  | nil => rfl
  | cons f t =>
    obtain ⟨j, x⟩ := f
    simp only [tabSorted, Bool.and_eq_true, decide_eq_true_eq]
    exact ⟨hk (j, x) (by simp), h⟩

/-- A key that a canonical table does not list reads as the default. -/
theorem tget_absent (d : α) {t : Tab α} {k : Nat} (h : ∀ e ∈ t, e.1 ≠ k) : tget d t k = d := by
  induction t with
  | nil => rfl
  | cons e t ih =>
    obtain ⟨j, x⟩ := e
    have hj : j ≠ k := h (j, x) (by simp)
    simp only [tget, hj, if_false]
    exact ih fun e he => h e (by simp [he])

/-- In a canonical table a key whose entry has gone reads as the default. -/
theorem tget_terase_same (d : α) {t : Tab α} {k : Nat} (h : tabSorted t = true) : tget d (terase t k) k = d := by
  induction t with
  | nil => rfl
  | cons e t ih =>
    obtain ⟨j, x⟩ := e
    simp only [terase]
    split
    · rename_i hj
      subst hj
      exact tget_absent d fun e he => Nat.ne_of_gt (tabSorted_head h e he)
    · rename_i hj
      simp only [tget, hj, if_false]
      exact ih (tabSorted_tail h)

/-- The entries of a table after a set. -/
theorem mem_tset {t : Tab α} {k : Nat} {v : α} {e : Nat × α} (h : e ∈ tset t k v) : e = (k, v) ∨ e ∈ t := by
  induction t with
  | nil => simpa [tset] using h
  | cons f t ih =>
    obtain ⟨j, x⟩ := f
    simp only [tset] at h
    split at h
    · simpa using h
    · split at h
      · rename_i hj
        subst hj
        simp only [List.mem_cons] at h ⊢
        rcases h with h | h
        · exact Or.inl h
        · exact Or.inr (Or.inr h)
      · simp only [List.mem_cons] at h ⊢
        rcases h with h | h
        · exact Or.inr (Or.inl h)
        · rcases ih h with h | h
          · exact Or.inl h
          · exact Or.inr (Or.inr h)

/-- The entries of a table after an entry has gone. -/
theorem mem_terase {t : Tab α} {k : Nat} {e : Nat × α} (h : e ∈ terase t k) : e ∈ t := by
  induction t with
  | nil => exact h
  | cons f t ih =>
    obtain ⟨j, x⟩ := f
    simp only [terase] at h
    split at h
    · simp [h]
    · simp only [List.mem_cons] at h ⊢
      rcases h with h | h
      · exact Or.inl h
      · exact Or.inr (ih h)

/-- A set keeps the keys strictly rising. -/
theorem tabSorted_tset {t : Tab α} (k : Nat) (v : α) (h : tabSorted t = true) : tabSorted (tset t k v) = true := by
  induction t with
  | nil => rfl
  | cons e t ih =>
    obtain ⟨j, x⟩ := e
    simp only [tset]
    split
    · rename_i hk
      refine tabSorted_cons h fun e he => ?_
      cases he with
      | head => exact hk
      | tail _ he => exact Nat.lt_trans hk (tabSorted_head h e he)
    · split
      · rename_i hj
        subst hj
        exact tabSorted_cons (tabSorted_tail h) (tabSorted_head h)
      · rename_i hk hj
        refine tabSorted_cons (ih (tabSorted_tail h)) fun e he => ?_
        rcases mem_tset he with he | he
        · subst he
          simp only
          omega
        · exact tabSorted_head h e he

/-- Taking an entry out keeps the keys strictly rising. -/
theorem tabSorted_terase {t : Tab α} (k : Nat) (h : tabSorted t = true) : tabSorted (terase t k) = true := by
  induction t with
  | nil => rfl
  | cons e t ih =>
    obtain ⟨j, x⟩ := e
    simp only [terase]
    split
    · exact tabSorted_tail h
    · exact tabSorted_cons (ih (tabSorted_tail h)) fun e he => tabSorted_head h e (mem_terase he)

variable [DecidableEq α]

/-- A write keeps the canonical form. -/
theorem tabWf_tput (d : α) {t : Tab α} (k : Nat) (v : α) (h : tabWf d t = true) : tabWf d (tput d t k v) = true := by
  simp only [tabWf, Bool.and_eq_true, List.all_eq_true, decide_eq_true_eq] at h ⊢
  unfold tput
  split
  · exact ⟨tabSorted_terase k h.1, fun e he => h.2 e (mem_terase he)⟩
  · rename_i hv
    refine ⟨tabSorted_tset k v h.1, fun e he => ?_⟩
    rcases mem_tset he with he | he
    · subst he
      exact hv
    · exact h.2 e he

/-- A read of the key just written, in a canonical table. -/
theorem tget_tput_same (d : α) {t : Tab α} (k : Nat) (v : α) (h : tabWf d t = true) : tget d (tput d t k v) k = v := by
  unfold tput
  split
  · rename_i hv
    subst hv
    simp only [tabWf, Bool.and_eq_true] at h
    exact tget_terase_same v h.1
  · exact tget_tset_same d t k v

/-- A read of the key just written with another value than the default. -/
theorem tget_tput_ne (d : α) (t : Tab α) (k : Nat) {v : α} (h : v ≠ d) : tget d (tput d t k v) k = v := by
  simp [tput, h]

/-- Of two writes of one key, neither with the default, the later holds. -/
theorem tput_tput_ne (d : α) (t : Tab α) (k : Nat) {v w : α} (hv : v ≠ d) (hw : w ≠ d) : tput d (tput d t k v) k w = tput d t k w := by
  simp [tput, hv, hw]

/-- A read of another key after a write. -/
theorem tget_tput_other (d : α) (t : Tab α) {k j : Nat} (v : α) (h : j ≠ k) : tget d (tput d t k v) j = tget d t j := by
  unfold tput
  split
  · exact tget_terase_other d t h
  · exact tget_tset_other d t v h

end Sys2Proof.Machine
end

