-- ==== Sys2Proof/Laws/Memory.lean ====
section
/-! SUPPORT. Local and host memory: every memory operation keeps the canonical form, and a byte outside a write reads as
before. -/

namespace Sys2Proof.Machine

/-- A write of consecutive bytes keeps the canonical form. -/
theorem Memory.write_wf {m : Tab Byte} (a : Nat) (l : List Byte) (h : Memory.wf m = true) : Memory.wf (Memory.write m a l) = true := by
  induction l generalizing m a with
  | nil => exact h
  | cons b t ih => exact ih (a + 1) (tabWf_tput 0 a b h)

/-- Local memory keeps its canonical form over a write. -/
theorem writeMem_wf {s : State} (a : Nat) (l : List Byte) (bad : Bool) (h : Memory.wf s.mem = true) :
    Memory.wf (writeMem s a l bad).mem = true := by
  have hw := Memory.write_wf a l h
  unfold writeMem
  simp only
  split
  · split <;> exact hw
  · split
    · split <;> exact hw
    · exact hw

/-- Local memory keeps its canonical form over a little-endian write. -/
theorem writeLE_wf {s : State} (a n v : Nat) (h : Memory.wf s.mem = true) : Memory.wf (writeLE s a n v).mem = true :=
  writeMem_wf a (leBytes n v) false h

/-- Host memory keeps its canonical form over a write. -/
theorem putHost_wf {s : State} (a : Nat) (l : List Byte) (bad : Bool) (h : Memory.wf s.hostMem = true) :
    Memory.wf (putHost s a l bad).hostMem = true := Memory.write_wf a l h

/-- Host memory keeps its canonical form over what the host makes visible. -/
theorem applyHost_wf {s : State} (d : Cells) (h : Memory.wf s.hostMem = true) : Memory.wf (applyHost s d).hostMem = true := by
  unfold applyHost
  simp only
  generalize s.hostMem = m at h
  induction d generalizing m with
  | nil => exact h
  | cons e t ih => exact ih _ (tabWf_tput 0 e.1 e.2 h)

/-- The memories of the state after reset are canonical. -/
theorem reset_memory_wf : Memory.wf State.reset.mem = true ∧ Memory.wf State.reset.hostMem = true := ⟨rfl, rfl⟩

/-- A byte outside a write reads as before. -/
theorem Memory.write_other (m : Tab Byte) (a : Nat) (l : List Byte) {j : Nat} (h : j < a ∨ a + l.length ≤ j) :
    tget 0 (Memory.write m a l) j = tget 0 m j := by
  induction l generalizing m a with
  | nil => rfl
  | cons b t ih =>
    simp only [List.length_cons] at h
    rw [Memory.write, ih (tput 0 m a b) (a + 1) (by omega)]
    exact tget_tput_other 0 m b (by omega)

/-- A byte of a write reads as it was written. -/
theorem Memory.write_same {m : Tab Byte} (a : Nat) (l : List Byte) (h : Memory.wf m = true) {i : Nat} (hi : i < l.length) :
    tget 0 (Memory.write m a l) (a + i) = l[i] := by
  induction l generalizing m a i with
  | nil => simp at hi
  | cons b t ih =>
    rw [Memory.write]
    cases i with
    | zero =>
      rw [Memory.write_other _ _ _ (by omega)]
      exact tget_tput_same 0 a b h
    | succ i =>
      have := ih (a + 1) (tabWf_tput 0 a b h) (i := i) (by simpa using hi)
      simpa [Nat.add_assoc, Nat.add_comm 1 i] using this

/-- What a write of local memory does to memory itself, whatever it does to the poison marks. -/
@[simp] theorem writeMem_mem (s : State) (a : Nat) (l : List Byte) (bad : Bool) : (writeMem s a l bad).mem = Memory.write s.mem a l := by
  unfold writeMem
  simp only
  split
  · split <;> rfl
  · split
    · split <;> rfl
    · rfl

end Sys2Proof.Machine
end

