-- ==== Sys2Proof/Laws/State.lean ====
section
/-! SUPPORT. What each update of a part of the state leaves alone, and what it gives: true by unfolding, so that no later proof
unfolds an update of the state. -/

namespace Sys2Proof.Machine

/-- What `setCore` writes. -/
@[simp] theorem State.setCore_cores (s : State) (n : Nat) (x : Core) : (s.setCore n x).cores = tput {} s.cores n x := rfl
/-- What `setCore` leaves alone. -/
@[simp] theorem State.setCore_frame (s : State) (n : Nat) (x : Core) :
    (s.setCore n x).pending = s.pending ∧ (s.setCore n x).now = s.now ∧ (s.setCore n x).freeCtr = s.freeCtr
    ∧ (s.setCore n x).mem = s.mem ∧ (s.setCore n x).hostMem = s.hostMem ∧ (s.setCore n x).poison = s.poison
    ∧ (s.setCore n x).badRows = s.badRows ∧ (s.setCore n x).hostPoison = s.hostPoison ∧ (s.setCore n x).chanEcc = s.chanEcc
    ∧ (s.setCore n x).tractModes = s.tractModes ∧ (s.setCore n x).wbytes = s.wbytes ∧ (s.setCore n x).obytes = s.obytes
    ∧ (s.setCore n x).spSplit = s.spSplit ∧ (s.setCore n x).spReserve = s.spReserve ∧ (s.setCore n x).plotsz = s.plotsz
    ∧ (s.setCore n x).plotNext = s.plotNext ∧ (s.setCore n x).plotWait = s.plotWait ∧ (s.setCore n x).reconf = s.reconf
    ∧ (s.setCore n x).saved = s.saved ∧ (s.setCore n x).pegs = s.pegs ∧ (s.setCore n x).pegReqs = s.pegReqs
    ∧ (s.setCore n x).pegEpoch = s.pegEpoch ∧ (s.setCore n x).pegCtr = s.pegCtr ∧ (s.setCore n x).trays = s.trays
    ∧ (s.setCore n x).trayCe = s.trayCe ∧ (s.setCore n x).trayUe = s.trayUe ∧ (s.setCore n x).trayUeNew = s.trayUeNew
    ∧ (s.setCore n x).nRes = s.nRes ∧ (s.setCore n x).hdmBytes = s.hdmBytes ∧ (s.setCore n x).ctxs = s.ctxs
    ∧ (s.setCore n x).image = s.image ∧ (s.setCore n x).draining = s.draining ∧ (s.setCore n x).units = s.units
    ∧ (s.setCore n x).nextUnit = s.nextUnit ∧ (s.setCore n x).stash = s.stash ∧ (s.setCore n x).affinity = s.affinity
    ∧ (s.setCore n x).solo = s.solo ∧ (s.setCore n x).schedStep = s.schedStep ∧ (s.setCore n x).schedPhase = s.schedPhase
    ∧ (s.setCore n x).trellis = s.trellis ∧ (s.setCore n x).rakes = s.rakes ∧ (s.setCore n x).rakeProgs = s.rakeProgs
    ∧ (s.setCore n x).rphase = s.rphase ∧ (s.setCore n x).lastPhase = s.lastPhase ∧ (s.setCore n x).lastRec = s.lastRec
    ∧ (s.setCore n x).rakeHeld = s.rakeHeld ∧ (s.setCore n x).salt = s.salt ∧ (s.setCore n x).ports = s.ports
    ∧ (s.setCore n x).cxl = s.cxl ∧ (s.setCore n x).sess = s.sess ∧ (s.setCore n x).faults = s.faults
    ∧ (s.setCore n x).start = s.start ∧ (s.setCore n x).ident = s.ident ∧ (s.setCore n x).svc = s.svc
    ∧ (s.setCore n x).acks = s.acks ∧ (s.setCore n x).idles = s.idles ∧ (s.setCore n x).readOut = s.readOut
    ∧ (s.setCore n x).soft64 = s.soft64 ∧ (s.setCore n x).softRows = s.softRows ∧ (s.setCore n x).rowAcc = s.rowAcc
    ∧ (s.setCore n x).moveQ = s.moveQ := by
  repeat first | exact rfl | refine ⟨rfl, ?_⟩

/-- What `modCore` writes. -/
@[simp] theorem State.modCore_cores (s : State) (n : Nat) (f : Core → Core) : (s.modCore n f).cores = tput {} s.cores n (f (s.core n)) := rfl
/-- What `modCore` leaves alone. -/
@[simp] theorem State.modCore_frame (s : State) (n : Nat) (f : Core → Core) :
    (s.modCore n f).pending = s.pending ∧ (s.modCore n f).now = s.now ∧ (s.modCore n f).freeCtr = s.freeCtr
    ∧ (s.modCore n f).mem = s.mem ∧ (s.modCore n f).hostMem = s.hostMem ∧ (s.modCore n f).poison = s.poison
    ∧ (s.modCore n f).badRows = s.badRows ∧ (s.modCore n f).hostPoison = s.hostPoison ∧ (s.modCore n f).chanEcc = s.chanEcc
    ∧ (s.modCore n f).tractModes = s.tractModes ∧ (s.modCore n f).wbytes = s.wbytes ∧ (s.modCore n f).obytes = s.obytes
    ∧ (s.modCore n f).spSplit = s.spSplit ∧ (s.modCore n f).spReserve = s.spReserve ∧ (s.modCore n f).plotsz = s.plotsz
    ∧ (s.modCore n f).plotNext = s.plotNext ∧ (s.modCore n f).plotWait = s.plotWait ∧ (s.modCore n f).reconf = s.reconf
    ∧ (s.modCore n f).saved = s.saved ∧ (s.modCore n f).pegs = s.pegs ∧ (s.modCore n f).pegReqs = s.pegReqs
    ∧ (s.modCore n f).pegEpoch = s.pegEpoch ∧ (s.modCore n f).pegCtr = s.pegCtr ∧ (s.modCore n f).trays = s.trays
    ∧ (s.modCore n f).trayCe = s.trayCe ∧ (s.modCore n f).trayUe = s.trayUe ∧ (s.modCore n f).trayUeNew = s.trayUeNew
    ∧ (s.modCore n f).nRes = s.nRes ∧ (s.modCore n f).hdmBytes = s.hdmBytes ∧ (s.modCore n f).ctxs = s.ctxs
    ∧ (s.modCore n f).image = s.image ∧ (s.modCore n f).draining = s.draining ∧ (s.modCore n f).units = s.units
    ∧ (s.modCore n f).nextUnit = s.nextUnit ∧ (s.modCore n f).stash = s.stash ∧ (s.modCore n f).affinity = s.affinity
    ∧ (s.modCore n f).solo = s.solo ∧ (s.modCore n f).schedStep = s.schedStep ∧ (s.modCore n f).schedPhase = s.schedPhase
    ∧ (s.modCore n f).trellis = s.trellis ∧ (s.modCore n f).rakes = s.rakes ∧ (s.modCore n f).rakeProgs = s.rakeProgs
    ∧ (s.modCore n f).rphase = s.rphase ∧ (s.modCore n f).lastPhase = s.lastPhase ∧ (s.modCore n f).lastRec = s.lastRec
    ∧ (s.modCore n f).rakeHeld = s.rakeHeld ∧ (s.modCore n f).salt = s.salt ∧ (s.modCore n f).ports = s.ports
    ∧ (s.modCore n f).cxl = s.cxl ∧ (s.modCore n f).sess = s.sess ∧ (s.modCore n f).faults = s.faults
    ∧ (s.modCore n f).start = s.start ∧ (s.modCore n f).ident = s.ident ∧ (s.modCore n f).svc = s.svc
    ∧ (s.modCore n f).acks = s.acks ∧ (s.modCore n f).idles = s.idles ∧ (s.modCore n f).readOut = s.readOut
    ∧ (s.modCore n f).soft64 = s.soft64 ∧ (s.modCore n f).softRows = s.softRows ∧ (s.modCore n f).rowAcc = s.rowAcc
    ∧ (s.modCore n f).moveQ = s.moveQ := by
  repeat first | exact rfl | refine ⟨rfl, ?_⟩

/-- What `modRun` writes. -/
@[simp] theorem State.modRun_cores (s : State) (n : Nat) (f : Run → Run) : (s.modRun n f).cores = tput {} s.cores n { s.core n with run := f (s.core n).run } := rfl
/-- What `modRun` leaves alone. -/
@[simp] theorem State.modRun_frame (s : State) (n : Nat) (f : Run → Run) :
    (s.modRun n f).pending = s.pending ∧ (s.modRun n f).now = s.now ∧ (s.modRun n f).freeCtr = s.freeCtr
    ∧ (s.modRun n f).mem = s.mem ∧ (s.modRun n f).hostMem = s.hostMem ∧ (s.modRun n f).poison = s.poison
    ∧ (s.modRun n f).badRows = s.badRows ∧ (s.modRun n f).hostPoison = s.hostPoison ∧ (s.modRun n f).chanEcc = s.chanEcc
    ∧ (s.modRun n f).tractModes = s.tractModes ∧ (s.modRun n f).wbytes = s.wbytes ∧ (s.modRun n f).obytes = s.obytes
    ∧ (s.modRun n f).spSplit = s.spSplit ∧ (s.modRun n f).spReserve = s.spReserve ∧ (s.modRun n f).plotsz = s.plotsz
    ∧ (s.modRun n f).plotNext = s.plotNext ∧ (s.modRun n f).plotWait = s.plotWait ∧ (s.modRun n f).reconf = s.reconf
    ∧ (s.modRun n f).saved = s.saved ∧ (s.modRun n f).pegs = s.pegs ∧ (s.modRun n f).pegReqs = s.pegReqs
    ∧ (s.modRun n f).pegEpoch = s.pegEpoch ∧ (s.modRun n f).pegCtr = s.pegCtr ∧ (s.modRun n f).trays = s.trays
    ∧ (s.modRun n f).trayCe = s.trayCe ∧ (s.modRun n f).trayUe = s.trayUe ∧ (s.modRun n f).trayUeNew = s.trayUeNew
    ∧ (s.modRun n f).nRes = s.nRes ∧ (s.modRun n f).hdmBytes = s.hdmBytes ∧ (s.modRun n f).ctxs = s.ctxs
    ∧ (s.modRun n f).image = s.image ∧ (s.modRun n f).draining = s.draining ∧ (s.modRun n f).units = s.units
    ∧ (s.modRun n f).nextUnit = s.nextUnit ∧ (s.modRun n f).stash = s.stash ∧ (s.modRun n f).affinity = s.affinity
    ∧ (s.modRun n f).solo = s.solo ∧ (s.modRun n f).schedStep = s.schedStep ∧ (s.modRun n f).schedPhase = s.schedPhase
    ∧ (s.modRun n f).trellis = s.trellis ∧ (s.modRun n f).rakes = s.rakes ∧ (s.modRun n f).rakeProgs = s.rakeProgs
    ∧ (s.modRun n f).rphase = s.rphase ∧ (s.modRun n f).lastPhase = s.lastPhase ∧ (s.modRun n f).lastRec = s.lastRec
    ∧ (s.modRun n f).rakeHeld = s.rakeHeld ∧ (s.modRun n f).salt = s.salt ∧ (s.modRun n f).ports = s.ports
    ∧ (s.modRun n f).cxl = s.cxl ∧ (s.modRun n f).sess = s.sess ∧ (s.modRun n f).faults = s.faults
    ∧ (s.modRun n f).start = s.start ∧ (s.modRun n f).ident = s.ident ∧ (s.modRun n f).svc = s.svc
    ∧ (s.modRun n f).acks = s.acks ∧ (s.modRun n f).idles = s.idles ∧ (s.modRun n f).readOut = s.readOut
    ∧ (s.modRun n f).soft64 = s.soft64 ∧ (s.modRun n f).softRows = s.softRows ∧ (s.modRun n f).rowAcc = s.rowAcc
    ∧ (s.modRun n f).moveQ = s.moveQ := by
  repeat first | exact rfl | refine ⟨rfl, ?_⟩

/-- What `modEng` writes. -/
@[simp] theorem State.modEng_cores (s : State) (n : Nat) (f : Engine → Engine) : (s.modEng n f).cores = tput {} s.cores n { s.core n with run := { (s.core n).run with eng := f (s.core n).run.eng } } := rfl
/-- What `modEng` leaves alone. -/
@[simp] theorem State.modEng_frame (s : State) (n : Nat) (f : Engine → Engine) :
    (s.modEng n f).pending = s.pending ∧ (s.modEng n f).now = s.now ∧ (s.modEng n f).freeCtr = s.freeCtr
    ∧ (s.modEng n f).mem = s.mem ∧ (s.modEng n f).hostMem = s.hostMem ∧ (s.modEng n f).poison = s.poison
    ∧ (s.modEng n f).badRows = s.badRows ∧ (s.modEng n f).hostPoison = s.hostPoison ∧ (s.modEng n f).chanEcc = s.chanEcc
    ∧ (s.modEng n f).tractModes = s.tractModes ∧ (s.modEng n f).wbytes = s.wbytes ∧ (s.modEng n f).obytes = s.obytes
    ∧ (s.modEng n f).spSplit = s.spSplit ∧ (s.modEng n f).spReserve = s.spReserve ∧ (s.modEng n f).plotsz = s.plotsz
    ∧ (s.modEng n f).plotNext = s.plotNext ∧ (s.modEng n f).plotWait = s.plotWait ∧ (s.modEng n f).reconf = s.reconf
    ∧ (s.modEng n f).saved = s.saved ∧ (s.modEng n f).pegs = s.pegs ∧ (s.modEng n f).pegReqs = s.pegReqs
    ∧ (s.modEng n f).pegEpoch = s.pegEpoch ∧ (s.modEng n f).pegCtr = s.pegCtr ∧ (s.modEng n f).trays = s.trays
    ∧ (s.modEng n f).trayCe = s.trayCe ∧ (s.modEng n f).trayUe = s.trayUe ∧ (s.modEng n f).trayUeNew = s.trayUeNew
    ∧ (s.modEng n f).nRes = s.nRes ∧ (s.modEng n f).hdmBytes = s.hdmBytes ∧ (s.modEng n f).ctxs = s.ctxs
    ∧ (s.modEng n f).image = s.image ∧ (s.modEng n f).draining = s.draining ∧ (s.modEng n f).units = s.units
    ∧ (s.modEng n f).nextUnit = s.nextUnit ∧ (s.modEng n f).stash = s.stash ∧ (s.modEng n f).affinity = s.affinity
    ∧ (s.modEng n f).solo = s.solo ∧ (s.modEng n f).schedStep = s.schedStep ∧ (s.modEng n f).schedPhase = s.schedPhase
    ∧ (s.modEng n f).trellis = s.trellis ∧ (s.modEng n f).rakes = s.rakes ∧ (s.modEng n f).rakeProgs = s.rakeProgs
    ∧ (s.modEng n f).rphase = s.rphase ∧ (s.modEng n f).lastPhase = s.lastPhase ∧ (s.modEng n f).lastRec = s.lastRec
    ∧ (s.modEng n f).rakeHeld = s.rakeHeld ∧ (s.modEng n f).salt = s.salt ∧ (s.modEng n f).ports = s.ports
    ∧ (s.modEng n f).cxl = s.cxl ∧ (s.modEng n f).sess = s.sess ∧ (s.modEng n f).faults = s.faults
    ∧ (s.modEng n f).start = s.start ∧ (s.modEng n f).ident = s.ident ∧ (s.modEng n f).svc = s.svc
    ∧ (s.modEng n f).acks = s.acks ∧ (s.modEng n f).idles = s.idles ∧ (s.modEng n f).readOut = s.readOut
    ∧ (s.modEng n f).soft64 = s.soft64 ∧ (s.modEng n f).softRows = s.softRows ∧ (s.modEng n f).rowAcc = s.rowAcc
    ∧ (s.modEng n f).moveQ = s.moveQ := by
  repeat first | exact rfl | refine ⟨rfl, ?_⟩

/-- What `setCtx` writes. -/
@[simp] theorem State.setCtx_ctxs (s : State) (n : Nat) (x : Ctx) : (s.setCtx n x).ctxs = tput {} s.ctxs n x := rfl
/-- What `setCtx` leaves alone. -/
@[simp] theorem State.setCtx_frame (s : State) (n : Nat) (x : Ctx) :
    (s.setCtx n x).pending = s.pending ∧ (s.setCtx n x).now = s.now ∧ (s.setCtx n x).freeCtr = s.freeCtr
    ∧ (s.setCtx n x).mem = s.mem ∧ (s.setCtx n x).hostMem = s.hostMem ∧ (s.setCtx n x).poison = s.poison
    ∧ (s.setCtx n x).badRows = s.badRows ∧ (s.setCtx n x).hostPoison = s.hostPoison ∧ (s.setCtx n x).chanEcc = s.chanEcc
    ∧ (s.setCtx n x).tractModes = s.tractModes ∧ (s.setCtx n x).wbytes = s.wbytes ∧ (s.setCtx n x).obytes = s.obytes
    ∧ (s.setCtx n x).spSplit = s.spSplit ∧ (s.setCtx n x).spReserve = s.spReserve ∧ (s.setCtx n x).plotsz = s.plotsz
    ∧ (s.setCtx n x).plotNext = s.plotNext ∧ (s.setCtx n x).plotWait = s.plotWait ∧ (s.setCtx n x).reconf = s.reconf
    ∧ (s.setCtx n x).cores = s.cores ∧ (s.setCtx n x).saved = s.saved ∧ (s.setCtx n x).pegs = s.pegs
    ∧ (s.setCtx n x).pegReqs = s.pegReqs ∧ (s.setCtx n x).pegEpoch = s.pegEpoch ∧ (s.setCtx n x).pegCtr = s.pegCtr
    ∧ (s.setCtx n x).trays = s.trays ∧ (s.setCtx n x).trayCe = s.trayCe ∧ (s.setCtx n x).trayUe = s.trayUe
    ∧ (s.setCtx n x).trayUeNew = s.trayUeNew ∧ (s.setCtx n x).nRes = s.nRes ∧ (s.setCtx n x).hdmBytes = s.hdmBytes
    ∧ (s.setCtx n x).image = s.image ∧ (s.setCtx n x).draining = s.draining ∧ (s.setCtx n x).units = s.units
    ∧ (s.setCtx n x).nextUnit = s.nextUnit ∧ (s.setCtx n x).stash = s.stash ∧ (s.setCtx n x).affinity = s.affinity
    ∧ (s.setCtx n x).solo = s.solo ∧ (s.setCtx n x).schedStep = s.schedStep ∧ (s.setCtx n x).schedPhase = s.schedPhase
    ∧ (s.setCtx n x).trellis = s.trellis ∧ (s.setCtx n x).rakes = s.rakes ∧ (s.setCtx n x).rakeProgs = s.rakeProgs
    ∧ (s.setCtx n x).rphase = s.rphase ∧ (s.setCtx n x).lastPhase = s.lastPhase ∧ (s.setCtx n x).lastRec = s.lastRec
    ∧ (s.setCtx n x).rakeHeld = s.rakeHeld ∧ (s.setCtx n x).salt = s.salt ∧ (s.setCtx n x).ports = s.ports
    ∧ (s.setCtx n x).cxl = s.cxl ∧ (s.setCtx n x).sess = s.sess ∧ (s.setCtx n x).faults = s.faults
    ∧ (s.setCtx n x).start = s.start ∧ (s.setCtx n x).ident = s.ident ∧ (s.setCtx n x).svc = s.svc
    ∧ (s.setCtx n x).acks = s.acks ∧ (s.setCtx n x).idles = s.idles ∧ (s.setCtx n x).readOut = s.readOut
    ∧ (s.setCtx n x).soft64 = s.soft64 ∧ (s.setCtx n x).softRows = s.softRows ∧ (s.setCtx n x).rowAcc = s.rowAcc
    ∧ (s.setCtx n x).moveQ = s.moveQ := by
  repeat first | exact rfl | refine ⟨rfl, ?_⟩

/-- What `modCtx` writes. -/
@[simp] theorem State.modCtx_ctxs (s : State) (n : Nat) (f : Ctx → Ctx) : (s.modCtx n f).ctxs = tput {} s.ctxs n (f (s.ctx n)) := rfl
/-- What `modCtx` leaves alone. -/
@[simp] theorem State.modCtx_frame (s : State) (n : Nat) (f : Ctx → Ctx) :
    (s.modCtx n f).pending = s.pending ∧ (s.modCtx n f).now = s.now ∧ (s.modCtx n f).freeCtr = s.freeCtr
    ∧ (s.modCtx n f).mem = s.mem ∧ (s.modCtx n f).hostMem = s.hostMem ∧ (s.modCtx n f).poison = s.poison
    ∧ (s.modCtx n f).badRows = s.badRows ∧ (s.modCtx n f).hostPoison = s.hostPoison ∧ (s.modCtx n f).chanEcc = s.chanEcc
    ∧ (s.modCtx n f).tractModes = s.tractModes ∧ (s.modCtx n f).wbytes = s.wbytes ∧ (s.modCtx n f).obytes = s.obytes
    ∧ (s.modCtx n f).spSplit = s.spSplit ∧ (s.modCtx n f).spReserve = s.spReserve ∧ (s.modCtx n f).plotsz = s.plotsz
    ∧ (s.modCtx n f).plotNext = s.plotNext ∧ (s.modCtx n f).plotWait = s.plotWait ∧ (s.modCtx n f).reconf = s.reconf
    ∧ (s.modCtx n f).cores = s.cores ∧ (s.modCtx n f).saved = s.saved ∧ (s.modCtx n f).pegs = s.pegs
    ∧ (s.modCtx n f).pegReqs = s.pegReqs ∧ (s.modCtx n f).pegEpoch = s.pegEpoch ∧ (s.modCtx n f).pegCtr = s.pegCtr
    ∧ (s.modCtx n f).trays = s.trays ∧ (s.modCtx n f).trayCe = s.trayCe ∧ (s.modCtx n f).trayUe = s.trayUe
    ∧ (s.modCtx n f).trayUeNew = s.trayUeNew ∧ (s.modCtx n f).nRes = s.nRes ∧ (s.modCtx n f).hdmBytes = s.hdmBytes
    ∧ (s.modCtx n f).image = s.image ∧ (s.modCtx n f).draining = s.draining ∧ (s.modCtx n f).units = s.units
    ∧ (s.modCtx n f).nextUnit = s.nextUnit ∧ (s.modCtx n f).stash = s.stash ∧ (s.modCtx n f).affinity = s.affinity
    ∧ (s.modCtx n f).solo = s.solo ∧ (s.modCtx n f).schedStep = s.schedStep ∧ (s.modCtx n f).schedPhase = s.schedPhase
    ∧ (s.modCtx n f).trellis = s.trellis ∧ (s.modCtx n f).rakes = s.rakes ∧ (s.modCtx n f).rakeProgs = s.rakeProgs
    ∧ (s.modCtx n f).rphase = s.rphase ∧ (s.modCtx n f).lastPhase = s.lastPhase ∧ (s.modCtx n f).lastRec = s.lastRec
    ∧ (s.modCtx n f).rakeHeld = s.rakeHeld ∧ (s.modCtx n f).salt = s.salt ∧ (s.modCtx n f).ports = s.ports
    ∧ (s.modCtx n f).cxl = s.cxl ∧ (s.modCtx n f).sess = s.sess ∧ (s.modCtx n f).faults = s.faults
    ∧ (s.modCtx n f).start = s.start ∧ (s.modCtx n f).ident = s.ident ∧ (s.modCtx n f).svc = s.svc
    ∧ (s.modCtx n f).acks = s.acks ∧ (s.modCtx n f).idles = s.idles ∧ (s.modCtx n f).readOut = s.readOut
    ∧ (s.modCtx n f).soft64 = s.soft64 ∧ (s.modCtx n f).softRows = s.softRows ∧ (s.modCtx n f).rowAcc = s.rowAcc
    ∧ (s.modCtx n f).moveQ = s.moveQ := by
  repeat first | exact rfl | refine ⟨rfl, ?_⟩

/-- What `setTray` writes. -/
@[simp] theorem State.setTray_trays (s : State) (n : Nat) (x : Tray) : (s.setTray n x).trays = tput {} s.trays n x := rfl
/-- What `setTray` leaves alone. -/
@[simp] theorem State.setTray_frame (s : State) (n : Nat) (x : Tray) :
    (s.setTray n x).pending = s.pending ∧ (s.setTray n x).now = s.now ∧ (s.setTray n x).freeCtr = s.freeCtr
    ∧ (s.setTray n x).mem = s.mem ∧ (s.setTray n x).hostMem = s.hostMem ∧ (s.setTray n x).poison = s.poison
    ∧ (s.setTray n x).badRows = s.badRows ∧ (s.setTray n x).hostPoison = s.hostPoison ∧ (s.setTray n x).chanEcc = s.chanEcc
    ∧ (s.setTray n x).tractModes = s.tractModes ∧ (s.setTray n x).wbytes = s.wbytes ∧ (s.setTray n x).obytes = s.obytes
    ∧ (s.setTray n x).spSplit = s.spSplit ∧ (s.setTray n x).spReserve = s.spReserve ∧ (s.setTray n x).plotsz = s.plotsz
    ∧ (s.setTray n x).plotNext = s.plotNext ∧ (s.setTray n x).plotWait = s.plotWait ∧ (s.setTray n x).reconf = s.reconf
    ∧ (s.setTray n x).cores = s.cores ∧ (s.setTray n x).saved = s.saved ∧ (s.setTray n x).pegs = s.pegs
    ∧ (s.setTray n x).pegReqs = s.pegReqs ∧ (s.setTray n x).pegEpoch = s.pegEpoch ∧ (s.setTray n x).pegCtr = s.pegCtr
    ∧ (s.setTray n x).trayCe = s.trayCe ∧ (s.setTray n x).trayUe = s.trayUe ∧ (s.setTray n x).trayUeNew = s.trayUeNew
    ∧ (s.setTray n x).nRes = s.nRes ∧ (s.setTray n x).hdmBytes = s.hdmBytes ∧ (s.setTray n x).ctxs = s.ctxs
    ∧ (s.setTray n x).image = s.image ∧ (s.setTray n x).draining = s.draining ∧ (s.setTray n x).units = s.units
    ∧ (s.setTray n x).nextUnit = s.nextUnit ∧ (s.setTray n x).stash = s.stash ∧ (s.setTray n x).affinity = s.affinity
    ∧ (s.setTray n x).solo = s.solo ∧ (s.setTray n x).schedStep = s.schedStep ∧ (s.setTray n x).schedPhase = s.schedPhase
    ∧ (s.setTray n x).trellis = s.trellis ∧ (s.setTray n x).rakes = s.rakes ∧ (s.setTray n x).rakeProgs = s.rakeProgs
    ∧ (s.setTray n x).rphase = s.rphase ∧ (s.setTray n x).lastPhase = s.lastPhase ∧ (s.setTray n x).lastRec = s.lastRec
    ∧ (s.setTray n x).rakeHeld = s.rakeHeld ∧ (s.setTray n x).salt = s.salt ∧ (s.setTray n x).ports = s.ports
    ∧ (s.setTray n x).cxl = s.cxl ∧ (s.setTray n x).sess = s.sess ∧ (s.setTray n x).faults = s.faults
    ∧ (s.setTray n x).start = s.start ∧ (s.setTray n x).ident = s.ident ∧ (s.setTray n x).svc = s.svc
    ∧ (s.setTray n x).acks = s.acks ∧ (s.setTray n x).idles = s.idles ∧ (s.setTray n x).readOut = s.readOut
    ∧ (s.setTray n x).soft64 = s.soft64 ∧ (s.setTray n x).softRows = s.softRows ∧ (s.setTray n x).rowAcc = s.rowAcc
    ∧ (s.setTray n x).moveQ = s.moveQ := by
  repeat first | exact rfl | refine ⟨rfl, ?_⟩

/-- What `modTray` writes. -/
@[simp] theorem State.modTray_trays (s : State) (n : Nat) (f : Tray → Tray) : (s.modTray n f).trays = tput {} s.trays n (f (s.tray n)) := rfl
/-- What `modTray` leaves alone. -/
@[simp] theorem State.modTray_frame (s : State) (n : Nat) (f : Tray → Tray) :
    (s.modTray n f).pending = s.pending ∧ (s.modTray n f).now = s.now ∧ (s.modTray n f).freeCtr = s.freeCtr
    ∧ (s.modTray n f).mem = s.mem ∧ (s.modTray n f).hostMem = s.hostMem ∧ (s.modTray n f).poison = s.poison
    ∧ (s.modTray n f).badRows = s.badRows ∧ (s.modTray n f).hostPoison = s.hostPoison ∧ (s.modTray n f).chanEcc = s.chanEcc
    ∧ (s.modTray n f).tractModes = s.tractModes ∧ (s.modTray n f).wbytes = s.wbytes ∧ (s.modTray n f).obytes = s.obytes
    ∧ (s.modTray n f).spSplit = s.spSplit ∧ (s.modTray n f).spReserve = s.spReserve ∧ (s.modTray n f).plotsz = s.plotsz
    ∧ (s.modTray n f).plotNext = s.plotNext ∧ (s.modTray n f).plotWait = s.plotWait ∧ (s.modTray n f).reconf = s.reconf
    ∧ (s.modTray n f).cores = s.cores ∧ (s.modTray n f).saved = s.saved ∧ (s.modTray n f).pegs = s.pegs
    ∧ (s.modTray n f).pegReqs = s.pegReqs ∧ (s.modTray n f).pegEpoch = s.pegEpoch ∧ (s.modTray n f).pegCtr = s.pegCtr
    ∧ (s.modTray n f).trayCe = s.trayCe ∧ (s.modTray n f).trayUe = s.trayUe ∧ (s.modTray n f).trayUeNew = s.trayUeNew
    ∧ (s.modTray n f).nRes = s.nRes ∧ (s.modTray n f).hdmBytes = s.hdmBytes ∧ (s.modTray n f).ctxs = s.ctxs
    ∧ (s.modTray n f).image = s.image ∧ (s.modTray n f).draining = s.draining ∧ (s.modTray n f).units = s.units
    ∧ (s.modTray n f).nextUnit = s.nextUnit ∧ (s.modTray n f).stash = s.stash ∧ (s.modTray n f).affinity = s.affinity
    ∧ (s.modTray n f).solo = s.solo ∧ (s.modTray n f).schedStep = s.schedStep ∧ (s.modTray n f).schedPhase = s.schedPhase
    ∧ (s.modTray n f).trellis = s.trellis ∧ (s.modTray n f).rakes = s.rakes ∧ (s.modTray n f).rakeProgs = s.rakeProgs
    ∧ (s.modTray n f).rphase = s.rphase ∧ (s.modTray n f).lastPhase = s.lastPhase ∧ (s.modTray n f).lastRec = s.lastRec
    ∧ (s.modTray n f).rakeHeld = s.rakeHeld ∧ (s.modTray n f).salt = s.salt ∧ (s.modTray n f).ports = s.ports
    ∧ (s.modTray n f).cxl = s.cxl ∧ (s.modTray n f).sess = s.sess ∧ (s.modTray n f).faults = s.faults
    ∧ (s.modTray n f).start = s.start ∧ (s.modTray n f).ident = s.ident ∧ (s.modTray n f).svc = s.svc
    ∧ (s.modTray n f).acks = s.acks ∧ (s.modTray n f).idles = s.idles ∧ (s.modTray n f).readOut = s.readOut
    ∧ (s.modTray n f).soft64 = s.soft64 ∧ (s.modTray n f).softRows = s.softRows ∧ (s.modTray n f).rowAcc = s.rowAcc
    ∧ (s.modTray n f).moveQ = s.moveQ := by
  repeat first | exact rfl | refine ⟨rfl, ?_⟩

/-- What `setPeg` writes. -/
@[simp] theorem State.setPeg_pegs (s : State) (n : Nat) (x : Peg) : (s.setPeg n x).pegs = tput {} s.pegs n x := rfl
/-- What `setPeg` leaves alone. -/
@[simp] theorem State.setPeg_frame (s : State) (n : Nat) (x : Peg) :
    (s.setPeg n x).pending = s.pending ∧ (s.setPeg n x).now = s.now ∧ (s.setPeg n x).freeCtr = s.freeCtr
    ∧ (s.setPeg n x).mem = s.mem ∧ (s.setPeg n x).hostMem = s.hostMem ∧ (s.setPeg n x).poison = s.poison
    ∧ (s.setPeg n x).badRows = s.badRows ∧ (s.setPeg n x).hostPoison = s.hostPoison ∧ (s.setPeg n x).chanEcc = s.chanEcc
    ∧ (s.setPeg n x).tractModes = s.tractModes ∧ (s.setPeg n x).wbytes = s.wbytes ∧ (s.setPeg n x).obytes = s.obytes
    ∧ (s.setPeg n x).spSplit = s.spSplit ∧ (s.setPeg n x).spReserve = s.spReserve ∧ (s.setPeg n x).plotsz = s.plotsz
    ∧ (s.setPeg n x).plotNext = s.plotNext ∧ (s.setPeg n x).plotWait = s.plotWait ∧ (s.setPeg n x).reconf = s.reconf
    ∧ (s.setPeg n x).cores = s.cores ∧ (s.setPeg n x).saved = s.saved ∧ (s.setPeg n x).pegReqs = s.pegReqs
    ∧ (s.setPeg n x).pegEpoch = s.pegEpoch ∧ (s.setPeg n x).pegCtr = s.pegCtr ∧ (s.setPeg n x).trays = s.trays
    ∧ (s.setPeg n x).trayCe = s.trayCe ∧ (s.setPeg n x).trayUe = s.trayUe ∧ (s.setPeg n x).trayUeNew = s.trayUeNew
    ∧ (s.setPeg n x).nRes = s.nRes ∧ (s.setPeg n x).hdmBytes = s.hdmBytes ∧ (s.setPeg n x).ctxs = s.ctxs
    ∧ (s.setPeg n x).image = s.image ∧ (s.setPeg n x).draining = s.draining ∧ (s.setPeg n x).units = s.units
    ∧ (s.setPeg n x).nextUnit = s.nextUnit ∧ (s.setPeg n x).stash = s.stash ∧ (s.setPeg n x).affinity = s.affinity
    ∧ (s.setPeg n x).solo = s.solo ∧ (s.setPeg n x).schedStep = s.schedStep ∧ (s.setPeg n x).schedPhase = s.schedPhase
    ∧ (s.setPeg n x).trellis = s.trellis ∧ (s.setPeg n x).rakes = s.rakes ∧ (s.setPeg n x).rakeProgs = s.rakeProgs
    ∧ (s.setPeg n x).rphase = s.rphase ∧ (s.setPeg n x).lastPhase = s.lastPhase ∧ (s.setPeg n x).lastRec = s.lastRec
    ∧ (s.setPeg n x).rakeHeld = s.rakeHeld ∧ (s.setPeg n x).salt = s.salt ∧ (s.setPeg n x).ports = s.ports
    ∧ (s.setPeg n x).cxl = s.cxl ∧ (s.setPeg n x).sess = s.sess ∧ (s.setPeg n x).faults = s.faults
    ∧ (s.setPeg n x).start = s.start ∧ (s.setPeg n x).ident = s.ident ∧ (s.setPeg n x).svc = s.svc
    ∧ (s.setPeg n x).acks = s.acks ∧ (s.setPeg n x).idles = s.idles ∧ (s.setPeg n x).readOut = s.readOut
    ∧ (s.setPeg n x).soft64 = s.soft64 ∧ (s.setPeg n x).softRows = s.softRows ∧ (s.setPeg n x).rowAcc = s.rowAcc
    ∧ (s.setPeg n x).moveQ = s.moveQ := by
  repeat first | exact rfl | refine ⟨rfl, ?_⟩

/-- What `setRake` writes. -/
@[simp] theorem State.setRake_rakes (s : State) (n : Nat) (x : Rake) : (s.setRake n x).rakes = tput {} s.rakes n x := rfl
/-- What `setRake` leaves alone. -/
@[simp] theorem State.setRake_frame (s : State) (n : Nat) (x : Rake) :
    (s.setRake n x).pending = s.pending ∧ (s.setRake n x).now = s.now ∧ (s.setRake n x).freeCtr = s.freeCtr
    ∧ (s.setRake n x).mem = s.mem ∧ (s.setRake n x).hostMem = s.hostMem ∧ (s.setRake n x).poison = s.poison
    ∧ (s.setRake n x).badRows = s.badRows ∧ (s.setRake n x).hostPoison = s.hostPoison ∧ (s.setRake n x).chanEcc = s.chanEcc
    ∧ (s.setRake n x).tractModes = s.tractModes ∧ (s.setRake n x).wbytes = s.wbytes ∧ (s.setRake n x).obytes = s.obytes
    ∧ (s.setRake n x).spSplit = s.spSplit ∧ (s.setRake n x).spReserve = s.spReserve ∧ (s.setRake n x).plotsz = s.plotsz
    ∧ (s.setRake n x).plotNext = s.plotNext ∧ (s.setRake n x).plotWait = s.plotWait ∧ (s.setRake n x).reconf = s.reconf
    ∧ (s.setRake n x).cores = s.cores ∧ (s.setRake n x).saved = s.saved ∧ (s.setRake n x).pegs = s.pegs
    ∧ (s.setRake n x).pegReqs = s.pegReqs ∧ (s.setRake n x).pegEpoch = s.pegEpoch ∧ (s.setRake n x).pegCtr = s.pegCtr
    ∧ (s.setRake n x).trays = s.trays ∧ (s.setRake n x).trayCe = s.trayCe ∧ (s.setRake n x).trayUe = s.trayUe
    ∧ (s.setRake n x).trayUeNew = s.trayUeNew ∧ (s.setRake n x).nRes = s.nRes ∧ (s.setRake n x).hdmBytes = s.hdmBytes
    ∧ (s.setRake n x).ctxs = s.ctxs ∧ (s.setRake n x).image = s.image ∧ (s.setRake n x).draining = s.draining
    ∧ (s.setRake n x).units = s.units ∧ (s.setRake n x).nextUnit = s.nextUnit ∧ (s.setRake n x).stash = s.stash
    ∧ (s.setRake n x).affinity = s.affinity ∧ (s.setRake n x).solo = s.solo ∧ (s.setRake n x).schedStep = s.schedStep
    ∧ (s.setRake n x).schedPhase = s.schedPhase ∧ (s.setRake n x).trellis = s.trellis ∧ (s.setRake n x).rakeProgs = s.rakeProgs
    ∧ (s.setRake n x).rphase = s.rphase ∧ (s.setRake n x).lastPhase = s.lastPhase ∧ (s.setRake n x).lastRec = s.lastRec
    ∧ (s.setRake n x).rakeHeld = s.rakeHeld ∧ (s.setRake n x).salt = s.salt ∧ (s.setRake n x).ports = s.ports
    ∧ (s.setRake n x).cxl = s.cxl ∧ (s.setRake n x).sess = s.sess ∧ (s.setRake n x).faults = s.faults
    ∧ (s.setRake n x).start = s.start ∧ (s.setRake n x).ident = s.ident ∧ (s.setRake n x).svc = s.svc
    ∧ (s.setRake n x).acks = s.acks ∧ (s.setRake n x).idles = s.idles ∧ (s.setRake n x).readOut = s.readOut
    ∧ (s.setRake n x).soft64 = s.soft64 ∧ (s.setRake n x).softRows = s.softRows ∧ (s.setRake n x).rowAcc = s.rowAcc
    ∧ (s.setRake n x).moveQ = s.moveQ := by
  repeat first | exact rfl | refine ⟨rfl, ?_⟩

/-- What `modRake` writes. -/
@[simp] theorem State.modRake_rakes (s : State) (n : Nat) (f : Rake → Rake) : (s.modRake n f).rakes = tput {} s.rakes n (f (s.rake n)) := rfl
/-- What `modRake` leaves alone. -/
@[simp] theorem State.modRake_frame (s : State) (n : Nat) (f : Rake → Rake) :
    (s.modRake n f).pending = s.pending ∧ (s.modRake n f).now = s.now ∧ (s.modRake n f).freeCtr = s.freeCtr
    ∧ (s.modRake n f).mem = s.mem ∧ (s.modRake n f).hostMem = s.hostMem ∧ (s.modRake n f).poison = s.poison
    ∧ (s.modRake n f).badRows = s.badRows ∧ (s.modRake n f).hostPoison = s.hostPoison ∧ (s.modRake n f).chanEcc = s.chanEcc
    ∧ (s.modRake n f).tractModes = s.tractModes ∧ (s.modRake n f).wbytes = s.wbytes ∧ (s.modRake n f).obytes = s.obytes
    ∧ (s.modRake n f).spSplit = s.spSplit ∧ (s.modRake n f).spReserve = s.spReserve ∧ (s.modRake n f).plotsz = s.plotsz
    ∧ (s.modRake n f).plotNext = s.plotNext ∧ (s.modRake n f).plotWait = s.plotWait ∧ (s.modRake n f).reconf = s.reconf
    ∧ (s.modRake n f).cores = s.cores ∧ (s.modRake n f).saved = s.saved ∧ (s.modRake n f).pegs = s.pegs
    ∧ (s.modRake n f).pegReqs = s.pegReqs ∧ (s.modRake n f).pegEpoch = s.pegEpoch ∧ (s.modRake n f).pegCtr = s.pegCtr
    ∧ (s.modRake n f).trays = s.trays ∧ (s.modRake n f).trayCe = s.trayCe ∧ (s.modRake n f).trayUe = s.trayUe
    ∧ (s.modRake n f).trayUeNew = s.trayUeNew ∧ (s.modRake n f).nRes = s.nRes ∧ (s.modRake n f).hdmBytes = s.hdmBytes
    ∧ (s.modRake n f).ctxs = s.ctxs ∧ (s.modRake n f).image = s.image ∧ (s.modRake n f).draining = s.draining
    ∧ (s.modRake n f).units = s.units ∧ (s.modRake n f).nextUnit = s.nextUnit ∧ (s.modRake n f).stash = s.stash
    ∧ (s.modRake n f).affinity = s.affinity ∧ (s.modRake n f).solo = s.solo ∧ (s.modRake n f).schedStep = s.schedStep
    ∧ (s.modRake n f).schedPhase = s.schedPhase ∧ (s.modRake n f).trellis = s.trellis ∧ (s.modRake n f).rakeProgs = s.rakeProgs
    ∧ (s.modRake n f).rphase = s.rphase ∧ (s.modRake n f).lastPhase = s.lastPhase ∧ (s.modRake n f).lastRec = s.lastRec
    ∧ (s.modRake n f).rakeHeld = s.rakeHeld ∧ (s.modRake n f).salt = s.salt ∧ (s.modRake n f).ports = s.ports
    ∧ (s.modRake n f).cxl = s.cxl ∧ (s.modRake n f).sess = s.sess ∧ (s.modRake n f).faults = s.faults
    ∧ (s.modRake n f).start = s.start ∧ (s.modRake n f).ident = s.ident ∧ (s.modRake n f).svc = s.svc
    ∧ (s.modRake n f).acks = s.acks ∧ (s.modRake n f).idles = s.idles ∧ (s.modRake n f).readOut = s.readOut
    ∧ (s.modRake n f).soft64 = s.soft64 ∧ (s.modRake n f).softRows = s.softRows ∧ (s.modRake n f).rowAcc = s.rowAcc
    ∧ (s.modRake n f).moveQ = s.moveQ := by
  repeat first | exact rfl | refine ⟨rfl, ?_⟩

/-- What `setPort` writes. -/
@[simp] theorem State.setPort_ports (s : State) (n : Nat) (x : Port) : (s.setPort n x).ports = tput {} s.ports n x := rfl
/-- What `setPort` leaves alone. -/
@[simp] theorem State.setPort_frame (s : State) (n : Nat) (x : Port) :
    (s.setPort n x).pending = s.pending ∧ (s.setPort n x).now = s.now ∧ (s.setPort n x).freeCtr = s.freeCtr
    ∧ (s.setPort n x).mem = s.mem ∧ (s.setPort n x).hostMem = s.hostMem ∧ (s.setPort n x).poison = s.poison
    ∧ (s.setPort n x).badRows = s.badRows ∧ (s.setPort n x).hostPoison = s.hostPoison ∧ (s.setPort n x).chanEcc = s.chanEcc
    ∧ (s.setPort n x).tractModes = s.tractModes ∧ (s.setPort n x).wbytes = s.wbytes ∧ (s.setPort n x).obytes = s.obytes
    ∧ (s.setPort n x).spSplit = s.spSplit ∧ (s.setPort n x).spReserve = s.spReserve ∧ (s.setPort n x).plotsz = s.plotsz
    ∧ (s.setPort n x).plotNext = s.plotNext ∧ (s.setPort n x).plotWait = s.plotWait ∧ (s.setPort n x).reconf = s.reconf
    ∧ (s.setPort n x).cores = s.cores ∧ (s.setPort n x).saved = s.saved ∧ (s.setPort n x).pegs = s.pegs
    ∧ (s.setPort n x).pegReqs = s.pegReqs ∧ (s.setPort n x).pegEpoch = s.pegEpoch ∧ (s.setPort n x).pegCtr = s.pegCtr
    ∧ (s.setPort n x).trays = s.trays ∧ (s.setPort n x).trayCe = s.trayCe ∧ (s.setPort n x).trayUe = s.trayUe
    ∧ (s.setPort n x).trayUeNew = s.trayUeNew ∧ (s.setPort n x).nRes = s.nRes ∧ (s.setPort n x).hdmBytes = s.hdmBytes
    ∧ (s.setPort n x).ctxs = s.ctxs ∧ (s.setPort n x).image = s.image ∧ (s.setPort n x).draining = s.draining
    ∧ (s.setPort n x).units = s.units ∧ (s.setPort n x).nextUnit = s.nextUnit ∧ (s.setPort n x).stash = s.stash
    ∧ (s.setPort n x).affinity = s.affinity ∧ (s.setPort n x).solo = s.solo ∧ (s.setPort n x).schedStep = s.schedStep
    ∧ (s.setPort n x).schedPhase = s.schedPhase ∧ (s.setPort n x).trellis = s.trellis ∧ (s.setPort n x).rakes = s.rakes
    ∧ (s.setPort n x).rakeProgs = s.rakeProgs ∧ (s.setPort n x).rphase = s.rphase ∧ (s.setPort n x).lastPhase = s.lastPhase
    ∧ (s.setPort n x).lastRec = s.lastRec ∧ (s.setPort n x).rakeHeld = s.rakeHeld ∧ (s.setPort n x).salt = s.salt
    ∧ (s.setPort n x).cxl = s.cxl ∧ (s.setPort n x).sess = s.sess ∧ (s.setPort n x).faults = s.faults
    ∧ (s.setPort n x).start = s.start ∧ (s.setPort n x).ident = s.ident ∧ (s.setPort n x).svc = s.svc
    ∧ (s.setPort n x).acks = s.acks ∧ (s.setPort n x).idles = s.idles ∧ (s.setPort n x).readOut = s.readOut
    ∧ (s.setPort n x).soft64 = s.soft64 ∧ (s.setPort n x).softRows = s.softRows ∧ (s.setPort n x).rowAcc = s.rowAcc
    ∧ (s.setPort n x).moveQ = s.moveQ := by
  repeat first | exact rfl | refine ⟨rfl, ?_⟩

/-- What `modPort` writes. -/
@[simp] theorem State.modPort_ports (s : State) (n : Nat) (f : Port → Port) : (s.modPort n f).ports = tput {} s.ports n (f (s.port n)) := rfl
/-- What `modPort` leaves alone. -/
@[simp] theorem State.modPort_frame (s : State) (n : Nat) (f : Port → Port) :
    (s.modPort n f).pending = s.pending ∧ (s.modPort n f).now = s.now ∧ (s.modPort n f).freeCtr = s.freeCtr
    ∧ (s.modPort n f).mem = s.mem ∧ (s.modPort n f).hostMem = s.hostMem ∧ (s.modPort n f).poison = s.poison
    ∧ (s.modPort n f).badRows = s.badRows ∧ (s.modPort n f).hostPoison = s.hostPoison ∧ (s.modPort n f).chanEcc = s.chanEcc
    ∧ (s.modPort n f).tractModes = s.tractModes ∧ (s.modPort n f).wbytes = s.wbytes ∧ (s.modPort n f).obytes = s.obytes
    ∧ (s.modPort n f).spSplit = s.spSplit ∧ (s.modPort n f).spReserve = s.spReserve ∧ (s.modPort n f).plotsz = s.plotsz
    ∧ (s.modPort n f).plotNext = s.plotNext ∧ (s.modPort n f).plotWait = s.plotWait ∧ (s.modPort n f).reconf = s.reconf
    ∧ (s.modPort n f).cores = s.cores ∧ (s.modPort n f).saved = s.saved ∧ (s.modPort n f).pegs = s.pegs
    ∧ (s.modPort n f).pegReqs = s.pegReqs ∧ (s.modPort n f).pegEpoch = s.pegEpoch ∧ (s.modPort n f).pegCtr = s.pegCtr
    ∧ (s.modPort n f).trays = s.trays ∧ (s.modPort n f).trayCe = s.trayCe ∧ (s.modPort n f).trayUe = s.trayUe
    ∧ (s.modPort n f).trayUeNew = s.trayUeNew ∧ (s.modPort n f).nRes = s.nRes ∧ (s.modPort n f).hdmBytes = s.hdmBytes
    ∧ (s.modPort n f).ctxs = s.ctxs ∧ (s.modPort n f).image = s.image ∧ (s.modPort n f).draining = s.draining
    ∧ (s.modPort n f).units = s.units ∧ (s.modPort n f).nextUnit = s.nextUnit ∧ (s.modPort n f).stash = s.stash
    ∧ (s.modPort n f).affinity = s.affinity ∧ (s.modPort n f).solo = s.solo ∧ (s.modPort n f).schedStep = s.schedStep
    ∧ (s.modPort n f).schedPhase = s.schedPhase ∧ (s.modPort n f).trellis = s.trellis ∧ (s.modPort n f).rakes = s.rakes
    ∧ (s.modPort n f).rakeProgs = s.rakeProgs ∧ (s.modPort n f).rphase = s.rphase ∧ (s.modPort n f).lastPhase = s.lastPhase
    ∧ (s.modPort n f).lastRec = s.lastRec ∧ (s.modPort n f).rakeHeld = s.rakeHeld ∧ (s.modPort n f).salt = s.salt
    ∧ (s.modPort n f).cxl = s.cxl ∧ (s.modPort n f).sess = s.sess ∧ (s.modPort n f).faults = s.faults
    ∧ (s.modPort n f).start = s.start ∧ (s.modPort n f).ident = s.ident ∧ (s.modPort n f).svc = s.svc
    ∧ (s.modPort n f).acks = s.acks ∧ (s.modPort n f).idles = s.idles ∧ (s.modPort n f).readOut = s.readOut
    ∧ (s.modPort n f).soft64 = s.soft64 ∧ (s.modPort n f).softRows = s.softRows ∧ (s.modPort n f).rowAcc = s.rowAcc
    ∧ (s.modPort n f).moveQ = s.moveQ := by
  repeat first | exact rfl | refine ⟨rfl, ?_⟩

/-- What `modCxl` writes. -/
@[simp] theorem State.modCxl_cxl (s : State) (f : Cxl → Cxl) : (s.modCxl f).cxl = f s.cxl := rfl
/-- What `modCxl` leaves alone. -/
@[simp] theorem State.modCxl_frame (s : State) (f : Cxl → Cxl) :
    (s.modCxl f).pending = s.pending ∧ (s.modCxl f).now = s.now ∧ (s.modCxl f).freeCtr = s.freeCtr ∧ (s.modCxl f).mem = s.mem
    ∧ (s.modCxl f).hostMem = s.hostMem ∧ (s.modCxl f).poison = s.poison ∧ (s.modCxl f).badRows = s.badRows
    ∧ (s.modCxl f).hostPoison = s.hostPoison ∧ (s.modCxl f).chanEcc = s.chanEcc ∧ (s.modCxl f).tractModes = s.tractModes
    ∧ (s.modCxl f).wbytes = s.wbytes ∧ (s.modCxl f).obytes = s.obytes ∧ (s.modCxl f).spSplit = s.spSplit
    ∧ (s.modCxl f).spReserve = s.spReserve ∧ (s.modCxl f).plotsz = s.plotsz ∧ (s.modCxl f).plotNext = s.plotNext
    ∧ (s.modCxl f).plotWait = s.plotWait ∧ (s.modCxl f).reconf = s.reconf ∧ (s.modCxl f).cores = s.cores
    ∧ (s.modCxl f).saved = s.saved ∧ (s.modCxl f).pegs = s.pegs ∧ (s.modCxl f).pegReqs = s.pegReqs
    ∧ (s.modCxl f).pegEpoch = s.pegEpoch ∧ (s.modCxl f).pegCtr = s.pegCtr ∧ (s.modCxl f).trays = s.trays
    ∧ (s.modCxl f).trayCe = s.trayCe ∧ (s.modCxl f).trayUe = s.trayUe ∧ (s.modCxl f).trayUeNew = s.trayUeNew
    ∧ (s.modCxl f).nRes = s.nRes ∧ (s.modCxl f).hdmBytes = s.hdmBytes ∧ (s.modCxl f).ctxs = s.ctxs
    ∧ (s.modCxl f).image = s.image ∧ (s.modCxl f).draining = s.draining ∧ (s.modCxl f).units = s.units
    ∧ (s.modCxl f).nextUnit = s.nextUnit ∧ (s.modCxl f).stash = s.stash ∧ (s.modCxl f).affinity = s.affinity
    ∧ (s.modCxl f).solo = s.solo ∧ (s.modCxl f).schedStep = s.schedStep ∧ (s.modCxl f).schedPhase = s.schedPhase
    ∧ (s.modCxl f).trellis = s.trellis ∧ (s.modCxl f).rakes = s.rakes ∧ (s.modCxl f).rakeProgs = s.rakeProgs
    ∧ (s.modCxl f).rphase = s.rphase ∧ (s.modCxl f).lastPhase = s.lastPhase ∧ (s.modCxl f).lastRec = s.lastRec
    ∧ (s.modCxl f).rakeHeld = s.rakeHeld ∧ (s.modCxl f).salt = s.salt ∧ (s.modCxl f).ports = s.ports
    ∧ (s.modCxl f).sess = s.sess ∧ (s.modCxl f).faults = s.faults ∧ (s.modCxl f).start = s.start ∧ (s.modCxl f).ident = s.ident
    ∧ (s.modCxl f).svc = s.svc ∧ (s.modCxl f).acks = s.acks ∧ (s.modCxl f).idles = s.idles ∧ (s.modCxl f).readOut = s.readOut
    ∧ (s.modCxl f).soft64 = s.soft64 ∧ (s.modCxl f).softRows = s.softRows ∧ (s.modCxl f).rowAcc = s.rowAcc
    ∧ (s.modCxl f).moveQ = s.moveQ := by
  repeat first | exact rfl | refine ⟨rfl, ?_⟩

/-- What `modFaults` writes. -/
@[simp] theorem State.modFaults_faults (s : State) (f : Faults → Faults) : (s.modFaults f).faults = f s.faults := rfl
/-- What `modFaults` leaves alone. -/
@[simp] theorem State.modFaults_frame (s : State) (f : Faults → Faults) :
    (s.modFaults f).pending = s.pending ∧ (s.modFaults f).now = s.now ∧ (s.modFaults f).freeCtr = s.freeCtr
    ∧ (s.modFaults f).mem = s.mem ∧ (s.modFaults f).hostMem = s.hostMem ∧ (s.modFaults f).poison = s.poison
    ∧ (s.modFaults f).badRows = s.badRows ∧ (s.modFaults f).hostPoison = s.hostPoison ∧ (s.modFaults f).chanEcc = s.chanEcc
    ∧ (s.modFaults f).tractModes = s.tractModes ∧ (s.modFaults f).wbytes = s.wbytes ∧ (s.modFaults f).obytes = s.obytes
    ∧ (s.modFaults f).spSplit = s.spSplit ∧ (s.modFaults f).spReserve = s.spReserve ∧ (s.modFaults f).plotsz = s.plotsz
    ∧ (s.modFaults f).plotNext = s.plotNext ∧ (s.modFaults f).plotWait = s.plotWait ∧ (s.modFaults f).reconf = s.reconf
    ∧ (s.modFaults f).cores = s.cores ∧ (s.modFaults f).saved = s.saved ∧ (s.modFaults f).pegs = s.pegs
    ∧ (s.modFaults f).pegReqs = s.pegReqs ∧ (s.modFaults f).pegEpoch = s.pegEpoch ∧ (s.modFaults f).pegCtr = s.pegCtr
    ∧ (s.modFaults f).trays = s.trays ∧ (s.modFaults f).trayCe = s.trayCe ∧ (s.modFaults f).trayUe = s.trayUe
    ∧ (s.modFaults f).trayUeNew = s.trayUeNew ∧ (s.modFaults f).nRes = s.nRes ∧ (s.modFaults f).hdmBytes = s.hdmBytes
    ∧ (s.modFaults f).ctxs = s.ctxs ∧ (s.modFaults f).image = s.image ∧ (s.modFaults f).draining = s.draining
    ∧ (s.modFaults f).units = s.units ∧ (s.modFaults f).nextUnit = s.nextUnit ∧ (s.modFaults f).stash = s.stash
    ∧ (s.modFaults f).affinity = s.affinity ∧ (s.modFaults f).solo = s.solo ∧ (s.modFaults f).schedStep = s.schedStep
    ∧ (s.modFaults f).schedPhase = s.schedPhase ∧ (s.modFaults f).trellis = s.trellis ∧ (s.modFaults f).rakes = s.rakes
    ∧ (s.modFaults f).rakeProgs = s.rakeProgs ∧ (s.modFaults f).rphase = s.rphase ∧ (s.modFaults f).lastPhase = s.lastPhase
    ∧ (s.modFaults f).lastRec = s.lastRec ∧ (s.modFaults f).rakeHeld = s.rakeHeld ∧ (s.modFaults f).salt = s.salt
    ∧ (s.modFaults f).ports = s.ports ∧ (s.modFaults f).cxl = s.cxl ∧ (s.modFaults f).sess = s.sess
    ∧ (s.modFaults f).start = s.start ∧ (s.modFaults f).ident = s.ident ∧ (s.modFaults f).svc = s.svc
    ∧ (s.modFaults f).acks = s.acks ∧ (s.modFaults f).idles = s.idles ∧ (s.modFaults f).readOut = s.readOut
    ∧ (s.modFaults f).soft64 = s.soft64 ∧ (s.modFaults f).softRows = s.softRows ∧ (s.modFaults f).rowAcc = s.rowAcc
    ∧ (s.modFaults f).moveQ = s.moveQ := by
  repeat first | exact rfl | refine ⟨rfl, ?_⟩

/-- What `modSalt` writes. -/
@[simp] theorem State.modSalt_salt (s : State) (f : Salt → Salt) : (s.modSalt f).salt = f s.salt := rfl
/-- What `modSalt` leaves alone. -/
@[simp] theorem State.modSalt_frame (s : State) (f : Salt → Salt) :
    (s.modSalt f).pending = s.pending ∧ (s.modSalt f).now = s.now ∧ (s.modSalt f).freeCtr = s.freeCtr
    ∧ (s.modSalt f).mem = s.mem ∧ (s.modSalt f).hostMem = s.hostMem ∧ (s.modSalt f).poison = s.poison
    ∧ (s.modSalt f).badRows = s.badRows ∧ (s.modSalt f).hostPoison = s.hostPoison ∧ (s.modSalt f).chanEcc = s.chanEcc
    ∧ (s.modSalt f).tractModes = s.tractModes ∧ (s.modSalt f).wbytes = s.wbytes ∧ (s.modSalt f).obytes = s.obytes
    ∧ (s.modSalt f).spSplit = s.spSplit ∧ (s.modSalt f).spReserve = s.spReserve ∧ (s.modSalt f).plotsz = s.plotsz
    ∧ (s.modSalt f).plotNext = s.plotNext ∧ (s.modSalt f).plotWait = s.plotWait ∧ (s.modSalt f).reconf = s.reconf
    ∧ (s.modSalt f).cores = s.cores ∧ (s.modSalt f).saved = s.saved ∧ (s.modSalt f).pegs = s.pegs
    ∧ (s.modSalt f).pegReqs = s.pegReqs ∧ (s.modSalt f).pegEpoch = s.pegEpoch ∧ (s.modSalt f).pegCtr = s.pegCtr
    ∧ (s.modSalt f).trays = s.trays ∧ (s.modSalt f).trayCe = s.trayCe ∧ (s.modSalt f).trayUe = s.trayUe
    ∧ (s.modSalt f).trayUeNew = s.trayUeNew ∧ (s.modSalt f).nRes = s.nRes ∧ (s.modSalt f).hdmBytes = s.hdmBytes
    ∧ (s.modSalt f).ctxs = s.ctxs ∧ (s.modSalt f).image = s.image ∧ (s.modSalt f).draining = s.draining
    ∧ (s.modSalt f).units = s.units ∧ (s.modSalt f).nextUnit = s.nextUnit ∧ (s.modSalt f).stash = s.stash
    ∧ (s.modSalt f).affinity = s.affinity ∧ (s.modSalt f).solo = s.solo ∧ (s.modSalt f).schedStep = s.schedStep
    ∧ (s.modSalt f).schedPhase = s.schedPhase ∧ (s.modSalt f).trellis = s.trellis ∧ (s.modSalt f).rakes = s.rakes
    ∧ (s.modSalt f).rakeProgs = s.rakeProgs ∧ (s.modSalt f).rphase = s.rphase ∧ (s.modSalt f).lastPhase = s.lastPhase
    ∧ (s.modSalt f).lastRec = s.lastRec ∧ (s.modSalt f).rakeHeld = s.rakeHeld ∧ (s.modSalt f).ports = s.ports
    ∧ (s.modSalt f).cxl = s.cxl ∧ (s.modSalt f).sess = s.sess ∧ (s.modSalt f).faults = s.faults ∧ (s.modSalt f).start = s.start
    ∧ (s.modSalt f).ident = s.ident ∧ (s.modSalt f).svc = s.svc ∧ (s.modSalt f).acks = s.acks ∧ (s.modSalt f).idles = s.idles
    ∧ (s.modSalt f).readOut = s.readOut
    ∧ (s.modSalt f).soft64 = s.soft64 ∧ (s.modSalt f).softRows = s.softRows ∧ (s.modSalt f).rowAcc = s.rowAcc
    ∧ (s.modSalt f).moveQ = s.moveQ := by
  repeat first | exact rfl | refine ⟨rfl, ?_⟩

/-- What `modStart` writes. -/
@[simp] theorem State.modStart_start (s : State) (f : Start → Start) : (s.modStart f).start = f s.start := rfl
/-- What `modStart` leaves alone. -/
@[simp] theorem State.modStart_frame (s : State) (f : Start → Start) :
    (s.modStart f).pending = s.pending ∧ (s.modStart f).now = s.now ∧ (s.modStart f).freeCtr = s.freeCtr
    ∧ (s.modStart f).mem = s.mem ∧ (s.modStart f).hostMem = s.hostMem ∧ (s.modStart f).poison = s.poison
    ∧ (s.modStart f).badRows = s.badRows ∧ (s.modStart f).hostPoison = s.hostPoison ∧ (s.modStart f).chanEcc = s.chanEcc
    ∧ (s.modStart f).tractModes = s.tractModes ∧ (s.modStart f).wbytes = s.wbytes ∧ (s.modStart f).obytes = s.obytes
    ∧ (s.modStart f).spSplit = s.spSplit ∧ (s.modStart f).spReserve = s.spReserve ∧ (s.modStart f).plotsz = s.plotsz
    ∧ (s.modStart f).plotNext = s.plotNext ∧ (s.modStart f).plotWait = s.plotWait ∧ (s.modStart f).reconf = s.reconf
    ∧ (s.modStart f).cores = s.cores ∧ (s.modStart f).saved = s.saved ∧ (s.modStart f).pegs = s.pegs
    ∧ (s.modStart f).pegReqs = s.pegReqs ∧ (s.modStart f).pegEpoch = s.pegEpoch ∧ (s.modStart f).pegCtr = s.pegCtr
    ∧ (s.modStart f).trays = s.trays ∧ (s.modStart f).trayCe = s.trayCe ∧ (s.modStart f).trayUe = s.trayUe
    ∧ (s.modStart f).trayUeNew = s.trayUeNew ∧ (s.modStart f).nRes = s.nRes ∧ (s.modStart f).hdmBytes = s.hdmBytes
    ∧ (s.modStart f).ctxs = s.ctxs ∧ (s.modStart f).image = s.image ∧ (s.modStart f).draining = s.draining
    ∧ (s.modStart f).units = s.units ∧ (s.modStart f).nextUnit = s.nextUnit ∧ (s.modStart f).stash = s.stash
    ∧ (s.modStart f).affinity = s.affinity ∧ (s.modStart f).solo = s.solo ∧ (s.modStart f).schedStep = s.schedStep
    ∧ (s.modStart f).schedPhase = s.schedPhase ∧ (s.modStart f).trellis = s.trellis ∧ (s.modStart f).rakes = s.rakes
    ∧ (s.modStart f).rakeProgs = s.rakeProgs ∧ (s.modStart f).rphase = s.rphase ∧ (s.modStart f).lastPhase = s.lastPhase
    ∧ (s.modStart f).lastRec = s.lastRec ∧ (s.modStart f).rakeHeld = s.rakeHeld ∧ (s.modStart f).salt = s.salt
    ∧ (s.modStart f).ports = s.ports ∧ (s.modStart f).cxl = s.cxl ∧ (s.modStart f).sess = s.sess
    ∧ (s.modStart f).faults = s.faults ∧ (s.modStart f).ident = s.ident ∧ (s.modStart f).svc = s.svc
    ∧ (s.modStart f).acks = s.acks ∧ (s.modStart f).idles = s.idles ∧ (s.modStart f).readOut = s.readOut
    ∧ (s.modStart f).soft64 = s.soft64 ∧ (s.modStart f).softRows = s.softRows ∧ (s.modStart f).rowAcc = s.rowAcc
    ∧ (s.modStart f).moveQ = s.moveQ := by
  repeat first | exact rfl | refine ⟨rfl, ?_⟩

/-- What `modSvc` writes. -/
@[simp] theorem State.modSvc_svc (s : State) (f : Service → Service) : (s.modSvc f).svc = f s.svc := rfl
/-- What `modSvc` leaves alone. -/
@[simp] theorem State.modSvc_frame (s : State) (f : Service → Service) :
    (s.modSvc f).pending = s.pending ∧ (s.modSvc f).now = s.now ∧ (s.modSvc f).freeCtr = s.freeCtr ∧ (s.modSvc f).mem = s.mem
    ∧ (s.modSvc f).hostMem = s.hostMem ∧ (s.modSvc f).poison = s.poison ∧ (s.modSvc f).badRows = s.badRows
    ∧ (s.modSvc f).hostPoison = s.hostPoison ∧ (s.modSvc f).chanEcc = s.chanEcc ∧ (s.modSvc f).tractModes = s.tractModes
    ∧ (s.modSvc f).wbytes = s.wbytes ∧ (s.modSvc f).obytes = s.obytes ∧ (s.modSvc f).spSplit = s.spSplit
    ∧ (s.modSvc f).spReserve = s.spReserve ∧ (s.modSvc f).plotsz = s.plotsz ∧ (s.modSvc f).plotNext = s.plotNext
    ∧ (s.modSvc f).plotWait = s.plotWait ∧ (s.modSvc f).reconf = s.reconf ∧ (s.modSvc f).cores = s.cores
    ∧ (s.modSvc f).saved = s.saved ∧ (s.modSvc f).pegs = s.pegs ∧ (s.modSvc f).pegReqs = s.pegReqs
    ∧ (s.modSvc f).pegEpoch = s.pegEpoch ∧ (s.modSvc f).pegCtr = s.pegCtr ∧ (s.modSvc f).trays = s.trays
    ∧ (s.modSvc f).trayCe = s.trayCe ∧ (s.modSvc f).trayUe = s.trayUe ∧ (s.modSvc f).trayUeNew = s.trayUeNew
    ∧ (s.modSvc f).nRes = s.nRes ∧ (s.modSvc f).hdmBytes = s.hdmBytes ∧ (s.modSvc f).ctxs = s.ctxs
    ∧ (s.modSvc f).image = s.image ∧ (s.modSvc f).draining = s.draining ∧ (s.modSvc f).units = s.units
    ∧ (s.modSvc f).nextUnit = s.nextUnit ∧ (s.modSvc f).stash = s.stash ∧ (s.modSvc f).affinity = s.affinity
    ∧ (s.modSvc f).solo = s.solo ∧ (s.modSvc f).schedStep = s.schedStep ∧ (s.modSvc f).schedPhase = s.schedPhase
    ∧ (s.modSvc f).trellis = s.trellis ∧ (s.modSvc f).rakes = s.rakes ∧ (s.modSvc f).rakeProgs = s.rakeProgs
    ∧ (s.modSvc f).rphase = s.rphase ∧ (s.modSvc f).lastPhase = s.lastPhase ∧ (s.modSvc f).lastRec = s.lastRec
    ∧ (s.modSvc f).rakeHeld = s.rakeHeld ∧ (s.modSvc f).salt = s.salt ∧ (s.modSvc f).ports = s.ports ∧ (s.modSvc f).cxl = s.cxl
    ∧ (s.modSvc f).sess = s.sess ∧ (s.modSvc f).faults = s.faults ∧ (s.modSvc f).start = s.start ∧ (s.modSvc f).ident = s.ident
    ∧ (s.modSvc f).acks = s.acks ∧ (s.modSvc f).idles = s.idles ∧ (s.modSvc f).readOut = s.readOut
    ∧ (s.modSvc f).soft64 = s.soft64 ∧ (s.modSvc f).softRows = s.softRows ∧ (s.modSvc f).rowAcc = s.rowAcc
    ∧ (s.modSvc f).moveQ = s.moveQ := by
  repeat first | exact rfl | refine ⟨rfl, ?_⟩

/-- What `modIdent` writes. -/
@[simp] theorem State.modIdent_ident (s : State) (f : Ident → Ident) : (s.modIdent f).ident = f s.ident := rfl
/-- What `modIdent` leaves alone. -/
@[simp] theorem State.modIdent_frame (s : State) (f : Ident → Ident) :
    (s.modIdent f).pending = s.pending ∧ (s.modIdent f).now = s.now ∧ (s.modIdent f).freeCtr = s.freeCtr
    ∧ (s.modIdent f).mem = s.mem ∧ (s.modIdent f).hostMem = s.hostMem ∧ (s.modIdent f).poison = s.poison
    ∧ (s.modIdent f).badRows = s.badRows ∧ (s.modIdent f).hostPoison = s.hostPoison ∧ (s.modIdent f).chanEcc = s.chanEcc
    ∧ (s.modIdent f).tractModes = s.tractModes ∧ (s.modIdent f).wbytes = s.wbytes ∧ (s.modIdent f).obytes = s.obytes
    ∧ (s.modIdent f).spSplit = s.spSplit ∧ (s.modIdent f).spReserve = s.spReserve ∧ (s.modIdent f).plotsz = s.plotsz
    ∧ (s.modIdent f).plotNext = s.plotNext ∧ (s.modIdent f).plotWait = s.plotWait ∧ (s.modIdent f).reconf = s.reconf
    ∧ (s.modIdent f).cores = s.cores ∧ (s.modIdent f).saved = s.saved ∧ (s.modIdent f).pegs = s.pegs
    ∧ (s.modIdent f).pegReqs = s.pegReqs ∧ (s.modIdent f).pegEpoch = s.pegEpoch ∧ (s.modIdent f).pegCtr = s.pegCtr
    ∧ (s.modIdent f).trays = s.trays ∧ (s.modIdent f).trayCe = s.trayCe ∧ (s.modIdent f).trayUe = s.trayUe
    ∧ (s.modIdent f).trayUeNew = s.trayUeNew ∧ (s.modIdent f).nRes = s.nRes ∧ (s.modIdent f).hdmBytes = s.hdmBytes
    ∧ (s.modIdent f).ctxs = s.ctxs ∧ (s.modIdent f).image = s.image ∧ (s.modIdent f).draining = s.draining
    ∧ (s.modIdent f).units = s.units ∧ (s.modIdent f).nextUnit = s.nextUnit ∧ (s.modIdent f).stash = s.stash
    ∧ (s.modIdent f).affinity = s.affinity ∧ (s.modIdent f).solo = s.solo ∧ (s.modIdent f).schedStep = s.schedStep
    ∧ (s.modIdent f).schedPhase = s.schedPhase ∧ (s.modIdent f).trellis = s.trellis ∧ (s.modIdent f).rakes = s.rakes
    ∧ (s.modIdent f).rakeProgs = s.rakeProgs ∧ (s.modIdent f).rphase = s.rphase ∧ (s.modIdent f).lastPhase = s.lastPhase
    ∧ (s.modIdent f).lastRec = s.lastRec ∧ (s.modIdent f).rakeHeld = s.rakeHeld ∧ (s.modIdent f).salt = s.salt
    ∧ (s.modIdent f).ports = s.ports ∧ (s.modIdent f).cxl = s.cxl ∧ (s.modIdent f).sess = s.sess
    ∧ (s.modIdent f).faults = s.faults ∧ (s.modIdent f).start = s.start ∧ (s.modIdent f).svc = s.svc
    ∧ (s.modIdent f).acks = s.acks ∧ (s.modIdent f).idles = s.idles ∧ (s.modIdent f).readOut = s.readOut
    ∧ (s.modIdent f).soft64 = s.soft64 ∧ (s.modIdent f).softRows = s.softRows ∧ (s.modIdent f).rowAcc = s.rowAcc
    ∧ (s.modIdent f).moveQ = s.moveQ := by
  repeat first | exact rfl | refine ⟨rfl, ?_⟩

/-- What `modTrellis` writes. -/
@[simp] theorem State.modTrellis_trellis (s : State) (f : Trellis → Trellis) : (s.modTrellis f).trellis = f s.trellis := rfl
/-- What `modTrellis` leaves alone. -/
@[simp] theorem State.modTrellis_frame (s : State) (f : Trellis → Trellis) :
    (s.modTrellis f).pending = s.pending ∧ (s.modTrellis f).now = s.now ∧ (s.modTrellis f).freeCtr = s.freeCtr
    ∧ (s.modTrellis f).mem = s.mem ∧ (s.modTrellis f).hostMem = s.hostMem ∧ (s.modTrellis f).poison = s.poison
    ∧ (s.modTrellis f).badRows = s.badRows ∧ (s.modTrellis f).hostPoison = s.hostPoison ∧ (s.modTrellis f).chanEcc = s.chanEcc
    ∧ (s.modTrellis f).tractModes = s.tractModes ∧ (s.modTrellis f).wbytes = s.wbytes ∧ (s.modTrellis f).obytes = s.obytes
    ∧ (s.modTrellis f).spSplit = s.spSplit ∧ (s.modTrellis f).spReserve = s.spReserve ∧ (s.modTrellis f).plotsz = s.plotsz
    ∧ (s.modTrellis f).plotNext = s.plotNext ∧ (s.modTrellis f).plotWait = s.plotWait ∧ (s.modTrellis f).reconf = s.reconf
    ∧ (s.modTrellis f).cores = s.cores ∧ (s.modTrellis f).saved = s.saved ∧ (s.modTrellis f).pegs = s.pegs
    ∧ (s.modTrellis f).pegReqs = s.pegReqs ∧ (s.modTrellis f).pegEpoch = s.pegEpoch ∧ (s.modTrellis f).pegCtr = s.pegCtr
    ∧ (s.modTrellis f).trays = s.trays ∧ (s.modTrellis f).trayCe = s.trayCe ∧ (s.modTrellis f).trayUe = s.trayUe
    ∧ (s.modTrellis f).trayUeNew = s.trayUeNew ∧ (s.modTrellis f).nRes = s.nRes ∧ (s.modTrellis f).hdmBytes = s.hdmBytes
    ∧ (s.modTrellis f).ctxs = s.ctxs ∧ (s.modTrellis f).image = s.image ∧ (s.modTrellis f).draining = s.draining
    ∧ (s.modTrellis f).units = s.units ∧ (s.modTrellis f).nextUnit = s.nextUnit ∧ (s.modTrellis f).stash = s.stash
    ∧ (s.modTrellis f).affinity = s.affinity ∧ (s.modTrellis f).solo = s.solo ∧ (s.modTrellis f).schedStep = s.schedStep
    ∧ (s.modTrellis f).schedPhase = s.schedPhase ∧ (s.modTrellis f).rakes = s.rakes ∧ (s.modTrellis f).rakeProgs = s.rakeProgs
    ∧ (s.modTrellis f).rphase = s.rphase ∧ (s.modTrellis f).lastPhase = s.lastPhase ∧ (s.modTrellis f).lastRec = s.lastRec
    ∧ (s.modTrellis f).rakeHeld = s.rakeHeld ∧ (s.modTrellis f).salt = s.salt ∧ (s.modTrellis f).ports = s.ports
    ∧ (s.modTrellis f).cxl = s.cxl ∧ (s.modTrellis f).sess = s.sess ∧ (s.modTrellis f).faults = s.faults
    ∧ (s.modTrellis f).start = s.start ∧ (s.modTrellis f).ident = s.ident ∧ (s.modTrellis f).svc = s.svc
    ∧ (s.modTrellis f).acks = s.acks ∧ (s.modTrellis f).idles = s.idles ∧ (s.modTrellis f).readOut = s.readOut
    ∧ (s.modTrellis f).soft64 = s.soft64 ∧ (s.modTrellis f).softRows = s.softRows ∧ (s.modTrellis f).rowAcc = s.rowAcc
    ∧ (s.modTrellis f).moveQ = s.moveQ := by
  repeat first | exact rfl | refine ⟨rfl, ?_⟩

end Sys2Proof.Machine
end

