-- ==== Sys2Proof/Laws/Cores.lean ====
section
/-! SUPPORT. A core in the state's table of cores, and what the issue unit of a waiting core does with a word. -/

namespace Sys2Proof.Machine

/-- A core that is not idle is not the table's default. -/
theorem core_ne {c : Core} (h : c.mode ≠ .idle) : c ≠ {} := by
  intro e
  subst e
  exact h rfl

/-- The core just set, where it is not idle. -/
theorem core_setCore (s : State) (n : Nat) {c : Core} (h : c.mode ≠ .idle) : (s.setCore n c).core n = c :=
  tget_tput_ne ({} : Core) s.cores n (core_ne h)

/-- Of two updates of one core that stays busy, the later holds. -/
theorem setCore_setCore (s : State) (n : Nat) {c d : Core} (hc : c.mode ≠ .idle) (hd : d.mode ≠ .idle) :
    (s.setCore n c).setCore n d = s.setCore n d := by
  unfold State.setCore
  simp only
  rw [tput_tput_ne ({} : Core) s.cores n (core_ne hc) (core_ne hd)]

/-- The run of a busy core after an update of it. -/
theorem core_modRun (s : State) (n : Nat) (f : Run → Run) (h : (s.core n).mode ≠ .idle) :
    (s.modRun n f).core n = { s.core n with run := f (s.core n).run } :=
  core_setCore s n (c := { s.core n with run := f (s.core n).run }) h

/-- Two updates of a busy core's run in a row. -/
theorem modRun_modRun (s : State) (n : Nat) (f g : Run → Run) (h : (s.core n).mode ≠ .idle) :
    (s.modRun n f).modRun n g = s.modRun n (fun r => g (f r)) := by
  have hc := core_modRun s n f h
  have e : (s.modRun n f).modRun n g = (s.modRun n f).setCore n { (s.modRun n f).core n with run := g ((s.modRun n f).core n).run } := rfl
  rw [e, hc]
  exact setCore_setCore s n (c := { s.core n with run := f (s.core n).run }) (d := { s.core n with run := g (f (s.core n).run) }) h h

/-- Updates that agree on a core's run agree. -/
theorem modRun_congr (s : State) (n : Nat) {f g : Run → Run} (h : f (s.core n).run = g (s.core n).run) : s.modRun n f = s.modRun n g := by
  simp only [State.modRun, State.modCore, h]

/-- Counting a read of memory changes no core. -/
@[simp] theorem core_noteRead (s : State) (a k n : Nat) : (noteRead s a k).core n = s.core n := rfl

/-- Outside every loop a word keeps its fields (R121). -/
@[simp] theorem strideWord_nil (p : Nat) (w : W128) : strideWord [] p w = some w := by
  have h : List.range 4 = [0, 1, 2, 3] := rfl
  simp [strideWord, h]

/-- A core without queued words executes nothing. -/
theorem executeOne_empty {s : State} {n : Nat} (h : (s.core n).run.q = []) : executeOne s n = none := by
  unfold executeOne
  split
  · rfl
  · simp [passGate, h, runFrom]

/-- Outside every loop a dispatched word leaves the fetch queue (R118, R121). -/
theorem pass_outside {r : Run} (hp : r.pos = 0) (hl : r.loops = []) :
    r.pass = { r with prog := r.prog.drop 1, pos := 0, hi := max r.hi 1 - 1 } := by
  simp [Run.pass, loopAdvance, hp, hl]

/-- The issue unit of a core that waits for a word fetches and dispatches a unit's word that passes its checks. -/
theorem issueWord_waiting {a : State} {n : Nat} {w : W128} (h : Waiting a n) (hu : unitOf w ≠ 0) (hq : 0 < queueCap (unitOf w))
    (hf : issueFault (a.core n).run w = none) (hg : wOp w ≠ 0x11) :
    issueWord a n w = pumpCore n 71 (dispatched a n w) := by
  obtain ⟨h1, h2, h3, h4, h5, h6, h7, h8, h9⟩ := h
  have hn : (a.core n).mode ≠ .idle := by rw [h1]; decide
  have hfw : fetchWord a n w = (noteRead a (a.core n).run.progPc 16).modRun n fun r =>
      { r with prog := r.prog ++ [(r.progPc, w)], progPc := r.progPc + 16 } := by
    simp [fetchWord, h1, h2, h3, h5, h8, h9]
  unfold issueWord
  simp only
  rw [hfw]
  generalize hs : (noteRead a (a.core n).run.progPc 16).modRun n
    (fun r => { r with prog := r.prog ++ [(r.progPc, w)], progPc := r.progPc + 16 }) = s1
  have hc : s1.core n = { a.core n with run := { (a.core n).run with
      prog := [((a.core n).run.progPc, w)], progPc := (a.core n).run.progPc + 16 } } := by
    rw [← hs, core_modRun _ _ _ (by simpa using hn)]
    simp [h3]
  have hfuel : pumpFuel (s1.core n).run = 71 + 1 := by simp [pumpFuel, hc, h7]
  have hd : dispatchOne s1 n = some (dispatched a n w) := by
    have hq0 : queueRoom (s1.core n).run (unitOf w) = true := by simp [queueRoom, hc, h7, hq]
    have hf1 : issueFault (s1.core n).run w = none := by rw [hc]; exact hf
    have hsw : strideWord (s1.core n).run.loops (s1.core n).run.pos w = some w := by
      rw [hc]
      simp only [h6]
      exact strideWord_nil _ _
    have hp : (s1.core n).run.prog[(s1.core n).run.pos]? = some ((a.core n).run.progPc, w) := by
      rw [hc]
      simp [h4]
    have hm : ¬((s1.core n).mode ≠ .running ∨ (s1.core n).run.ended = true) := by
      rw [hc]
      simp [h1, h2]
    unfold dispatchOne
    simp only [hm, if_false, hp, hsw, hg, hu, hq0, hf1]
    simp only [ne_eq, Bool.not_true, Bool.and_false, Bool.false_eq_true, if_false, Option.some.injEq]
    rw [← hs]
    unfold coreCount State.modEng
    have hn' : ((noteRead a (a.core n).run.progPc 16).core n).mode ≠ .idle := hn
    rw [modRun_modRun (noteRead a (a.core n).run.progPc 16) _ _ _ hn', modRun_modRun _ _ _ _ hn']
    unfold dispatched passed
    refine modRun_congr _ _ ?_
    simp only [core_noteRead, dispatchUnit, Sys2Proof.queued, wordEntry]
    rw [pass_outside (by simpa using h4) (by simpa using h6)]
    simp [h3, h4, h5, h7]
  have he : executeOne s1 n = none := executeOne_empty (by rw [hc]; exact h7)
  rw [hfuel, pumpCore, he]
  simp only [hd]

/-- The run of a waiting core that has dispatched a unit's word. -/
theorem dispatched_core {a : State} {n : Nat} (w : W128) (h : (a.core n).mode = .running) :
    (dispatched a n w).core n = { a.core n with run :=
      let r := queued a n w { (a.core n).run with progPc := (a.core n).run.progPc + 16 }
      { r with eng := r.eng.count 0x18 1 } } := by
  unfold dispatched passed
  exact core_modRun _ _ _ (by simp [h])

/-- Writes of local memory change no core. -/
@[simp] theorem core_writeMem (s : State) (k : Nat) (l : List Byte) (bad : Bool) (n : Nat) : (writeMem s k l bad).core n = s.core n := by
  unfold writeMem State.core
  simp only
  split
  · split <;> rfl
  · split
    · split <;> rfl
    · rfl

/-- Writes of local memory change no context. -/
@[simp] theorem writeMem_ctxs (s : State) (k : Nat) (l : List Byte) (bad : Bool) : (writeMem s k l bad).ctxs = s.ctxs := by
  unfold writeMem
  simp only
  split
  · split <;> rfl
  · split
    · split <;> rfl
    · rfl

/-- A run of writes of local memory changes no core. -/
theorem core_writes (s : State) (f : State → Nat × List Byte → Nat) (l : List (Nat × List Byte)) (n : Nat) :
    (l.foldl (fun s w => writeMem s (f s w) w.2) s).core n = s.core n := by
  induction l generalizing s with
  | nil => rfl
  | cons e t ih => rw [List.foldl_cons, ih, core_writeMem]

/-- Correcting a row leaves a busy core's run and mode alone. -/
theorem correctRow_core {s : State} {n : Nat} (k : Nat) (h : (s.core n).mode ≠ .idle) :
    ((correctRow s k).core n).run = (s.core n).run ∧ ((correctRow s k).core n).mode = (s.core n).mode := by
  unfold correctRow State.modCore
  by_cases e : n = k / 49152
  · subst e
    constructor
    · rw [core_setCore s _ (by exact h)]
    · rw [core_setCore s _ (by exact h)]
  · have : ∀ c : Core, ((s.setCore (k / 49152) c).core n) = s.core n := fun c => tget_tput_other ({} : Core) s.cores c e
    simp only [this, and_self]

/-- The corrections of a word's reads leave a busy core's run and mode alone. -/
theorem softReads_core {s : State} {n : Nat} (w : W128) (h : (s.core n).mode ≠ .idle) :
    ((softReads s n w).core n).run = (s.core n).run ∧ ((softReads s n w).core n).mode = (s.core n).mode := by
  unfold softReads
  generalize (readRows w).map (fun r => rowKey n ((s.core n).run.rowBase + r)) = l
  induction l generalizing s with
  | nil => exact ⟨rfl, rfl⟩
  | cons k t ih =>
    rw [List.foldl_cons]
    split
    · have hk := correctRow_core k h
      have := ih (s := correctRow s k) (by rw [hk.2]; exact h)
      rw [hk.1, hk.2] at this
      exact this
    · exact ih h

/-- What a unit that executed a word leaves in its busy core. -/
theorem applyOut_core {s : State} {n i : Nat} (e : QWord) (g : Engine) (wr : List (Nat × List Byte)) (h : (s.core n).mode ≠ .idle) :
    (applyOut s n i e (.ok g wr)).core n = { (softReads s n e.word).core n with run := { (s.core n).run with
      eng := g, q := modAt (s.core n).run.q i fun e => { e with done := true, taken := [] } } } := by
  have hs := softReads_core e.word h
  have hn : ((softReads s n e.word).core n).mode ≠ .idle := by rw [hs.2]; exact h
  unfold applyOut
  simp only
  rw [core_writes _ (fun s w => rowAddr n (s.core n).run.rowBase + w.1)]
  show ((modQ ((softReads s n e.word).modEng n fun _ => g) n i fun e => { e with done := true, taken := [] }).core n) = _
  unfold modQ State.modEng
  rw [modRun_modRun _ n _ _ hn, core_modRun _ n _ hn, hs.1]

/-- A core whose one queued word has executed, waits for its reply or is a gate, with nothing fetched, is at rest. -/
theorem pump_rest {s : State} {n : Nat} {e : QWord} (k : Nat) (hp : (s.core n).run.prog = []) (hq : (s.core n).run.q = [e])
    (hg : e.gate ≠ some []) (h : e.done = true ∨ e.kick ≠ none ∨ e.gate ≠ none) : pumpCore n k s = s := by
  have h1 : executeOne s n = none := by
    unfold executeOne
    split
    · rfl
    · have : (e.gate.isNone && !e.done && e.kick.isNone && mayRun (heldRows s n) [] e) = false := by
        rcases h with h | h | h
        · simp [h]
        · cases hk : e.kick with
          | none => exact absurd hk h
          | some x => simp
        · cases hk : e.gate with
          | none => exact absurd hk h
          | some x => simp
      have hp : passGate (s.core n).run = none := by
        simp [passGate, hq, hg]
      rw [hp, hq]
      simp only [runFrom, this, Bool.false_eq_true, if_false, Option.map_none]
  have h2 : dispatchOne s n = none := by
    unfold dispatchOne
    simp only [hp, List.getElem?_nil]
    split <;> rfl
  cases k with
  | zero => rfl
  | succ k =>
    rw [pumpCore, h1]
    simp only [h2]

/-- A core with nothing queued and nothing fetched is at rest. -/
theorem pump_empty {s : State} {n : Nat} (k : Nat) (hp : (s.core n).run.prog = []) (hq : (s.core n).run.q = []) : pumpCore n k s = s := by
  have h2 : dispatchOne s n = none := by
    unfold dispatchOne
    simp only [hp, List.getElem?_nil]
    split <;> rfl
  cases k with
  | zero => rfl
  | succ k =>
    rw [pumpCore, executeOne_empty hq]
    simp only [h2]

/-- A core that has stopped executes and dispatches nothing. -/
theorem pump_stopped {s : State} {n : Nat} (k : Nat) (h : (s.core n).mode ≠ .running) : pumpCore n k s = s := by
  have h1 : executeOne s n = none := by
    unfold executeOne
    rw [if_pos h]
  have h2 : dispatchOne s n = none := by
    unfold dispatchOne
    simp only [h, ne_eq, not_false_eq_true, true_or, if_true]
  cases k with
  | zero => rfl
  | succ k =>
    rw [pumpCore, h1]
    simp only [h2]

/-- A word that leaves every context as it was has torn none down. -/
theorem tornBy_same {s s' : State} (n : Nat) (h : s'.ctxs = s.ctxs) : tornBy s s' n = false := by
  have : ∀ c, s'.ctx c = s.ctx c := fun c => by unfold State.ctx; rw [h]
  simp [tornBy, this]

/-- What a unit that executed a word leaves of the contexts. -/
theorem applyOut_ctxs (s : State) (n i : Nat) (e : QWord) (g : Engine) (wr : List (Nat × List Byte)) :
    (applyOut s n i e (.ok g wr)).ctxs = s.ctxs := by
  have hw : ∀ (f : State → Nat × List Byte → Nat) (l : List (Nat × List Byte)) (x : State),
      (l.foldl (fun s w => writeMem s (f s w) w.2) x).ctxs = x.ctxs := by
    intro f l
    induction l with
    | nil => intro x; rfl
    | cons w t ih => intro x; rw [List.foldl_cons, ih, writeMem_ctxs]
  have hs : (softReads s n e.word).ctxs = s.ctxs := by
    unfold softReads
    generalize (readRows e.word).map (fun r => rowKey n ((s.core n).run.rowBase + r)) = l
    induction l generalizing s with
    | nil => rfl
    | cons k t ih =>
      rw [List.foldl_cons, ih]
      split <;> rfl
  unfold applyOut
  rw [hw (fun s w => rowAddr n (s.core n).run.rowBase + w.1)]
  exact hs

/-- A running core executes its one queued word, where that tears no context down. -/
theorem pump_step {s s' : State} {n : Nat} {e : QWord} (k : Nat) (h : (s.core n).mode = .running) (hq : (s.core n).run.q = [e])
    (hg : e.gate = none) (hd : e.done = false) (hk : e.kick = none) (hm : mayRun (heldRows s n) [] e = true)
    (hr : runEntry s n 0 e = some s') (ht : tornBy s s' n = false) : pumpCore n (k + 1) s = pumpCore n k s' := by
  have h1 : executeOne s n = some s' := by
    have hp : passGate (s.core n).run = none := by simp [passGate, hq, hg]
    unfold executeOne
    simp [h, hp, hq, runFrom, hg, hd, hk, hm, hr, markMulti, ht]
  rw [pumpCore, h1]

/-- Only a drain of accumulators waits on rows that are held (R101). -/
theorem mayRun_alone {held : List Nat} {e : QWord} (h : wOp e.word ≠ 0x03) : mayRun held [] e = true := by
  simp [mayRun, h]

/-- A unit's word at a core that waits for it is fetched, dispatched and executed. -/
theorem issueWord_steps {a s' : State} {n : Nat} {w : W128} (h : Waiting a n) (hu : unitOf w ≠ 0)
    (hf : issueFault (a.core n).run w = none) (hm : mayRun (heldRows (dispatched a n w) n) [] (wordEntry a n w) = true)
    (hr : runEntry (dispatched a n w) n 0 (wordEntry a n w) = some s') (ht : tornBy (dispatched a n w) s' n = false) :
    issueWord a n w = pumpCore n 70 s' := by
  have hq : 0 < queueCap (unitOf w) := by unfold queueCap; split <;> omega
  have hg : wOp w ≠ 0x11 := by
    intro e
    exact hu (by simp [unitOf, e])
  rw [issueWord_waiting h hu hq hf hg]
  have hc := dispatched_core (a := a) (n := n) w h.1
  refine pump_step 70 ?_ ?_ rfl rfl rfl hm hr ht
  · rw [hc]
    exact h.1
  · rw [hc]
    rfl

/-- A word that its unit executes at once, at a core that waits for it (R116). -/
theorem issueWord_executes {a : State} {n : Nat} {w : W128} {g : Engine} {wr : List (Nat × List Byte)} (h : Waiting a n)
    (hu : unitOf w ≠ 0) (hf : issueFault (a.core n).run w = none)
    (hm : mayRun (heldRows (dispatched a n w) n) [] (wordEntry a n w) = true)
    (hr : runEntry (dispatched a n w) n 0 (wordEntry a n w) = some (applyOut (dispatched a n w) n 0 (wordEntry a n w) (.ok g wr))) :
    issueWord a n w = applyOut (dispatched a n w) n 0 (wordEntry a n w) (.ok g wr) := by
  rw [issueWord_steps h hu hf hm hr (tornBy_same n (applyOut_ctxs _ _ _ _ _ _))]
  have hc := dispatched_core (a := a) (n := n) w h.1
  have hn : ((dispatched a n w).core n).mode ≠ .idle := by
    rw [hc]
    simp [h.1]
  have ha := applyOut_core (i := 0) (wordEntry a n w) g wr hn
  refine pump_rest (e := { wordEntry a n w with done := true, taken := [] }) 70 ?_ ?_ (by simp [wordEntry]) (Or.inl rfl)
  · rw [ha, hc]
    exact h.2.2.1
  · rw [ha, hc]
    rfl

end Sys2Proof.Machine
end

