-- ==== Sys2Proof/Laws/Exec.lean ====
section
/-! SUPPORT. Each row of the table as what it does to a part that is on: one equation per row, true by unfolding, so that no proof
unfolds the dispatch. -/

namespace Sys2Proof.Machine

/-- A row of a part that is on acts on what the own progress leaves. -/
theorem run_meets {s a : State} (h : Meets s a) (f : State → State) : run s f = .next (f a) := by
  obtain ⟨h1, h2⟩ := h
  simp [run, h1, h2]

/-- A row of a part without power changes nothing. -/
theorem run_off {s : State} (h : powered s = false) (f : State → State) : run s f = .next s := by simp [run, h]

theorem exec_powerOn (i : StartInputs) (s : State) : exec (.powerOn i) s = .next (powerOn s i) := rfl
theorem exec_pwrokFall (s : State) : exec .pwrokFall s = .next (powerOff s) := rfl
theorem exec_boardReset (railsHeld : Bool) (i : StartInputs) (s : State) :
    exec (.boardReset railsHeld i) s = if powered s && !railsHeld then .fault .undefinedStart else run s fun s => warmReset s 1 i := rfl
theorem exec_watchdog (i : StartInputs) (s : State) : exec (.watchdog i) s = run s fun s => warmReset s 4 i := rfl
theorem exec_fatalFaultReset (i : StartInputs) (s : State) : exec (.fatalFaultReset i) s = run s fun s => warmReset s 5 i := rfl
theorem exec_cxPerst (assert : Bool) (width rate : Nat) (flit256 : Bool) (s : State) :
    exec (.cxPerst assert width rate flit256) s = run s fun s => cxPerst s assert width rate flit256 := rfl
theorem exec_hardwareTrip (s : State) : exec .hardwareTrip s = run s hardwareTrip := rfl
theorem exec_bootReq (p : PortId) (die : Nat) (pos parts : Nat) (s : State) :
    exec (.bootReq p die pos parts) s = run s fun s => bootReq s p.val die pos parts := rfl
theorem exec_bootData (p : PortId) (part off : Nat) (bytes : List Byte) (s : State) :
    exec (.bootData p part off bytes) s = run s fun s => bootData s p.val part off bytes := rfl
theorem exec_bootEnd (p : PortId) (part len : Nat) (digest : List Byte) (status : Nat) (s : State) :
    exec (.bootEnd p part len digest status) s = run s fun s => bootEnd s p.val part len digest status := rfl
theorem exec_trainPut (p : PortId) (die : Nat) (bytes : List Byte) (s : State) :
    exec (.trainPut p die bytes) s = run s fun s => trainPut s p.val die bytes := rfl
theorem exec_bootRetry (s : State) : exec .bootRetry s = run s bootRetry := rfl
theorem exec_meshBootRestart (s : State) : exec .meshBootRestart s = run s meshRestart := rfl
theorem exec_nop (c : CoreId) (w : W128) (s : State) : exec (.nop c w) s = run s fun s => issueWord s c.val w := rfl
theorem exec_endW (c : CoreId) (f : BitVec 120) (s : State) :
    exec (.endW c f) s = run s fun s => issueWord s c.val (mkWord 0x14 f) := rfl
theorem exec_gate (c : CoreId) (f : BitVec 120) (s : State) :
    exec (.gate c f) s = run s fun s => issueWord s c.val (mkWord 0x11 f) := rfl
theorem exec_gateRelease (c : CoreId) (s : State) : exec (.gateRelease c) s = run s fun s => goOn (dropGates s c.val) c.val := rfl
theorem exec_loop (c : CoreId) (f : BitVec 120) (s : State) :
    exec (.loop c f) s = run s fun s => issueWord s c.val (mkWord 0x12 f) := rfl
theorem exec_seed (c : CoreId) (f : BitVec 120) (s : State) :
    exec (.seed c f) s = run s fun s => issueWord s c.val (mkWord 0x13 f) := rfl
theorem exec_programComplete (c : CoreId) (s : State) :
    exec (.programComplete c) s = run s fun s => if programDone s c.val then finishUnits (coreDone s c.val) else s := rfl
theorem exec_engineWordComplete (c : CoreId) (u : Fin 11) (k : Nat) (waits : List (List Nat × Nat)) (s : State) :
    exec (.engineWordComplete c u k waits) s = run s fun s => wordComplete s c.val u.val k waits := rfl
theorem exec_astat (c : CoreId) (f : BitVec 120) (s : State) :
    exec (.astat c f) s = run s fun s => issueWord s c.val (mkWord 0x01 f) := rfl
theorem exec_amul (c : CoreId) (f : BitVec 120) (s : State) :
    exec (.amul c f) s = run s fun s => issueWord s c.val (mkWord 0x02 f) := rfl
theorem exec_distSq (c : CoreId) (f : BitVec 120) (s : State) :
    exec (.distSq c f) s = run s fun s => issueWord s c.val (mkWord 0x02 (modeBits 1 f)) := rfl
theorem exec_distAbs (c : CoreId) (f : BitVec 120) (s : State) :
    exec (.distAbs c f) s = run s fun s => issueWord s c.val (mkWord 0x02 (modeBits 2 f)) := rfl
theorem exec_distMax (c : CoreId) (f : BitVec 120) (s : State) :
    exec (.distMax c f) s = run s fun s => issueWord s c.val (mkWord 0x02 (modeBits 3 f)) := rfl
theorem exec_selMax (c : CoreId) (f : BitVec 120) (s : State) :
    exec (.selMax c f) s = run s fun s => issueWord s c.val (mkWord 0x02 (modeBits 4 f)) := rfl
theorem exec_selMin (c : CoreId) (f : BitVec 120) (s : State) :
    exec (.selMin c f) s = run s fun s => issueWord s c.val (mkWord 0x02 (modeBits 5 f)) := rfl
theorem exec_foldMax (c : CoreId) (f : BitVec 120) (s : State) :
    exec (.foldMax c f) s = run s fun s => issueWord s c.val (mkWord 0x02 (modeBits 6 f)) := rfl
theorem exec_foldMin (c : CoreId) (f : BitVec 120) (s : State) :
    exec (.foldMin c f) s = run s fun s => issueWord s c.val (mkWord 0x02 (modeBits 7 f)) := rfl
theorem exec_adrain (c : CoreId) (f : BitVec 120) (s : State) :
    exec (.adrain c f) s = run s fun s => issueWord s c.val (mkWord 0x03 f) := rfl
theorem exec_aload (c : CoreId) (f : BitVec 120) (s : State) :
    exec (.aload c f) s = run s fun s => issueWord s c.val (mkWord 0x04 f) := rfl
theorem exec_fres (c : CoreId) (f : BitVec 120) (s : State) :
    exec (.fres c f) s = run s fun s => issueWord s c.val (mkWord 0x21 f) := rfl
theorem exec_fmul (c : CoreId) (f : BitVec 120) (s : State) :
    exec (.fmul c f) s = run s fun s => issueWord s c.val (mkWord 0x22 f) := rfl
theorem exec_fdrain (c : CoreId) (f : BitVec 120) (s : State) :
    exec (.fdrain c f) s = run s fun s => issueWord s c.val (mkWord 0x23 f) := rfl
theorem exec_vadd (c : CoreId) (f : BitVec 120) (s : State) :
    exec (.vadd c f) s = run s fun s => issueWord s c.val (mkWord 0x40 f) := rfl
theorem exec_vsub (c : CoreId) (f : BitVec 120) (s : State) :
    exec (.vsub c f) s = run s fun s => issueWord s c.val (mkWord 0x41 f) := rfl
theorem exec_vmul (c : CoreId) (f : BitVec 120) (s : State) :
    exec (.vmul c f) s = run s fun s => issueWord s c.val (mkWord 0x42 f) := rfl
theorem exec_vfma (c : CoreId) (f : BitVec 120) (s : State) :
    exec (.vfma c f) s = run s fun s => issueWord s c.val (mkWord 0x43 f) := rfl
theorem exec_vmin (c : CoreId) (f : BitVec 120) (s : State) :
    exec (.vmin c f) s = run s fun s => issueWord s c.val (mkWord 0x44 f) := rfl
theorem exec_vmax (c : CoreId) (f : BitVec 120) (s : State) :
    exec (.vmax c f) s = run s fun s => issueWord s c.val (mkWord 0x45 f) := rfl
theorem exec_vabs (c : CoreId) (f : BitVec 120) (s : State) :
    exec (.vabs c f) s = run s fun s => issueWord s c.val (mkWord 0x46 f) := rfl
theorem exec_vneg (c : CoreId) (f : BitVec 120) (s : State) :
    exec (.vneg c f) s = run s fun s => issueWord s c.val (mkWord 0x47 f) := rfl
theorem exec_vcmpeq (c : CoreId) (f : BitVec 120) (s : State) :
    exec (.vcmpeq c f) s = run s fun s => issueWord s c.val (mkWord 0x48 f) := rfl
theorem exec_vcmplt (c : CoreId) (f : BitVec 120) (s : State) :
    exec (.vcmplt c f) s = run s fun s => issueWord s c.val (mkWord 0x49 f) := rfl
theorem exec_vcmple (c : CoreId) (f : BitVec 120) (s : State) :
    exec (.vcmple c f) s = run s fun s => issueWord s c.val (mkWord 0x4A f) := rfl
theorem exec_vsel (c : CoreId) (f : BitVec 120) (s : State) :
    exec (.vsel c f) s = run s fun s => issueWord s c.val (mkWord 0x4B f) := rfl
theorem exec_viadd (c : CoreId) (f : BitVec 120) (s : State) :
    exec (.viadd c f) s = run s fun s => issueWord s c.val (mkWord 0x50 f) := rfl
theorem exec_visub (c : CoreId) (f : BitVec 120) (s : State) :
    exec (.visub c f) s = run s fun s => issueWord s c.val (mkWord 0x51 f) := rfl
theorem exec_vimul (c : CoreId) (f : BitVec 120) (s : State) :
    exec (.vimul c f) s = run s fun s => issueWord s c.val (mkWord 0x52 f) := rfl
theorem exec_vand (c : CoreId) (f : BitVec 120) (s : State) :
    exec (.vand c f) s = run s fun s => issueWord s c.val (mkWord 0x53 f) := rfl
theorem exec_vor (c : CoreId) (f : BitVec 120) (s : State) : exec (.vor c f) s = run s fun s => issueWord s c.val (mkWord 0x54 f) := rfl
theorem exec_vxor (c : CoreId) (f : BitVec 120) (s : State) :
    exec (.vxor c f) s = run s fun s => issueWord s c.val (mkWord 0x55 f) := rfl
theorem exec_vshl (c : CoreId) (f : BitVec 120) (s : State) :
    exec (.vshl c f) s = run s fun s => issueWord s c.val (mkWord 0x56 f) := rfl
theorem exec_vshr (c : CoreId) (f : BitVec 120) (s : State) :
    exec (.vshr c f) s = run s fun s => issueWord s c.val (mkWord 0x57 f) := rfl
theorem exec_vsra (c : CoreId) (f : BitVec 120) (s : State) :
    exec (.vsra c f) s = run s fun s => issueWord s c.val (mkWord 0x58 f) := rfl
theorem exec_vftoi (c : CoreId) (f : BitVec 120) (s : State) :
    exec (.vftoi c f) s = run s fun s => issueWord s c.val (mkWord 0x59 f) := rfl
theorem exec_vitof (c : CoreId) (f : BitVec 120) (s : State) :
    exec (.vitof c f) s = run s fun s => issueWord s c.val (mkWord 0x5A f) := rfl
theorem exec_vdiv (c : CoreId) (f : BitVec 120) (s : State) :
    exec (.vdiv c f) s = run s fun s => issueWord s c.val (mkWord 0x60 f) := rfl
theorem exec_vsqrt (c : CoreId) (f : BitVec 120) (s : State) :
    exec (.vsqrt c f) s = run s fun s => issueWord s c.val (mkWord 0x61 f) := rfl
theorem exec_vrcp (c : CoreId) (f : BitVec 120) (s : State) :
    exec (.vrcp c f) s = run s fun s => issueWord s c.val (mkWord 0x62 f) := rfl
theorem exec_vrsqrt (c : CoreId) (f : BitVec 120) (s : State) :
    exec (.vrsqrt c f) s = run s fun s => issueWord s c.val (mkWord 0x63 f) := rfl
theorem exec_vexp2 (c : CoreId) (f : BitVec 120) (s : State) :
    exec (.vexp2 c f) s = run s fun s => issueWord s c.val (mkWord 0x64 f) := rfl
theorem exec_vlog2 (c : CoreId) (f : BitVec 120) (s : State) :
    exec (.vlog2 c f) s = run s fun s => issueWord s c.val (mkWord 0x65 f) := rfl
theorem exec_vexp (c : CoreId) (f : BitVec 120) (s : State) :
    exec (.vexp c f) s = run s fun s => issueWord s c.val (mkWord 0x66 f) := rfl
theorem exec_vlog (c : CoreId) (f : BitVec 120) (s : State) :
    exec (.vlog c f) s = run s fun s => issueWord s c.val (mkWord 0x67 f) := rfl
theorem exec_vtanh (c : CoreId) (f : BitVec 120) (s : State) :
    exec (.vtanh c f) s = run s fun s => issueWord s c.val (mkWord 0x68 f) := rfl
theorem exec_vsigm (c : CoreId) (f : BitVec 120) (s : State) :
    exec (.vsigm c f) s = run s fun s => issueWord s c.val (mkWord 0x69 f) := rfl
theorem exec_vsin (c : CoreId) (f : BitVec 120) (s : State) :
    exec (.vsin c f) s = run s fun s => issueWord s c.val (mkWord 0x6A f) := rfl
theorem exec_vcos (c : CoreId) (f : BitVec 120) (s : State) :
    exec (.vcos c f) s = run s fun s => issueWord s c.val (mkWord 0x6B f) := rfl
theorem exec_verf (c : CoreId) (f : BitVec 120) (s : State) :
    exec (.verf c f) s = run s fun s => issueWord s c.val (mkWord 0x6C f) := rfl
theorem exec_vrsum (c : CoreId) (f : BitVec 120) (s : State) :
    exec (.vrsum c f) s = run s fun s => issueWord s c.val (mkWord 0x70 f) := rfl
theorem exec_vrmax (c : CoreId) (f : BitVec 120) (s : State) :
    exec (.vrmax c f) s = run s fun s => issueWord s c.val (mkWord 0x71 f) := rfl
theorem exec_vrmin (c : CoreId) (f : BitVec 120) (s : State) :
    exec (.vrmin c f) s = run s fun s => issueWord s c.val (mkWord 0x72 f) := rfl
theorem exec_vrargmax (c : CoreId) (f : BitVec 120) (s : State) :
    exec (.vrargmax c f) s = run s fun s => issueWord s c.val (mkWord 0x73 f) := rfl
theorem exec_vrargmin (c : CoreId) (f : BitVec 120) (s : State) :
    exec (.vrargmin c f) s = run s fun s => issueWord s c.val (mkWord 0x74 f) := rfl
theorem exec_vld (c : CoreId) (f : BitVec 120) (s : State) : exec (.vld c f) s = run s fun s => issueWord s c.val (mkWord 0x78 f) := rfl
theorem exec_vst (c : CoreId) (f : BitVec 120) (s : State) : exec (.vst c f) s = run s fun s => issueWord s c.val (mkWord 0x79 f) := rfl
theorem exec_vgather (c : CoreId) (f : BitVec 120) (s : State) :
    exec (.vgather c f) s = run s fun s => issueWord s c.val (mkWord 0x7A f) := rfl
theorem exec_mring (c : CoreId) (m : Fin 2) (f : BitVec 120) (s : State) :
    exec (.mring c m f) s = run s fun s => issueWord s c.val (mkWord (mringOp m) f) := rfl
theorem exec_mkick (c : CoreId) (m : Fin 2) (f : BitVec 120) (s : State) :
    exec (.mkick c m f) s = run s fun s => issueWord s c.val (mkWord (mkickOp m) f) := rfl
theorem exec_copy (c : CoreId) (m : Fin 2) (r : Fin 4) (s : State) :
    exec (.copy c m r) s = run s fun s => descRow s c.val m.val r.val 0 := rfl
theorem exec_addCopy (c : CoreId) (m : Fin 2) (r : Fin 4) (s : State) :
    exec (.addCopy c m r) s = run s fun s => descRow s c.val m.val r.val 1 := rfl
theorem exec_stream (c : CoreId) (m : Fin 2) (r : Fin 4) (s : State) :
    exec (.stream c m r) s = run s fun s => descRow s c.val m.val r.val 2 := rfl
theorem exec_moverAtomic (c : CoreId) (m : Fin 2) (r : Fin 4) (s : State) :
    exec (.moverAtomic c m r) s = run s fun s => descRow s c.val m.val r.val 3 := rfl
theorem exec_moverTrayPut (c : CoreId) (m : Fin 2) (r : Fin 4) (s : State) :
    exec (.moverTrayPut c m r) s = run s fun s => descRow s c.val m.val r.val 4 := rfl
theorem exec_moverUpdate (c : CoreId) (m : Fin 2) (r : Fin 4) (s : State) :
    exec (.moverUpdate c m r) s = run s fun s => descRow s c.val m.val r.val 5 := rfl
theorem exec_descriptorComplete (c : CoreId) (m : Fin 2) (r : Fin 4) (s : State) :
    exec (.descriptorComplete c m r) s = run s fun s => pumpOne (descComplete s c.val m.val r.val) c.val := rfl
theorem exec_messageRetry (c : CoreId) (m : Fin 2) (r : Fin 4) (s : State) :
    exec (.messageRetry c m r) s = run s fun s => pumpOne (retryRing s c.val m.val r.val false) c.val := rfl
theorem exec_noCreditRetry (c : CoreId) (m : Fin 2) (r : Fin 4) (s : State) :
    exec (.noCreditRetry c m r) s = run s fun s => flushAcks (pumpOne (retryRing s c.val m.val r.val true) c.val) := rfl
theorem exec_psig (c : CoreId) (f : BitVec 120) (s : State) :
    exec (.psig c f) s = run s fun s => issueWord s c.val (mkWord 0x38 f) := rfl
theorem exec_pwait (c : CoreId) (f : BitVec 120) (s : State) :
    exec (.pwait c f) s = run s fun s => issueWord s c.val (mkWord 0x39 f) := rfl
theorem exec_parrive (c : CoreId) (f : BitVec 120) (s : State) :
    exec (.parrive c f) s = run s fun s => issueWord s c.val (mkWord 0x3A f) := rfl
theorem exec_pbwait (c : CoreId) (f : BitVec 120) (s : State) :
    exec (.pbwait c f) s = run s fun s => issueWord s c.val (mkWord 0x3B f) := rfl
theorem exec_preset (c : CoreId) (f : BitVec 120) (s : State) :
    exec (.preset c f) s = run s fun s => issueWord s c.val (mkWord 0x3C f) := rfl
theorem exec_pegApply (c : CoreId) (s : State) : exec (.pegApply c) s = run s fun s => pegApply s c.val := rfl
theorem exec_preemptionPoint (c : CoreId) (nonpre : Bool) (s : State) :
    exec (.preemptionPoint c nonpre) s = run s fun s => preemptionPoint s c.val nonpre := rfl
theorem exec_saveComplete (c : CoreId) (s : State) : exec (.saveComplete c) s = run s fun s => saveComplete s c.val := rfl
theorem exec_resumeContext (u : Nat) (s : State) : exec (.resumeContext u) s = run s fun s => resumeContext s u := rfl
theorem exec_handshakeTimeout (c : CoreId) (s : State) : exec (.handshakeTimeout c) s = run s fun s => coreFault s c.val := rfl
theorem exec_openPkt (t : TrayId) (e : TrayEntry) (node : Nat) (own : Bool) (s : State) :
    exec (.openPkt t e node own) s = run s fun s => openPkt s t.val e node own := rfl
theorem exec_commit (t : TrayId) (slot pseq : Nat) (words : List Byte) (poison fabric : Bool) (s : State) :
    exec (.commit t slot pseq words poison fabric) s = run s fun s => commitPkt s t.val slot pseq words poison fabric := rfl
theorem exec_commitPoint (t : TrayId) (s : State) : exec (.commitPoint t) s = run s fun s => commitPoint s t.val := rfl
theorem exec_openTimeout (t : TrayId) (slot pseq : Nat) (s : State) :
    exec (.openTimeout t slot pseq) s = run s fun s => openTimeout s t.val slot pseq := rfl
theorem exec_claim (t : TrayId) (who : Option CoreId) (s : State) :
    exec (.claim t who) s = run s fun s => claimRow s t.val (who.map (·.val)) := rfl
theorem exec_read (t : TrayId) (who : Option CoreId) (s : State) :
    exec (.read t who) s = run s fun s => readRow s t.val (who.map (·.val)) := rfl
theorem exec_readHoldExpiry (t : TrayId) (seq : Nat) (s : State) :
    exec (.readHoldExpiry t seq) s = run s fun s => readHoldExpiry s t.val seq := rfl
theorem exec_unclaim (t : TrayId) (seq : Nat) (s : State) : exec (.unclaim t seq) s = run s fun s => unclaimRow s t.val seq := rfl
theorem exec_retire (t : TrayId) (seq : Nat) (s : State) : exec (.retire t seq) s = run s fun s => retireRow s t.val seq := rfl
theorem exec_creditUpdate (t : TrayId) (slot : Nat) (s : State) :
    exec (.creditUpdate t slot) s = run s fun s => creditUpdate s t.val slot := rfl
theorem exec_rd (p : PortId) (m : Msg) (s : State) : exec (.rd p m) s = run s fun s => accessRow s p.val 1 m := rfl
theorem exec_wr (p : PortId) (m : Msg) (s : State) : exec (.wr p m) s = run s fun s => accessRow s p.val 2 m := rfl
theorem exec_atomic (p : PortId) (m : Msg) (s : State) : exec (.atomic p m) s = run s fun s => accessRow s p.val 3 m := rfl
theorem exec_signal (p : PortId) (m : Msg) (s : State) : exec (.signal p m) s = run s fun s => signalRow s p.val m := rfl
theorem exec_trayPut (p : PortId) (m : Msg) (s : State) : exec (.trayPut p m) s = run s fun s => trayPutRow s p.val m := rfl
theorem exec_update (p : PortId) (m : Msg) (s : State) : exec (.update p m) s = run s fun s => updateRow s p.val m := rfl
theorem exec_credit (p : PortId) (m : Msg) (s : State) : exec (.credit p m) s = run s fun s => creditRow s p.val m := rfl
theorem exec_mgmt (p : PortId) (m : Msg) (s : State) : exec (.mgmt p m) s = run s fun s => mgmtRow s p.val m := rfl
theorem exec_rddata (p : PortId) (m : Msg) (s : State) : exec (.rddata p m) s = run s fun s => rddataRow s p.val m := rfl
theorem exec_wrack (p : PortId) (m : Msg) (s : State) : exec (.wrack p m) s = run s fun s => statusRow s p.val 0x22 m := rfl
theorem exec_atomresp (p : PortId) (m : Msg) (s : State) : exec (.atomresp p m) s = run s fun s => atomrespRow s p.val m := rfl
theorem exec_sigack (p : PortId) (m : Msg) (s : State) : exec (.sigack p m) s = run s fun s => statusRow s p.val 0x24 m := rfl
theorem exec_trayAck (p : PortId) (m : Msg) (s : State) : exec (.trayAck p m) s = run s fun s => statusRow s p.val 0x25 m := rfl
theorem exec_updack (p : PortId) (m : Msg) (s : State) : exec (.updack p m) s = run s fun s => statusRow s p.val 0x26 m := rfl
theorem exec_rspTimeout (p : PortId) (tag : Nat) (s : State) : exec (.rspTimeout p tag) s = run s fun s => rspTimeout s p.val tag := rfl
theorem exec_frameReceive (p : PortId) (kind fseq fack : Nat) (crcOk : Bool) (fixed bad : Nat) (s : State) :
    exec (.frameReceive p kind fseq fack crcOk fixed bad) s = run s fun s => frameIn s p.val kind fseq fack crcOk fixed bad := rfl
theorem exec_replay (p : PortId) (fseq : Nat) (s : State) : exec (.replay p fseq) s = run s fun s => replayRow s p.val fseq := rfl
theorem exec_linkCredit (p : PortId) (vc hdrs flits : Nat) (s : State) :
    exec (.linkCredit p vc hdrs flits) s = run s fun s => linkCredit s p.val vc hdrs flits := rfl
theorem exec_train (p : PortId) (r : TrainRec) (s : State) : exec (.train p r) s = run s fun s => trainRow s p.val r := rfl
theorem exec_retrain (p : PortId) (r : TrainResult) (s : State) : exec (.retrain p r) s = run s fun s => retrainRow s p.val r := rfl
theorem exec_tag (p : PortId) (epoch : Bool) (fseq : Nat) (ok : Bool) (s : State) :
    exec (.tag p epoch fseq ok) s = run s fun s => tagRecord s p.val epoch fseq ok := rfl
theorem exec_tagTimeout (p : PortId) (s : State) : exec (.tagTimeout p) s = run s fun s => tagTimeout s p.val := rfl
theorem exec_linkTraining (p : PortId) (r : TrainResult) (s : State) :
    exec (.linkTraining p r) s = run s fun s => linkTraining s p.val r := rfl
theorem exec_portRetrain (p : PortId) (r : TrainResult) (s : State) :
    exec (.portRetrain p r) s = run s fun s => portRetrain s p.val r := rfl
theorem exec_portDown (p : PortId) (s : State) : exec (.portDown p) s = run s fun s => portDownRow s p.val := rfl
theorem exec_routeHoldRelease (node : Nat) (s : State) : exec (.routeHoldRelease node) s = run s fun s => routeHoldRelease s node := rfl
theorem exec_ringAnchor (x : Anchor) (s : State) : exec (.ringAnchor x) s = run s fun s => ringAnchor s x := rfl
theorem exec_linkPolicy (require allow : Nat) (rsvd secured : Bool) (s : State) :
    exec (.linkPolicy require allow rsvd secured) s = run s fun s => linkPolicy s require allow rsvd secured := rfl
theorem exec_getVersion (l : Fin 9) (s : State) : exec (.getVersion l) s = run s fun s => spdmVersion s l.val := rfl
theorem exec_getCapabilities (l : Fin 9) (s : State) : exec (.getCapabilities l) s = run s fun s => spdmCapabilities s l.val := rfl
theorem exec_negotiateAlgorithms (l : Fin 9) (acceptable : Bool) (s : State) :
    exec (.negotiateAlgorithms l acceptable) s = run s fun s => spdmAlgorithms s l.val acceptable := rfl
theorem exec_getDigests (l : Fin 9) (s : State) : exec (.getDigests l) s = run s fun s => spdmDigests s l.val := rfl
theorem exec_getCertificate (l : Fin 9) (slot : Nat) (s : State) :
    exec (.getCertificate l slot) s = run s fun s => spdmCertificate s l.val slot := rfl
theorem exec_challenge (l : Fin 9) (slot : Nat) (s : State) :
    exec (.challenge l slot) s = run s fun s => spdmChallenge s l.val slot := rfl
theorem exec_getMeasurements (l : Fin 9) (index : Nat) (s : State) :
    exec (.getMeasurements l index) s = run s fun s => spdmMeasurements s l.val index := rfl
theorem exec_keyExchange (l : Fin 9) (ek : List Byte) (authed : Bool) (s : State) :
    exec (.keyExchange l ek authed) s = run s fun s => spdmKeyExchange s l.val ek authed := rfl
theorem exec_finish (l : Fin 9) (ok : Bool) (s : State) : exec (.finish l ok) s = run s fun s => spdmFinish s l.val ok := rfl
theorem exec_keyUpdate (l : Fin 9) (s : State) : exec (.keyUpdate l) s = run s fun s => spdmKeyUpdate s l.val := rfl
theorem exec_keyUpdateDue (p : PortId) (s : State) : exec (.keyUpdateDue p) s = run s fun s => keyUpdateDue s p.val := rfl
theorem exec_heartbeat (l : Fin 9) (s : State) : exec (.heartbeat l) s = run s fun s => spdmHeartbeat s l.val := rfl
theorem exec_endSession (l : Fin 9) (s : State) : exec (.endSession l) s = run s fun s => spdmEnd s l.val := rfl
theorem exec_setCertificate (l : Fin 9) (slot : Nat) (chain : List Byte) (endsInKey : Bool) (s : State) :
    exec (.setCertificate l slot chain endsInKey) s = run s fun s => spdmSetCertificate s l.val slot chain endsInKey := rfl
theorem exec_doeDiscovery (mailbox : Fin 2) (index : Nat) (s : State) :
    exec (.doeDiscovery mailbox index) s = run s fun s => doeDiscovery s mailbox.val index := rfl
theorem exec_cdatRead (entry : Nat) (s : State) : exec (.cdatRead entry) s = run s fun s => cdatRead s entry := rfl
theorem exec_cmdTail (c : CtxId) (tail : Nat) (data : Cells) (s : State) :
    exec (.cmdTail c tail data) s = run s fun s => ringPump (cmdTail s c.val tail data) c.val := rfl
theorem exec_cmplHead (c : CtxId) (head : Nat) (s : State) : exec (.cmplHead c head) s = run s fun s => cmplHead s c.val head := rfl
theorem exec_evrHead (c : CtxId) (head : Nat) (s : State) : exec (.evrHead c head) s = run s fun s => evrHead s c.val head := rfl
theorem exec_htrTail (c : CtxId) (r : Fin 2) (tail : Nat) (data : Cells) (s : State) :
    exec (.htrTail c r tail data) s = run s fun s => htrTail s c.val r.val tail data := rfl
theorem exec_htrResume (c : CtxId) (r : Fin 2) (s : State) : exec (.htrResume c r) s = run s fun s => htrResume s c.val r.val := rfl
theorem exec_saltNodeWrite (v : BitVec 64) (s : State) : exec (.saltNodeWrite v) s = run s fun s => saltNodeWrite s v.toNat := rfl
theorem exec_saltCfgWrite (v : BitVec 64) (s : State) : exec (.saltCfgWrite v) s = run s fun s => saltCfgWrite s v.toNat := rfl
theorem exec_fmtSatcntRead (c : CoreId) (s : State) : exec (.fmtSatcntRead c) s = run s fun s => satcntRead s c.val := rfl
theorem exec_registerWrite (off : Nat) (v : BitVec 64) (s : State) :
    exec (.registerWrite off v) s = run s fun s => registerWrite s off v.toNat := rfl
theorem exec_hdmDecoderCommit (on : Bool) (base : Nat) (span : HdmSpan) (s : State) :
    exec (.hdmDecoderCommit on base span) s = run s fun s => hdmCommit s on base span := rfl
theorem exec_hostMemRead (addr : Nat) (s : State) : exec (.hostMemRead addr) s = run s fun s => hostMemRead s addr := rfl
theorem exec_hostMemWrite (addr : Nat) (bytes : List Byte) (poison : Bool) (s : State) :
    exec (.hostMemWrite addr bytes poison) s = run s fun s => hostMemWrite s addr bytes poison := rfl
theorem exec_birsp (line : Nat) (s : State) : exec (.birsp line) s = run s fun s => birsp s line := rfl
theorem exec_cxlLinkDown (s : State) : exec .cxlLinkDown s = run s linkDown := rfl
theorem exec_cxlLinkUp (width rate : Nat) (flit256 : Bool) (s : State) :
    exec (.cxlLinkUp width rate flit256) s = run s fun s => linkUp s width rate flit256 := rfl
theorem exec_hostLoss (s : State) : exec .hostLoss s = run s hostLoss := rfl
theorem exec_holdoffEnd (c : CtxId) (s : State) : exec (.holdoffEnd c) s = run s fun s => holdoffEnd s c.val := rfl
theorem exec_htrPut (c : CtxId) (r : Fin 2) (linkOk : Bool) (s : State) :
    exec (.htrPut c r linkOk) s = run s fun s => htrRow s c.val r.val 1 linkOk := rfl
theorem exec_htrGet (c : CtxId) (r : Fin 2) (linkOk : Bool) (s : State) :
    exec (.htrGet c r linkOk) s = run s fun s => htrRow s c.val r.val 2 linkOk := rfl
theorem exec_htrDone (c : CtxId) (r : Fin 2) (linkOk : Bool) (s : State) :
    exec (.htrDone c r linkOk) s = run s fun s => htrRow s c.val r.val 3 linkOk := rfl
theorem exec_htrUnclaim (c : CtxId) (r : Fin 2) (linkOk : Bool) (s : State) :
    exec (.htrUnclaim c r linkOk) s = run s fun s => htrRow s c.val r.val 4 linkOk := rfl
theorem exec_sessionOpen (c : CtxId) (h : CmdHdr) (par : List Byte) (s : State) :
    exec (.sessionOpen c h par) s = run s fun s => hostCmd s c.val 0x01 h par := rfl
theorem exec_sessionClose (c : CtxId) (h : CmdHdr) (par : List Byte) (s : State) :
    exec (.sessionClose c h par) s = run s fun s => hostCmd s c.val 0x02 h par := rfl
theorem exec_ctxCreate (c : CtxId) (h : CmdHdr) (par : List Byte) (s : State) :
    exec (.ctxCreate c h par) s = run s fun s => hostCmd s c.val 0x10 h par := rfl
theorem exec_ctxDestroy (c : CtxId) (h : CmdHdr) (par : List Byte) (s : State) :
    exec (.ctxDestroy c h par) s = run s fun s => hostCmd s c.val 0x11 h par := rfl
theorem exec_ctxConfig (c : CtxId) (h : CmdHdr) (par : List Byte) (s : State) :
    exec (.ctxConfig c h par) s = run s fun s => hostCmd s c.val 0x12 h par := rfl
theorem exec_stageLoad (c : CtxId) (h : CmdHdr) (par : List Byte) (img : Image) (s : State) :
    exec (.stageLoad c h par img) s = run s fun s => hostCmd s c.val 0x20 h par (img := some img) := rfl
theorem exec_stageDrain (c : CtxId) (h : CmdHdr) (par : List Byte) (s : State) :
    exec (.stageDrain c h par) s = run s fun s => hostCmd s c.val 0x21 h par := rfl
theorem exec_trayConfig (c : CtxId) (h : CmdHdr) (par : List Byte) (s : State) :
    exec (.trayConfig c h par) s = run s fun s => hostCmd s c.val 0x30 h par := rfl
theorem exec_trayRelease (c : CtxId) (h : CmdHdr) (par : List Byte) (s : State) :
    exec (.trayRelease c h par) s = run s fun s => hostCmd s c.val 0x30 h (withByte par 2 0) := rfl
theorem exec_trayFlush (c : CtxId) (h : CmdHdr) (par : List Byte) (s : State) :
    exec (.trayFlush c h par) s = run s fun s => hostCmd s c.val 0x31 h par := rfl
theorem exec_sweepRun (c : CtxId) (h : CmdHdr) (par : List Byte) (s : State) :
    exec (.sweepRun c h par) s = run s fun s => hostCmd s c.val 0x40 h par := rfl
theorem exec_sweepRunStop (c : CtxId) (h : CmdHdr) (par : List Byte) (s : State) :
    exec (.sweepRunStop c h par) s = run s fun s => hostCmd s c.val 0x40 h (withByte par 1 1) := rfl
theorem exec_seqJoin (c : CtxId) (h : CmdHdr) (par : List Byte) (s : State) :
    exec (.seqJoin c h par) s = run s fun s => hostCmd s c.val 0x41 h par := rfl
theorem exec_seqLeave (c : CtxId) (h : CmdHdr) (par : List Byte) (s : State) :
    exec (.seqLeave c h par) s = run s fun s => hostCmd s c.val 0x42 h par := rfl
theorem exec_rakeProgram (c : CtxId) (h : CmdHdr) (par : List Byte) (s : State) :
    exec (.rakeProgram c h par) s = run s fun s => hostCmd s c.val 0x50 h par := rfl
theorem exec_rakeGroup (c : CtxId) (h : CmdHdr) (par : List Byte) (s : State) :
    exec (.rakeGroup c h par) s = run s fun s => hostCmd s c.val 0x51 h par := rfl
theorem exec_pegAlloc (c : CtxId) (h : CmdHdr) (par : List Byte) (s : State) :
    exec (.pegAlloc c h par) s = run s fun s => hostCmd s c.val 0x60 h par := rfl
theorem exec_pegFree (c : CtxId) (h : CmdHdr) (par : List Byte) (s : State) :
    exec (.pegFree c h par) s = run s fun s => hostCmd s c.val 0x60 h (withByte par 0 1) := rfl
theorem exec_pegReset (c : CtxId) (h : CmdHdr) (par : List Byte) (s : State) :
    exec (.pegReset c h par) s = run s fun s => hostCmd s c.val 0x60 h (withByte par 0 2) := rfl
theorem exec_pegSignal (c : CtxId) (h : CmdHdr) (par : List Byte) (s : State) :
    exec (.pegSignal c h par) s = run s fun s => hostCmd s c.val 0x61 h par := rfl
theorem exec_pegWait (c : CtxId) (h : CmdHdr) (par : List Byte) (s : State) :
    exec (.pegWait c h par) s = run s fun s => hostCmd s c.val 0x62 h par := rfl
theorem exec_pegWaitTimeout (c : CtxId) (aseq : Nat) (s : State) :
    exec (.pegWaitTimeout c aseq) s = run s fun s => ringPump (pegWaitTimeout s c.val aseq) c.val := rfl
theorem exec_pegDump (c : CtxId) (h : CmdHdr) (par : List Byte) (s : State) :
    exec (.pegDump c h par) s = run s fun s => hostCmd s c.val 0x63 h par := rfl
theorem exec_windowOpen (c : CtxId) (h : CmdHdr) (par : List Byte) (s : State) :
    exec (.windowOpen c h par) s = run s fun s => hostCmd s c.val 0x70 h par := rfl
theorem exec_windowClose (c : CtxId) (h : CmdHdr) (par : List Byte) (s : State) :
    exec (.windowClose c h par) s = run s fun s => hostCmd s c.val 0x71 h par := rfl
theorem exec_routeSet (c : CtxId) (h : CmdHdr) (par : List Byte) (s : State) :
    exec (.routeSet c h par) s = run s fun s => hostCmd s c.val 0x72 h par := rfl
theorem exec_harvest (c : CtxId) (h : CmdHdr) (par : List Byte) (s : State) :
    exec (.harvest c h par) s = run s fun s => hostCmd s c.val 0x80 h par := rfl
theorem exec_harvestPoll (c : CtxId) (seen : Cells) (s : State) :
    exec (.harvestPoll c seen) s = run s fun s => ringPump (harvestPoll s c.val seen) c.val := rfl
theorem exec_harvestTimeout (c : CtxId) (s : State) :
    exec (.harvestTimeout c) s = run s fun s => ringPump (harvestTimeout s c.val) c.val := rfl
theorem exec_restore (c : CtxId) (h : CmdHdr) (par : List Byte) (reads : StoreReads) (s : State) :
    exec (.restore c h par reads) s = run s fun s => hostCmd s c.val 0x81 h par (reads := reads) := rfl
theorem exec_powerSet (c : CtxId) (h : CmdHdr) (par : List Byte) (s : State) :
    exec (.powerSet c h par) s = run s fun s => hostCmd s c.val 0x90 h par := rfl
theorem exec_selftest (c : CtxId) (h : CmdHdr) (par : List Byte) (s : State) :
    exec (.selftest c h par) s = run s fun s => hostCmd s c.val 0xA0 h par := rfl
theorem exec_selftestComplete (block index : Nat) (pass : Bool) (data : Nat) (s : State) :
    exec (.selftestComplete block index pass data) s = run s fun s => selftestComplete s block index pass data := rfl
theorem exec_debugRead (c : CtxId) (h : CmdHdr) (par : List Byte) (s : State) :
    exec (.debugRead c h par) s = run s fun s => hostCmd s c.val 0xB0 h par := rfl
theorem exec_attest (c : CtxId) (h : CmdHdr) (par : List Byte) (s : State) :
    exec (.attest c h par) s = run s fun s => hostCmd s c.val 0xC0 h par := rfl
theorem exec_bedPass (r : RakeId) (s : State) : exec (.bedPass r) s = run s fun s => bedPass s r.val := rfl
theorem exec_rkMov (r : RakeId) (d : Fin 16) (a b x : BitVec 5) (s : State) :
    exec (.rkMov r d a b x) s = run s fun s => rakeOp s r.val 0x01 d a b x := rfl
theorem exec_rkAdd (r : RakeId) (d : Fin 16) (a b x : BitVec 5) (s : State) :
    exec (.rkAdd r d a b x) s = run s fun s => rakeOp s r.val 0x02 d a b x := rfl
theorem exec_rkSub (r : RakeId) (d : Fin 16) (a b x : BitVec 5) (s : State) :
    exec (.rkSub r d a b x) s = run s fun s => rakeOp s r.val 0x03 d a b x := rfl
theorem exec_rkMul (r : RakeId) (d : Fin 16) (a b x : BitVec 5) (s : State) :
    exec (.rkMul r d a b x) s = run s fun s => rakeOp s r.val 0x04 d a b x := rfl
theorem exec_rkFma (r : RakeId) (d : Fin 16) (a b x : BitVec 5) (s : State) :
    exec (.rkFma r d a b x) s = run s fun s => rakeOp s r.val 0x05 d a b x := rfl
theorem exec_rkFnma (r : RakeId) (d : Fin 16) (a b x : BitVec 5) (s : State) :
    exec (.rkFnma r d a b x) s = run s fun s => rakeOp s r.val 0x06 d a b x := rfl
theorem exec_rkMin (r : RakeId) (d : Fin 16) (a b x : BitVec 5) (s : State) :
    exec (.rkMin r d a b x) s = run s fun s => rakeOp s r.val 0x07 d a b x := rfl
theorem exec_rkMax (r : RakeId) (d : Fin 16) (a b x : BitVec 5) (s : State) :
    exec (.rkMax r d a b x) s = run s fun s => rakeOp s r.val 0x08 d a b x := rfl
theorem exec_rkAbs (r : RakeId) (d : Fin 16) (a b x : BitVec 5) (s : State) :
    exec (.rkAbs r d a b x) s = run s fun s => rakeOp s r.val 0x09 d a b x := rfl
theorem exec_rkNeg (r : RakeId) (d : Fin 16) (a b x : BitVec 5) (s : State) :
    exec (.rkNeg r d a b x) s = run s fun s => rakeOp s r.val 0x0A d a b x := rfl
theorem exec_rkDiv (r : RakeId) (d : Fin 16) (a b x : BitVec 5) (s : State) :
    exec (.rkDiv r d a b x) s = run s fun s => rakeOp s r.val 0x0B d a b x := rfl
theorem exec_rkSqrt (r : RakeId) (d : Fin 16) (a b x : BitVec 5) (s : State) :
    exec (.rkSqrt r d a b x) s = run s fun s => rakeOp s r.val 0x0C d a b x := rfl
theorem exec_rkRsqrt (r : RakeId) (d : Fin 16) (a b x : BitVec 5) (s : State) :
    exec (.rkRsqrt r d a b x) s = run s fun s => rakeOp s r.val 0x0D d a b x := rfl
theorem exec_rkSign (r : RakeId) (d : Fin 16) (a b x : BitVec 5) (s : State) :
    exec (.rkSign r d a b x) s = run s fun s => rakeOp s r.val 0x0E d a b x := rfl
theorem exec_rkSelgt (r : RakeId) (d : Fin 16) (a b x : BitVec 5) (s : State) :
    exec (.rkSelgt r d a b x) s = run s fun s => rakeOp s r.val 0x0F d a b x := rfl
theorem exec_refresh (r : RakeId) (s : State) : exec (.refresh r) s = run s fun s => refreshRow s r.val := rfl
theorem exec_rakePhaseEnd (s : State) : exec .rakePhaseEnd s = run s rakePhaseEnd := rfl
theorem exec_missingBlockTimeout (s : State) : exec .missingBlockTimeout s = run s missingBlockTimeout := rfl
theorem exec_stepFence (c : CtxId) (s : State) : exec (.stepFence c) s = run s fun s => stepFence s c.val := rfl
theorem exec_periodEnd (c : CtxId) (s : State) : exec (.periodEnd c) s = run s fun s => flushAcks (periodEnd s c.val) := rfl
theorem exec_plotReconfig (s : State) : exec .plotReconfig s = run s plotReconfig := rfl
theorem exec_sliceEnd (u : Nat) (s : State) : exec (.sliceEnd u) s = run s fun s => sliceEnd s u := rfl
theorem exec_tick (i : TickIn) (s : State) : exec (.tick i) s = run s fun s => tick s i := rfl
theorem exec_currentRead (raw : Nat) (ack fault : Bool) (s : State) :
    exec (.currentRead raw ack fault) s = run s fun s => currentRead s raw ack fault := rfl
theorem exec_avsPoll (mv temp : Nat) (ack fault : Bool) (s : State) :
    exec (.avsPoll mv temp ack fault) s = run s fun s => avsPoll s mv temp ack fault := rfl
theorem exec_avsAlert (ack fault : Bool) (s : State) : exec (.avsAlert ack fault) s = run s fun s => avsAlert s ack fault := rfl
theorem exec_sensorFailTimeout (c : CoreId) (s : State) : exec (.sensorFailTimeout c) s = run s fun s => sensorFail s c.val := rfl
theorem exec_heatRecord (s : State) : exec .heatRecord s = run s heatRecords := rfl
theorem exec_rateSample (c : CoreId) (rate : Nat) (s : State) :
    exec (.rateSample c rate) s = run s fun s => rateSample s c.val rate := rfl
theorem exec_weeding (c : CoreId) (bank : Fin 16) (ce ue forced : Bool) (s : State) :
    exec (.weeding c bank ce ue forced) s = run s fun s => weed s c.val bank.val ce ue forced := rfl
theorem exec_patrol (ch : Fin 96) (line : Nat) (ce ue : Bool) (s : State) :
    exec (.patrol ch line ce ue) s = run s fun s => patrol s ch.val line ce ue := rfl
theorem exec_ringRestart (s : State) : exec .ringRestart s = run s restartRings := rfl
theorem exec_neighbourWaitTimeout (u : Nat) (s : State) :
    exec (.neighbourWaitTimeout u) s = run s fun s => neighbourWaitTimeout s u := rfl
theorem exec_help (s : State) : exec .help s = run s consoleHelp := rfl
theorem exec_idRecord (s : State) : exec .idRecord s = run s consoleId := rfl
theorem exec_status (s : State) : exec .status s = run s consoleStatus := rfl
theorem exec_amon (sel idx mv : Nat) (s : State) : exec (.amon sel idx mv) s = run s fun s => consoleAmon s sel idx mv := rfl
theorem exec_amonUpdate (mv : Nat) (s : State) : exec (.amonUpdate mv) s = run s fun s => amonUpdate s mv := rfl
theorem exec_test (block test index : Nat) (intrusive : Bool) (s : State) :
    exec (.test block test index intrusive) s = run s fun s => consoleTest s block test index intrusive := rfl
theorem exec_testAll (s : State) : exec .testAll s = run s consoleTestAll := rfl
theorem exec_log (n : Nat) (s : State) : exec (.log n) s = run s fun s => consoleLog s n := rfl
theorem exec_pegdump (ctx : Option CtxId) (s : State) : exec (.pegdump ctx) s = run s fun s => consolePegdump s (ctx.map (·.val)) := rfl
theorem exec_consoleRead (addr len : Nat) (s : State) : exec (.consoleRead addr len) s = run s fun s => consoleRead s addr len := rfl
theorem exec_baud (rate : Nat) (s : State) : exec (.baud rate) s = run s fun s => consoleBaud s rate := rfl
theorem exec_unlock (s : State) : exec .unlock s = run s consoleUnlock := rfl
theorem exec_lock (s : State) : exec .lock s = run s consoleLock := rfl
theorem exec_resetWarm (i : StartInputs) (s : State) : exec (.resetWarm i) s = run s fun s => consoleReset s false i := rfl
theorem exec_resetCold (i : StartInputs) (s : State) : exec (.resetCold i) s = run s fun s => consoleReset s true i := rfl
theorem exec_recover (slot : Nat) (r : SignedRec) (i : StartInputs) (s : State) :
    exec (.recover slot r i) s = run s fun s => consoleRecover s slot r i := rfl
theorem exec_rma (s : State) : exec .rma s = run s consoleRma := rfl
theorem exec_savedStateRestored (c : CoreId) (s : State) :
    exec (.savedStateRestored c) s = run s fun s => goOn (stateRestored s c.val) c.val := rfl
theorem exec_parityFault (c : CoreId) (s : State) : exec (.parityFault c) s = run s fun s => coreFault s c.val := rfl
theorem exec_rakeHardwareFault (r : RakeId) (s : State) :
    exec (.rakeHardwareFault r) s = run s fun s => rakeHardwareFault s r.val := rfl
theorem exec_periodStart (c : CtxId) (s : State) : exec (.periodStart c) s = run s fun s => periodStart s c.val := rfl
theorem exec_ideKm (stream : Nat) (s : State) : exec (.ideKm stream) s = run s fun s => ideKm s stream := rfl
theorem exec_payloadCopied (t : TrayId) (seq : Nat) (s : State) :
    exec (.payloadCopied t seq) s = run s fun s => endHold s t.val seq := rfl

end Sys2Proof.Machine
end

