-- ==== Sys2Proof/Laws/PerInstr.lean ====
section
/-! SUPPORT. Every row stands in at most one of the tables by which the statements name rows: program words, ring commands, fabric messages,
rake operations, SPDM requests, console commands under Dister, and edges of PWROK. -/

namespace Sys2Proof.Laws.Rows

open Sys2Proof Sys2Proof.Machine

/-- The number of tables in which a row stands. -/
def tables (i : Instr) : Nat :=
  b2n (wordOf i).isSome + b2n (cmdRow i).isSome + b2n (msgOf i).isSome + b2n (rakeRow i).isSome + b2n (spdmRow i).isSome
    + b2n (consoleRow i) + b2n (isPowerEdge i)

/-- The row stands in at most one of the tables. -/
def Statement (i : Instr) : Prop := tables i ≤ 1

theorem powerOn (i : StartInputs) : Statement (.powerOn i) := Nat.le_of_ble_eq_true rfl
theorem pwrokFall : Statement .pwrokFall := Nat.le_of_ble_eq_true rfl
theorem boardReset (railsHeld : Bool) (i : StartInputs) : Statement (.boardReset railsHeld i) := Nat.le_of_ble_eq_true rfl
theorem watchdog (i : StartInputs) : Statement (.watchdog i) := Nat.le_of_ble_eq_true rfl
theorem fatalFaultReset (i : StartInputs) : Statement (.fatalFaultReset i) := Nat.le_of_ble_eq_true rfl
theorem cxPerst (assert : Bool) (width rate : Nat) (flit256 : Bool) : Statement (.cxPerst assert width rate flit256) := Nat.le_of_ble_eq_true rfl
theorem hardwareTrip : Statement .hardwareTrip := Nat.le_of_ble_eq_true rfl
theorem bootReq (p : PortId) (die : Nat) (pos parts : Nat) : Statement (.bootReq p die pos parts) := Nat.le_of_ble_eq_true rfl
theorem bootData (p : PortId) (part off : Nat) (bytes : List Byte) : Statement (.bootData p part off bytes) := Nat.le_of_ble_eq_true rfl
theorem bootEnd (p : PortId) (part len : Nat) (digest : List Byte) (status : Nat) : Statement (.bootEnd p part len digest status) := Nat.le_of_ble_eq_true rfl
theorem trainPut (p : PortId) (die : Nat) (bytes : List Byte) : Statement (.trainPut p die bytes) := Nat.le_of_ble_eq_true rfl
theorem bootRetry : Statement .bootRetry := Nat.le_of_ble_eq_true rfl
theorem meshBootRestart : Statement .meshBootRestart := Nat.le_of_ble_eq_true rfl
theorem nop (c : CoreId) (w : W128) : Statement (.nop c w) := Nat.le_of_ble_eq_true rfl
theorem endW (c : CoreId) (f : BitVec 120) : Statement (.endW c f) := Nat.le_of_ble_eq_true rfl
theorem gate (c : CoreId) (f : BitVec 120) : Statement (.gate c f) := Nat.le_of_ble_eq_true rfl
theorem gateRelease (c : CoreId) : Statement (.gateRelease c) := Nat.le_of_ble_eq_true rfl
theorem loop (c : CoreId) (f : BitVec 120) : Statement (.loop c f) := Nat.le_of_ble_eq_true rfl
theorem seed (c : CoreId) (f : BitVec 120) : Statement (.seed c f) := Nat.le_of_ble_eq_true rfl
theorem programComplete (c : CoreId) : Statement (.programComplete c) := Nat.le_of_ble_eq_true rfl
theorem engineWordComplete (c : CoreId) (u : Fin 11) (k : Nat) (waits : List (List Nat × Nat)) : Statement (.engineWordComplete c u k waits) := Nat.le_of_ble_eq_true rfl
theorem astat (c : CoreId) (f : BitVec 120) : Statement (.astat c f) := Nat.le_of_ble_eq_true rfl
theorem amul (c : CoreId) (f : BitVec 120) : Statement (.amul c f) := Nat.le_of_ble_eq_true rfl
theorem distSq (c : CoreId) (f : BitVec 120) : Statement (.distSq c f) := Nat.le_of_ble_eq_true rfl
theorem distAbs (c : CoreId) (f : BitVec 120) : Statement (.distAbs c f) := Nat.le_of_ble_eq_true rfl
theorem distMax (c : CoreId) (f : BitVec 120) : Statement (.distMax c f) := Nat.le_of_ble_eq_true rfl
theorem selMax (c : CoreId) (f : BitVec 120) : Statement (.selMax c f) := Nat.le_of_ble_eq_true rfl
theorem selMin (c : CoreId) (f : BitVec 120) : Statement (.selMin c f) := Nat.le_of_ble_eq_true rfl
theorem foldMax (c : CoreId) (f : BitVec 120) : Statement (.foldMax c f) := Nat.le_of_ble_eq_true rfl
theorem foldMin (c : CoreId) (f : BitVec 120) : Statement (.foldMin c f) := Nat.le_of_ble_eq_true rfl
theorem adrain (c : CoreId) (f : BitVec 120) : Statement (.adrain c f) := Nat.le_of_ble_eq_true rfl
theorem aload (c : CoreId) (f : BitVec 120) : Statement (.aload c f) := Nat.le_of_ble_eq_true rfl
theorem fres (c : CoreId) (f : BitVec 120) : Statement (.fres c f) := Nat.le_of_ble_eq_true rfl
theorem fmul (c : CoreId) (f : BitVec 120) : Statement (.fmul c f) := Nat.le_of_ble_eq_true rfl
theorem fdrain (c : CoreId) (f : BitVec 120) : Statement (.fdrain c f) := Nat.le_of_ble_eq_true rfl
theorem vadd (c : CoreId) (f : BitVec 120) : Statement (.vadd c f) := Nat.le_of_ble_eq_true rfl
theorem vsub (c : CoreId) (f : BitVec 120) : Statement (.vsub c f) := Nat.le_of_ble_eq_true rfl
theorem vmul (c : CoreId) (f : BitVec 120) : Statement (.vmul c f) := Nat.le_of_ble_eq_true rfl
theorem vfma (c : CoreId) (f : BitVec 120) : Statement (.vfma c f) := Nat.le_of_ble_eq_true rfl
theorem vmin (c : CoreId) (f : BitVec 120) : Statement (.vmin c f) := Nat.le_of_ble_eq_true rfl
theorem vmax (c : CoreId) (f : BitVec 120) : Statement (.vmax c f) := Nat.le_of_ble_eq_true rfl
theorem vabs (c : CoreId) (f : BitVec 120) : Statement (.vabs c f) := Nat.le_of_ble_eq_true rfl
theorem vneg (c : CoreId) (f : BitVec 120) : Statement (.vneg c f) := Nat.le_of_ble_eq_true rfl
theorem vcmpeq (c : CoreId) (f : BitVec 120) : Statement (.vcmpeq c f) := Nat.le_of_ble_eq_true rfl
theorem vcmplt (c : CoreId) (f : BitVec 120) : Statement (.vcmplt c f) := Nat.le_of_ble_eq_true rfl
theorem vcmple (c : CoreId) (f : BitVec 120) : Statement (.vcmple c f) := Nat.le_of_ble_eq_true rfl
theorem vsel (c : CoreId) (f : BitVec 120) : Statement (.vsel c f) := Nat.le_of_ble_eq_true rfl
theorem viadd (c : CoreId) (f : BitVec 120) : Statement (.viadd c f) := Nat.le_of_ble_eq_true rfl
theorem visub (c : CoreId) (f : BitVec 120) : Statement (.visub c f) := Nat.le_of_ble_eq_true rfl
theorem vimul (c : CoreId) (f : BitVec 120) : Statement (.vimul c f) := Nat.le_of_ble_eq_true rfl
theorem vand (c : CoreId) (f : BitVec 120) : Statement (.vand c f) := Nat.le_of_ble_eq_true rfl
theorem vor (c : CoreId) (f : BitVec 120) : Statement (.vor c f) := Nat.le_of_ble_eq_true rfl
theorem vxor (c : CoreId) (f : BitVec 120) : Statement (.vxor c f) := Nat.le_of_ble_eq_true rfl
theorem vshl (c : CoreId) (f : BitVec 120) : Statement (.vshl c f) := Nat.le_of_ble_eq_true rfl
theorem vshr (c : CoreId) (f : BitVec 120) : Statement (.vshr c f) := Nat.le_of_ble_eq_true rfl
theorem vsra (c : CoreId) (f : BitVec 120) : Statement (.vsra c f) := Nat.le_of_ble_eq_true rfl
theorem vftoi (c : CoreId) (f : BitVec 120) : Statement (.vftoi c f) := Nat.le_of_ble_eq_true rfl
theorem vitof (c : CoreId) (f : BitVec 120) : Statement (.vitof c f) := Nat.le_of_ble_eq_true rfl
theorem vdiv (c : CoreId) (f : BitVec 120) : Statement (.vdiv c f) := Nat.le_of_ble_eq_true rfl
theorem vsqrt (c : CoreId) (f : BitVec 120) : Statement (.vsqrt c f) := Nat.le_of_ble_eq_true rfl
theorem vrcp (c : CoreId) (f : BitVec 120) : Statement (.vrcp c f) := Nat.le_of_ble_eq_true rfl
theorem vrsqrt (c : CoreId) (f : BitVec 120) : Statement (.vrsqrt c f) := Nat.le_of_ble_eq_true rfl
theorem vexp2 (c : CoreId) (f : BitVec 120) : Statement (.vexp2 c f) := Nat.le_of_ble_eq_true rfl
theorem vlog2 (c : CoreId) (f : BitVec 120) : Statement (.vlog2 c f) := Nat.le_of_ble_eq_true rfl
theorem vexp (c : CoreId) (f : BitVec 120) : Statement (.vexp c f) := Nat.le_of_ble_eq_true rfl
theorem vlog (c : CoreId) (f : BitVec 120) : Statement (.vlog c f) := Nat.le_of_ble_eq_true rfl
theorem vtanh (c : CoreId) (f : BitVec 120) : Statement (.vtanh c f) := Nat.le_of_ble_eq_true rfl
theorem vsigm (c : CoreId) (f : BitVec 120) : Statement (.vsigm c f) := Nat.le_of_ble_eq_true rfl
theorem vsin (c : CoreId) (f : BitVec 120) : Statement (.vsin c f) := Nat.le_of_ble_eq_true rfl
theorem vcos (c : CoreId) (f : BitVec 120) : Statement (.vcos c f) := Nat.le_of_ble_eq_true rfl
theorem verf (c : CoreId) (f : BitVec 120) : Statement (.verf c f) := Nat.le_of_ble_eq_true rfl
theorem vrsum (c : CoreId) (f : BitVec 120) : Statement (.vrsum c f) := Nat.le_of_ble_eq_true rfl
theorem vrmax (c : CoreId) (f : BitVec 120) : Statement (.vrmax c f) := Nat.le_of_ble_eq_true rfl
theorem vrmin (c : CoreId) (f : BitVec 120) : Statement (.vrmin c f) := Nat.le_of_ble_eq_true rfl
theorem vrargmax (c : CoreId) (f : BitVec 120) : Statement (.vrargmax c f) := Nat.le_of_ble_eq_true rfl
theorem vrargmin (c : CoreId) (f : BitVec 120) : Statement (.vrargmin c f) := Nat.le_of_ble_eq_true rfl
theorem vld (c : CoreId) (f : BitVec 120) : Statement (.vld c f) := Nat.le_of_ble_eq_true rfl
theorem vst (c : CoreId) (f : BitVec 120) : Statement (.vst c f) := Nat.le_of_ble_eq_true rfl
theorem vgather (c : CoreId) (f : BitVec 120) : Statement (.vgather c f) := Nat.le_of_ble_eq_true rfl
theorem mring (c : CoreId) (m : Fin 2) (f : BitVec 120) : Statement (.mring c m f) := Nat.le_of_ble_eq_true rfl
theorem mkick (c : CoreId) (m : Fin 2) (f : BitVec 120) : Statement (.mkick c m f) := Nat.le_of_ble_eq_true rfl
theorem copy (c : CoreId) (m : Fin 2) (r : Fin 4) : Statement (.copy c m r) := Nat.le_of_ble_eq_true rfl
theorem addCopy (c : CoreId) (m : Fin 2) (r : Fin 4) : Statement (.addCopy c m r) := Nat.le_of_ble_eq_true rfl
theorem stream (c : CoreId) (m : Fin 2) (r : Fin 4) : Statement (.stream c m r) := Nat.le_of_ble_eq_true rfl
theorem moverAtomic (c : CoreId) (m : Fin 2) (r : Fin 4) : Statement (.moverAtomic c m r) := Nat.le_of_ble_eq_true rfl
theorem moverTrayPut (c : CoreId) (m : Fin 2) (r : Fin 4) : Statement (.moverTrayPut c m r) := Nat.le_of_ble_eq_true rfl
theorem moverUpdate (c : CoreId) (m : Fin 2) (r : Fin 4) : Statement (.moverUpdate c m r) := Nat.le_of_ble_eq_true rfl
theorem descriptorComplete (c : CoreId) (m : Fin 2) (r : Fin 4) : Statement (.descriptorComplete c m r) := Nat.le_of_ble_eq_true rfl
theorem messageRetry (c : CoreId) (m : Fin 2) (r : Fin 4) : Statement (.messageRetry c m r) := Nat.le_of_ble_eq_true rfl
theorem noCreditRetry (c : CoreId) (m : Fin 2) (r : Fin 4) : Statement (.noCreditRetry c m r) := Nat.le_of_ble_eq_true rfl
theorem psig (c : CoreId) (f : BitVec 120) : Statement (.psig c f) := Nat.le_of_ble_eq_true rfl
theorem pwait (c : CoreId) (f : BitVec 120) : Statement (.pwait c f) := Nat.le_of_ble_eq_true rfl
theorem parrive (c : CoreId) (f : BitVec 120) : Statement (.parrive c f) := Nat.le_of_ble_eq_true rfl
theorem pbwait (c : CoreId) (f : BitVec 120) : Statement (.pbwait c f) := Nat.le_of_ble_eq_true rfl
theorem preset (c : CoreId) (f : BitVec 120) : Statement (.preset c f) := Nat.le_of_ble_eq_true rfl
theorem pegApply (c : CoreId) : Statement (.pegApply c) := Nat.le_of_ble_eq_true rfl
theorem preemptionPoint (c : CoreId) (nonpre : Bool) : Statement (.preemptionPoint c nonpre) := Nat.le_of_ble_eq_true rfl
theorem saveComplete (c : CoreId) : Statement (.saveComplete c) := Nat.le_of_ble_eq_true rfl
theorem resumeContext (u : Nat) : Statement (.resumeContext u) := Nat.le_of_ble_eq_true rfl
theorem handshakeTimeout (c : CoreId) : Statement (.handshakeTimeout c) := Nat.le_of_ble_eq_true rfl
theorem openPkt (t : TrayId) (e : TrayEntry) (node : Nat) (own : Bool) : Statement (.openPkt t e node own) := Nat.le_of_ble_eq_true rfl
theorem commit (t : TrayId) (slot pseq : Nat) (words : List Byte) (poison fabric : Bool) : Statement (.commit t slot pseq words poison fabric) := Nat.le_of_ble_eq_true rfl
theorem commitPoint (t : TrayId) : Statement (.commitPoint t) := Nat.le_of_ble_eq_true rfl
theorem openTimeout (t : TrayId) (slot pseq : Nat) : Statement (.openTimeout t slot pseq) := Nat.le_of_ble_eq_true rfl
theorem claim (t : TrayId) (who : Option CoreId) : Statement (.claim t who) := Nat.le_of_ble_eq_true rfl
theorem read (t : TrayId) (who : Option CoreId) : Statement (.read t who) := Nat.le_of_ble_eq_true rfl
theorem readHoldExpiry (t : TrayId) (seq : Nat) : Statement (.readHoldExpiry t seq) := Nat.le_of_ble_eq_true rfl
theorem unclaim (t : TrayId) (seq : Nat) : Statement (.unclaim t seq) := Nat.le_of_ble_eq_true rfl
theorem retire (t : TrayId) (seq : Nat) : Statement (.retire t seq) := Nat.le_of_ble_eq_true rfl
theorem creditUpdate (t : TrayId) (slot : Nat) : Statement (.creditUpdate t slot) := Nat.le_of_ble_eq_true rfl
theorem rd (p : PortId) (m : Msg) : Statement (.rd p m) := Nat.le_of_ble_eq_true rfl
theorem wr (p : PortId) (m : Msg) : Statement (.wr p m) := Nat.le_of_ble_eq_true rfl
theorem atomic (p : PortId) (m : Msg) : Statement (.atomic p m) := Nat.le_of_ble_eq_true rfl
theorem signal (p : PortId) (m : Msg) : Statement (.signal p m) := Nat.le_of_ble_eq_true rfl
theorem trayPut (p : PortId) (m : Msg) : Statement (.trayPut p m) := Nat.le_of_ble_eq_true rfl
theorem update (p : PortId) (m : Msg) : Statement (.update p m) := Nat.le_of_ble_eq_true rfl
theorem credit (p : PortId) (m : Msg) : Statement (.credit p m) := Nat.le_of_ble_eq_true rfl
theorem mgmt (p : PortId) (m : Msg) : Statement (.mgmt p m) := Nat.le_of_ble_eq_true rfl
theorem rddata (p : PortId) (m : Msg) : Statement (.rddata p m) := Nat.le_of_ble_eq_true rfl
theorem wrack (p : PortId) (m : Msg) : Statement (.wrack p m) := Nat.le_of_ble_eq_true rfl
theorem atomresp (p : PortId) (m : Msg) : Statement (.atomresp p m) := Nat.le_of_ble_eq_true rfl
theorem sigack (p : PortId) (m : Msg) : Statement (.sigack p m) := Nat.le_of_ble_eq_true rfl
theorem trayAck (p : PortId) (m : Msg) : Statement (.trayAck p m) := Nat.le_of_ble_eq_true rfl
theorem updack (p : PortId) (m : Msg) : Statement (.updack p m) := Nat.le_of_ble_eq_true rfl
theorem rspTimeout (p : PortId) (tag : Nat) : Statement (.rspTimeout p tag) := Nat.le_of_ble_eq_true rfl
theorem frameReceive (p : PortId) (kind fseq fack : Nat) (crcOk : Bool) (fixed bad : Nat) : Statement (.frameReceive p kind fseq fack crcOk fixed bad) := Nat.le_of_ble_eq_true rfl
theorem replay (p : PortId) (fseq : Nat) : Statement (.replay p fseq) := Nat.le_of_ble_eq_true rfl
theorem linkCredit (p : PortId) (vc hdrs flits : Nat) : Statement (.linkCredit p vc hdrs flits) := Nat.le_of_ble_eq_true rfl
theorem train (p : PortId) (r : TrainRec) : Statement (.train p r) := Nat.le_of_ble_eq_true rfl
theorem retrain (p : PortId) (r : TrainResult) : Statement (.retrain p r) := Nat.le_of_ble_eq_true rfl
theorem tag (p : PortId) (epoch : Bool) (fseq : Nat) (ok : Bool) : Statement (.tag p epoch fseq ok) := Nat.le_of_ble_eq_true rfl
theorem tagTimeout (p : PortId) : Statement (.tagTimeout p) := Nat.le_of_ble_eq_true rfl
theorem linkTraining (p : PortId) (r : TrainResult) : Statement (.linkTraining p r) := Nat.le_of_ble_eq_true rfl
theorem portRetrain (p : PortId) (r : TrainResult) : Statement (.portRetrain p r) := Nat.le_of_ble_eq_true rfl
theorem portDown (p : PortId) : Statement (.portDown p) := Nat.le_of_ble_eq_true rfl
theorem routeHoldRelease (node : Nat) : Statement (.routeHoldRelease node) := Nat.le_of_ble_eq_true rfl
theorem ringAnchor (x : Anchor) : Statement (.ringAnchor x) := Nat.le_of_ble_eq_true rfl
theorem linkPolicy (require allow : Nat) (rsvd secured : Bool) : Statement (.linkPolicy require allow rsvd secured) := Nat.le_of_ble_eq_true rfl
theorem getVersion (l : Fin 9) : Statement (.getVersion l) := Nat.le_of_ble_eq_true rfl
theorem getCapabilities (l : Fin 9) : Statement (.getCapabilities l) := Nat.le_of_ble_eq_true rfl
theorem negotiateAlgorithms (l : Fin 9) (acceptable : Bool) : Statement (.negotiateAlgorithms l acceptable) := Nat.le_of_ble_eq_true rfl
theorem getDigests (l : Fin 9) : Statement (.getDigests l) := Nat.le_of_ble_eq_true rfl
theorem getCertificate (l : Fin 9) (slot : Nat) : Statement (.getCertificate l slot) := Nat.le_of_ble_eq_true rfl
theorem challenge (l : Fin 9) (slot : Nat) : Statement (.challenge l slot) := Nat.le_of_ble_eq_true rfl
theorem getMeasurements (l : Fin 9) (index : Nat) : Statement (.getMeasurements l index) := Nat.le_of_ble_eq_true rfl
theorem keyExchange (l : Fin 9) (ek : List Byte) (authed : Bool) : Statement (.keyExchange l ek authed) := Nat.le_of_ble_eq_true rfl
theorem finish (l : Fin 9) (ok : Bool) : Statement (.finish l ok) := Nat.le_of_ble_eq_true rfl
theorem keyUpdate (l : Fin 9) : Statement (.keyUpdate l) := Nat.le_of_ble_eq_true rfl
theorem keyUpdateDue (p : PortId) : Statement (.keyUpdateDue p) := Nat.le_of_ble_eq_true rfl
theorem heartbeat (l : Fin 9) : Statement (.heartbeat l) := Nat.le_of_ble_eq_true rfl
theorem endSession (l : Fin 9) : Statement (.endSession l) := Nat.le_of_ble_eq_true rfl
theorem setCertificate (l : Fin 9) (slot : Nat) (chain : List Byte) (endsInKey : Bool) : Statement (.setCertificate l slot chain endsInKey) := Nat.le_of_ble_eq_true rfl
theorem doeDiscovery (mailbox : Fin 2) (index : Nat) : Statement (.doeDiscovery mailbox index) := Nat.le_of_ble_eq_true rfl
theorem cdatRead (entry : Nat) : Statement (.cdatRead entry) := Nat.le_of_ble_eq_true rfl
theorem cmdTail (c : CtxId) (tail : Nat) (data : Cells) : Statement (.cmdTail c tail data) := Nat.le_of_ble_eq_true rfl
theorem cmplHead (c : CtxId) (head : Nat) : Statement (.cmplHead c head) := Nat.le_of_ble_eq_true rfl
theorem evrHead (c : CtxId) (head : Nat) : Statement (.evrHead c head) := Nat.le_of_ble_eq_true rfl
theorem htrTail (c : CtxId) (r : Fin 2) (tail : Nat) (data : Cells) : Statement (.htrTail c r tail data) := Nat.le_of_ble_eq_true rfl
theorem htrResume (c : CtxId) (r : Fin 2) : Statement (.htrResume c r) := Nat.le_of_ble_eq_true rfl
theorem saltNodeWrite (v : BitVec 64) : Statement (.saltNodeWrite v) := Nat.le_of_ble_eq_true rfl
theorem saltCfgWrite (v : BitVec 64) : Statement (.saltCfgWrite v) := Nat.le_of_ble_eq_true rfl
theorem fmtSatcntRead (c : CoreId) : Statement (.fmtSatcntRead c) := Nat.le_of_ble_eq_true rfl
theorem registerWrite (off : Nat) (v : BitVec 64) : Statement (.registerWrite off v) := Nat.le_of_ble_eq_true rfl
theorem hdmDecoderCommit (on : Bool) (base : Nat) (span : HdmSpan) : Statement (.hdmDecoderCommit on base span) := Nat.le_of_ble_eq_true rfl
theorem hostMemRead (addr : Nat) : Statement (.hostMemRead addr) := Nat.le_of_ble_eq_true rfl
theorem hostMemWrite (addr : Nat) (bytes : List Byte) (poison : Bool) : Statement (.hostMemWrite addr bytes poison) := Nat.le_of_ble_eq_true rfl
theorem birsp (line : Nat) : Statement (.birsp line) := Nat.le_of_ble_eq_true rfl
theorem cxlLinkDown : Statement .cxlLinkDown := Nat.le_of_ble_eq_true rfl
theorem cxlLinkUp (width rate : Nat) (flit256 : Bool) : Statement (.cxlLinkUp width rate flit256) := Nat.le_of_ble_eq_true rfl
theorem hostLoss : Statement .hostLoss := Nat.le_of_ble_eq_true rfl
theorem holdoffEnd (c : CtxId) : Statement (.holdoffEnd c) := Nat.le_of_ble_eq_true rfl
theorem htrPut (c : CtxId) (r : Fin 2) (linkOk : Bool) : Statement (.htrPut c r linkOk) := Nat.le_of_ble_eq_true rfl
theorem htrGet (c : CtxId) (r : Fin 2) (linkOk : Bool) : Statement (.htrGet c r linkOk) := Nat.le_of_ble_eq_true rfl
theorem htrDone (c : CtxId) (r : Fin 2) (linkOk : Bool) : Statement (.htrDone c r linkOk) := Nat.le_of_ble_eq_true rfl
theorem htrUnclaim (c : CtxId) (r : Fin 2) (linkOk : Bool) : Statement (.htrUnclaim c r linkOk) := Nat.le_of_ble_eq_true rfl
theorem sessionOpen (c : CtxId) (h : CmdHdr) (par : List Byte) : Statement (.sessionOpen c h par) := Nat.le_of_ble_eq_true rfl
theorem sessionClose (c : CtxId) (h : CmdHdr) (par : List Byte) : Statement (.sessionClose c h par) := Nat.le_of_ble_eq_true rfl
theorem ctxCreate (c : CtxId) (h : CmdHdr) (par : List Byte) : Statement (.ctxCreate c h par) := Nat.le_of_ble_eq_true rfl
theorem ctxDestroy (c : CtxId) (h : CmdHdr) (par : List Byte) : Statement (.ctxDestroy c h par) := Nat.le_of_ble_eq_true rfl
theorem ctxConfig (c : CtxId) (h : CmdHdr) (par : List Byte) : Statement (.ctxConfig c h par) := Nat.le_of_ble_eq_true rfl
theorem stageLoad (c : CtxId) (h : CmdHdr) (par : List Byte) (img : Image) : Statement (.stageLoad c h par img) := Nat.le_of_ble_eq_true rfl
theorem stageDrain (c : CtxId) (h : CmdHdr) (par : List Byte) : Statement (.stageDrain c h par) := Nat.le_of_ble_eq_true rfl
theorem trayConfig (c : CtxId) (h : CmdHdr) (par : List Byte) : Statement (.trayConfig c h par) := Nat.le_of_ble_eq_true rfl
theorem trayRelease (c : CtxId) (h : CmdHdr) (par : List Byte) : Statement (.trayRelease c h par) := Nat.le_of_ble_eq_true rfl
theorem trayFlush (c : CtxId) (h : CmdHdr) (par : List Byte) : Statement (.trayFlush c h par) := Nat.le_of_ble_eq_true rfl
theorem sweepRun (c : CtxId) (h : CmdHdr) (par : List Byte) : Statement (.sweepRun c h par) := Nat.le_of_ble_eq_true rfl
theorem sweepRunStop (c : CtxId) (h : CmdHdr) (par : List Byte) : Statement (.sweepRunStop c h par) := Nat.le_of_ble_eq_true rfl
theorem seqJoin (c : CtxId) (h : CmdHdr) (par : List Byte) : Statement (.seqJoin c h par) := Nat.le_of_ble_eq_true rfl
theorem seqLeave (c : CtxId) (h : CmdHdr) (par : List Byte) : Statement (.seqLeave c h par) := Nat.le_of_ble_eq_true rfl
theorem rakeProgram (c : CtxId) (h : CmdHdr) (par : List Byte) : Statement (.rakeProgram c h par) := Nat.le_of_ble_eq_true rfl
theorem rakeGroup (c : CtxId) (h : CmdHdr) (par : List Byte) : Statement (.rakeGroup c h par) := Nat.le_of_ble_eq_true rfl
theorem pegAlloc (c : CtxId) (h : CmdHdr) (par : List Byte) : Statement (.pegAlloc c h par) := Nat.le_of_ble_eq_true rfl
theorem pegFree (c : CtxId) (h : CmdHdr) (par : List Byte) : Statement (.pegFree c h par) := Nat.le_of_ble_eq_true rfl
theorem pegReset (c : CtxId) (h : CmdHdr) (par : List Byte) : Statement (.pegReset c h par) := Nat.le_of_ble_eq_true rfl
theorem pegSignal (c : CtxId) (h : CmdHdr) (par : List Byte) : Statement (.pegSignal c h par) := Nat.le_of_ble_eq_true rfl
theorem pegWait (c : CtxId) (h : CmdHdr) (par : List Byte) : Statement (.pegWait c h par) := Nat.le_of_ble_eq_true rfl
theorem pegWaitTimeout (c : CtxId) (aseq : Nat) : Statement (.pegWaitTimeout c aseq) := Nat.le_of_ble_eq_true rfl
theorem pegDump (c : CtxId) (h : CmdHdr) (par : List Byte) : Statement (.pegDump c h par) := Nat.le_of_ble_eq_true rfl
theorem windowOpen (c : CtxId) (h : CmdHdr) (par : List Byte) : Statement (.windowOpen c h par) := Nat.le_of_ble_eq_true rfl
theorem windowClose (c : CtxId) (h : CmdHdr) (par : List Byte) : Statement (.windowClose c h par) := Nat.le_of_ble_eq_true rfl
theorem routeSet (c : CtxId) (h : CmdHdr) (par : List Byte) : Statement (.routeSet c h par) := Nat.le_of_ble_eq_true rfl
theorem harvest (c : CtxId) (h : CmdHdr) (par : List Byte) : Statement (.harvest c h par) := Nat.le_of_ble_eq_true rfl
theorem harvestPoll (c : CtxId) (seen : Cells) : Statement (.harvestPoll c seen) := Nat.le_of_ble_eq_true rfl
theorem harvestTimeout (c : CtxId) : Statement (.harvestTimeout c) := Nat.le_of_ble_eq_true rfl
theorem restore (c : CtxId) (h : CmdHdr) (par : List Byte) (reads : StoreReads) : Statement (.restore c h par reads) := Nat.le_of_ble_eq_true rfl
theorem powerSet (c : CtxId) (h : CmdHdr) (par : List Byte) : Statement (.powerSet c h par) := Nat.le_of_ble_eq_true rfl
theorem selftest (c : CtxId) (h : CmdHdr) (par : List Byte) : Statement (.selftest c h par) := Nat.le_of_ble_eq_true rfl
theorem selftestComplete (block index : Nat) (pass : Bool) (data : Nat) : Statement (.selftestComplete block index pass data) := Nat.le_of_ble_eq_true rfl
theorem debugRead (c : CtxId) (h : CmdHdr) (par : List Byte) : Statement (.debugRead c h par) := Nat.le_of_ble_eq_true rfl
theorem attest (c : CtxId) (h : CmdHdr) (par : List Byte) : Statement (.attest c h par) := Nat.le_of_ble_eq_true rfl
theorem bedPass (r : RakeId) : Statement (.bedPass r) := Nat.le_of_ble_eq_true rfl
theorem rkMov (r : RakeId) (d : Fin 16) (a b x : BitVec 5) : Statement (.rkMov r d a b x) := Nat.le_of_ble_eq_true rfl
theorem rkAdd (r : RakeId) (d : Fin 16) (a b x : BitVec 5) : Statement (.rkAdd r d a b x) := Nat.le_of_ble_eq_true rfl
theorem rkSub (r : RakeId) (d : Fin 16) (a b x : BitVec 5) : Statement (.rkSub r d a b x) := Nat.le_of_ble_eq_true rfl
theorem rkMul (r : RakeId) (d : Fin 16) (a b x : BitVec 5) : Statement (.rkMul r d a b x) := Nat.le_of_ble_eq_true rfl
theorem rkFma (r : RakeId) (d : Fin 16) (a b x : BitVec 5) : Statement (.rkFma r d a b x) := Nat.le_of_ble_eq_true rfl
theorem rkFnma (r : RakeId) (d : Fin 16) (a b x : BitVec 5) : Statement (.rkFnma r d a b x) := Nat.le_of_ble_eq_true rfl
theorem rkMin (r : RakeId) (d : Fin 16) (a b x : BitVec 5) : Statement (.rkMin r d a b x) := Nat.le_of_ble_eq_true rfl
theorem rkMax (r : RakeId) (d : Fin 16) (a b x : BitVec 5) : Statement (.rkMax r d a b x) := Nat.le_of_ble_eq_true rfl
theorem rkAbs (r : RakeId) (d : Fin 16) (a b x : BitVec 5) : Statement (.rkAbs r d a b x) := Nat.le_of_ble_eq_true rfl
theorem rkNeg (r : RakeId) (d : Fin 16) (a b x : BitVec 5) : Statement (.rkNeg r d a b x) := Nat.le_of_ble_eq_true rfl
theorem rkDiv (r : RakeId) (d : Fin 16) (a b x : BitVec 5) : Statement (.rkDiv r d a b x) := Nat.le_of_ble_eq_true rfl
theorem rkSqrt (r : RakeId) (d : Fin 16) (a b x : BitVec 5) : Statement (.rkSqrt r d a b x) := Nat.le_of_ble_eq_true rfl
theorem rkRsqrt (r : RakeId) (d : Fin 16) (a b x : BitVec 5) : Statement (.rkRsqrt r d a b x) := Nat.le_of_ble_eq_true rfl
theorem rkSign (r : RakeId) (d : Fin 16) (a b x : BitVec 5) : Statement (.rkSign r d a b x) := Nat.le_of_ble_eq_true rfl
theorem rkSelgt (r : RakeId) (d : Fin 16) (a b x : BitVec 5) : Statement (.rkSelgt r d a b x) := Nat.le_of_ble_eq_true rfl
theorem refresh (r : RakeId) : Statement (.refresh r) := Nat.le_of_ble_eq_true rfl
theorem rakePhaseEnd : Statement .rakePhaseEnd := Nat.le_of_ble_eq_true rfl
theorem missingBlockTimeout : Statement .missingBlockTimeout := Nat.le_of_ble_eq_true rfl
theorem stepFence (c : CtxId) : Statement (.stepFence c) := Nat.le_of_ble_eq_true rfl
theorem periodEnd (c : CtxId) : Statement (.periodEnd c) := Nat.le_of_ble_eq_true rfl
theorem plotReconfig : Statement .plotReconfig := Nat.le_of_ble_eq_true rfl
theorem sliceEnd (u : Nat) : Statement (.sliceEnd u) := Nat.le_of_ble_eq_true rfl
theorem tick (i : TickIn) : Statement (.tick i) := Nat.le_of_ble_eq_true rfl
theorem currentRead (raw : Nat) (ack fault : Bool) : Statement (.currentRead raw ack fault) := Nat.le_of_ble_eq_true rfl
theorem avsPoll (mv temp : Nat) (ack fault : Bool) : Statement (.avsPoll mv temp ack fault) := Nat.le_of_ble_eq_true rfl
theorem avsAlert (ack fault : Bool) : Statement (.avsAlert ack fault) := Nat.le_of_ble_eq_true rfl
theorem sensorFailTimeout (c : CoreId) : Statement (.sensorFailTimeout c) := Nat.le_of_ble_eq_true rfl
theorem heatRecord : Statement .heatRecord := Nat.le_of_ble_eq_true rfl
theorem rateSample (c : CoreId) (rate : Nat) : Statement (.rateSample c rate) := Nat.le_of_ble_eq_true rfl
theorem weeding (c : CoreId) (bank : Fin 16) (ce ue forced : Bool) : Statement (.weeding c bank ce ue forced) := Nat.le_of_ble_eq_true rfl
theorem patrol (ch : Fin 96) (line : Nat) (ce ue : Bool) : Statement (.patrol ch line ce ue) := Nat.le_of_ble_eq_true rfl
theorem ringRestart : Statement .ringRestart := Nat.le_of_ble_eq_true rfl
theorem neighbourWaitTimeout (u : Nat) : Statement (.neighbourWaitTimeout u) := Nat.le_of_ble_eq_true rfl
theorem help : Statement .help := Nat.le_of_ble_eq_true rfl
theorem idRecord : Statement .idRecord := Nat.le_of_ble_eq_true rfl
theorem status : Statement .status := Nat.le_of_ble_eq_true rfl
theorem amon (sel idx mv : Nat) : Statement (.amon sel idx mv) := Nat.le_of_ble_eq_true rfl
theorem amonUpdate (mv : Nat) : Statement (.amonUpdate mv) := Nat.le_of_ble_eq_true rfl
theorem test (block test index : Nat) (intrusive : Bool) : Statement (.test block test index intrusive) := Nat.le_of_ble_eq_true rfl
theorem testAll : Statement .testAll := Nat.le_of_ble_eq_true rfl
theorem log (n : Nat) : Statement (.log n) := Nat.le_of_ble_eq_true rfl
theorem pegdump (ctx : Option CtxId) : Statement (.pegdump ctx) := Nat.le_of_ble_eq_true rfl
theorem consoleRead (addr len : Nat) : Statement (.consoleRead addr len) := Nat.le_of_ble_eq_true rfl
theorem baud (rate : Nat) : Statement (.baud rate) := Nat.le_of_ble_eq_true rfl
theorem unlock : Statement .unlock := Nat.le_of_ble_eq_true rfl
theorem lock : Statement .lock := Nat.le_of_ble_eq_true rfl
theorem resetWarm (i : StartInputs) : Statement (.resetWarm i) := Nat.le_of_ble_eq_true rfl
theorem resetCold (i : StartInputs) : Statement (.resetCold i) := Nat.le_of_ble_eq_true rfl
theorem recover (slot : Nat) (r : SignedRec) (i : StartInputs) : Statement (.recover slot r i) := Nat.le_of_ble_eq_true rfl
theorem rma : Statement .rma := Nat.le_of_ble_eq_true rfl
theorem savedStateRestored (c : CoreId) : Statement (.savedStateRestored c) := Nat.le_of_ble_eq_true rfl
theorem parityFault (c : CoreId) : Statement (.parityFault c) := Nat.le_of_ble_eq_true rfl
theorem rakeHardwareFault (r : RakeId) : Statement (.rakeHardwareFault r) := Nat.le_of_ble_eq_true rfl
theorem periodStart (c : CtxId) : Statement (.periodStart c) := Nat.le_of_ble_eq_true rfl
theorem ideKm (stream : Nat) : Statement (.ideKm stream) := Nat.le_of_ble_eq_true rfl
theorem payloadCopied (t : TrayId) (seq : Nat) : Statement (.payloadCopied t seq) := Nat.le_of_ble_eq_true rfl

end Sys2Proof.Laws.Rows
end

