-- ==== Sys2Proof/Laws/Rings.lean ====
section
/-! SUPPORT. Command rings: a row of Table 14-7 is read, accepted and started (R337, R358). -/

namespace Sys2Proof.Machine

/-- A row of Table 14-7 reads its command, and the ring goes on. -/
theorem exec_cmdRow {i : Instr} {c : CtxId} {r : Cmd} {s a : State} (h : cmdRow i = some (c, r)) (ms : Meets s a) :
    exec i s = .next (ringPump (readCmd a c r) c) ∧ r.why = none ∧ r.started = false ∧ r.aseq = 0 ∧ r.at0 = 0 ∧ r.period = none:= by
  cases i <;> simp [cmdRow] at h
  all_goals
    obtain ⟨rfl, rfl⟩ := h
    refine ⟨?_, rfl, rfl, rfl, rfl, rfl⟩
  all_goals
    first
    | (rw [exec_sessionOpen, run_meets ms]; rfl) | (rw [exec_sessionClose, run_meets ms]; rfl) | (rw [exec_ctxCreate, run_meets ms]; rfl)
    | (rw [exec_ctxDestroy, run_meets ms]; rfl) | (rw [exec_ctxConfig, run_meets ms]; rfl) | (rw [exec_stageLoad, run_meets ms]; rfl)
    | (rw [exec_stageDrain, run_meets ms]; rfl) | (rw [exec_trayConfig, run_meets ms]; rfl) | (rw [exec_trayRelease, run_meets ms]; rfl)
    | (rw [exec_trayFlush, run_meets ms]; rfl) | (rw [exec_sweepRun, run_meets ms]; rfl) | (rw [exec_sweepRunStop, run_meets ms]; rfl)
    | (rw [exec_seqJoin, run_meets ms]; rfl) | (rw [exec_seqLeave, run_meets ms]; rfl) | (rw [exec_rakeProgram, run_meets ms]; rfl)
    | (rw [exec_rakeGroup, run_meets ms]; rfl) | (rw [exec_pegAlloc, run_meets ms]; rfl) | (rw [exec_pegFree, run_meets ms]; rfl)
    | (rw [exec_pegReset, run_meets ms]; rfl) | (rw [exec_pegSignal, run_meets ms]; rfl) | (rw [exec_pegWait, run_meets ms]; rfl)
    | (rw [exec_pegDump, run_meets ms]; rfl) | (rw [exec_windowOpen, run_meets ms]; rfl) | (rw [exec_windowClose, run_meets ms]; rfl)
    | (rw [exec_routeSet, run_meets ms]; rfl) | (rw [exec_harvest, run_meets ms]; rfl) | (rw [exec_restore, run_meets ms]; rfl)
    | (rw [exec_powerSet, run_meets ms]; rfl) | (rw [exec_selftest, run_meets ms]; rfl) | (rw [exec_debugRead, run_meets ms]; rfl)
    | (rw [exec_attest, run_meets ms]; rfl)

/-- In its turn a command is accepted. -/
theorem readCmd_turn {a : State} {c : Nat} {k : Cmd} (h : MayRead a c k) : readCmd a c k = acceptCmd a c k := by
  obtain ⟨h1, h2, h3⟩ := h
  simp [readCmd, h1, h2, h3]
/-- Out of its turn nothing is read. -/
theorem readCmd_not {a : State} {c : Nat} {k : Cmd} (h : ¬ MayRead a c k) : readCmd a c k = a := by
  unfold readCmd; rw [if_neg]; simpa [MayRead] using h


/-- What the acceptance of the first command of a ring leaves in its context. -/
theorem accept_cmds {a : State} {c : Nat} {k : Cmd} (h : (a.ctx c).cmds = []) (h2 : (a.ctx c).badOps = []) :
    ((acceptCmd a c k).ctx c).cmds = [acceptedCmd a c k]
    ∧ ((acceptCmd a c k).ctx c).badOps = [] ∧ ((acceptCmd a c k).ctx c).sweep = (a.ctx c).sweep := by
  have e : (acceptCmd a c k).ctx c = { (a.ctx c) with aseq := ((a.ctx c).aseq + 1) % 2 ^ 32, accepted := ((a.ctx c).accepted + 1) % 2 ^ 32, cmdRead := ((a.ctx c).cmdRead + 1 + k.hdr.nparam) % 2 ^ 32, badOps := (a.ctx c).badOps.filter fun e => e.1 != (a.ctx c).cmdRead, cmds := (a.ctx c).cmds ++ [acceptedCmd a c k] } := by
    apply tget_tput_ne
    intro h
    have := congrArg Ctx.cmds h
    simp at this
  rw [e]
  simp [h, h2]

/-- The first command of a ring starts, or settles, as soon as it is read. -/
theorem pump_accept {a : State} {c : Nat} {k : Cmd} (h : (a.ctx c).cmds = []) (h2 : (a.ctx c).badOps = []) (h3 : k.started = false)
   (h4 : (acceptedCmd a c k).why.isNone = true → sweepHeld (a.ctx c) (acceptedCmd a c k) = false) :
    ringPump (acceptCmd a c k) c = ringStarts c 1 (startCmd (acceptCmd a c k) c (acceptedCmd a c k)) := by
  obtain ⟨e1, e2, e3⟩ := accept_cmds (k := k) h h2
  unfold ringPump
  simp only [e2, List.isEmpty_nil, if_true, e1, List.length_singleton]
  rw [ringStarts, e1]
  have : nextStart ((acceptCmd a c k).ctx c) false false false [acceptedCmd a c k] = some (acceptedCmd a c k) := by
    unfold nextStart
    have h5 : (acceptedCmd a c k).started = false := h3
    have h6 : sweepHeld ((acceptCmd a c k).ctx c) (acceptedCmd a c k) = false := by
      unfold sweepHeld at h4 ⊢
      rw [e3]
      cases hw : (acceptedCmd a c k).why.isNone
      · simp
      · have := h4 hw; simpa [hw] using this
    simp [h5, h6]
  simp only [this]
/-- Of a command that passes the checks of R337, only SESSION_OPEN does without a session. -/
theorem headerStatus_open {a : State} {c : Nat} {k : Cmd} (h : headerStatus a c k = stOK) : (!a.sess.opened && k.op != 1) = false := by
  unfold headerStatus at h
  simp only at h
  repeat' (split at h)
  all_goals first | (exfalso; revert h; decide) | skip
  rename_i hx
  simp only [Bool.or_eq_true, not_or, Bool.not_eq_true] at hx
  exact hx.1

/-- A command that starts at once: the row answers what the start makes of the block. -/
theorem starts_exec {i : Instr} {s t : State} {c : Nat} {k : Cmd} (h : Starts i s t c k) : exec i s = .next (ringStarts c 1 (startByOp t c k)) := by
  obtain ⟨a, x, r, ms, hr, rfl, hm, hc, hb, hh, hp, hs, rfl, rfl⟩ := h
  obtain ⟨e, e1, e2, e3, e4, e5⟩ := exec_cmdRow hr ms
  have hw : (acceptedCmd a x r).why = none := by simp [acceptedCmd, hh, hp]
  rw [e, readCmd_turn hm, pump_accept hc hb e2 (by intro _; unfold sweepHeld at hs ⊢; simpa [acceptedCmd, hh, hp, e1, Cmd.fld] using hs)]
  have ho : ((acceptedCmd a x r).why.isNone && !(acceptCmd a x r).sess.opened && (acceptedCmd a x r).op != 1) = false := by
    rw [Bool.and_assoc]
    have h1 := headerStatus_open hh
    have h0 : (!(acceptCmd a x r).sess.opened && (acceptedCmd a x r).op != 1) = false := h1
    rw [h0, Bool.and_false]
  unfold startCmd
  rw [ho]
  simp only [Bool.false_eq_true, if_false, hw]
  have hk : acceptedCmd a x r = { startedCmd a x r with started := false, at0 := 0 } := by
    unfold startedCmd; rw [← e2, ← e4]
    have : acceptedCmd a x r = { acceptedCmd a x r with why := none} := by rw [← hw]
    rw [this]; rfl
  rw [hk]; rfl

/-- The opcode, the image and the answers of the command that starts are its row's. -/
theorem starts_op {i : Instr} {s t : State} {c : Nat} {k : Cmd} (h : Starts i s t c k) :
    ∃ y r, cmdRow i = some (y, r) ∧ k.op = r.op ∧ k.img = r.img ∧ k.reads = r.reads := by
  obtain ⟨a, x, r, -, hr, -, -, -, -, -, -, -, rfl, -⟩ := h
  exact ⟨x, r, hr, rfl, rfl, rfl⟩

end Sys2Proof.Machine
end

