-- ==== Sys2Proof/Laws/Words.lean ====
section
/-! SUPPORT. The words of core programs at a waiting core: each program row issues its word, and a unit's word that executes leaves
what `executed` says. -/

namespace Sys2Proof.Machine

/-- Every program row is its word at its core's issue unit (R118). -/
theorem exec_word {i : Instr} {c : CoreId} {w : W128} {s a : State} (h : wordOf i = some (c, w)) (m : Meets s a) :
    exec i s = .next (issueWord a c.val w) := by
  cases i
  case nop => simp only [wordOf, Option.some.injEq, Prod.mk.injEq] at h; obtain ⟨rfl, rfl⟩ := h; rw [exec_nop]; exact run_meets m _
  case endW => simp only [wordOf, Option.some.injEq, Prod.mk.injEq] at h; obtain ⟨rfl, rfl⟩ := h; rw [exec_endW]; exact run_meets m _
  case gate => simp only [wordOf, Option.some.injEq, Prod.mk.injEq] at h; obtain ⟨rfl, rfl⟩ := h; rw [exec_gate]; exact run_meets m _
  case loop => simp only [wordOf, Option.some.injEq, Prod.mk.injEq] at h; obtain ⟨rfl, rfl⟩ := h; rw [exec_loop]; exact run_meets m _
  case seed => simp only [wordOf, Option.some.injEq, Prod.mk.injEq] at h; obtain ⟨rfl, rfl⟩ := h; rw [exec_seed]; exact run_meets m _
  case astat => simp only [wordOf, Option.some.injEq, Prod.mk.injEq] at h; obtain ⟨rfl, rfl⟩ := h; rw [exec_astat]; exact run_meets m _
  case amul => simp only [wordOf, Option.some.injEq, Prod.mk.injEq] at h; obtain ⟨rfl, rfl⟩ := h; rw [exec_amul]; exact run_meets m _
  case distSq => simp only [wordOf, Option.some.injEq, Prod.mk.injEq] at h; obtain ⟨rfl, rfl⟩ := h; rw [exec_distSq]; exact run_meets m _
  case distAbs => simp only [wordOf, Option.some.injEq, Prod.mk.injEq] at h; obtain ⟨rfl, rfl⟩ := h; rw [exec_distAbs]; exact run_meets m _
  case distMax => simp only [wordOf, Option.some.injEq, Prod.mk.injEq] at h; obtain ⟨rfl, rfl⟩ := h; rw [exec_distMax]; exact run_meets m _
  case selMax => simp only [wordOf, Option.some.injEq, Prod.mk.injEq] at h; obtain ⟨rfl, rfl⟩ := h; rw [exec_selMax]; exact run_meets m _
  case selMin => simp only [wordOf, Option.some.injEq, Prod.mk.injEq] at h; obtain ⟨rfl, rfl⟩ := h; rw [exec_selMin]; exact run_meets m _
  case foldMax => simp only [wordOf, Option.some.injEq, Prod.mk.injEq] at h; obtain ⟨rfl, rfl⟩ := h; rw [exec_foldMax]; exact run_meets m _
  case foldMin => simp only [wordOf, Option.some.injEq, Prod.mk.injEq] at h; obtain ⟨rfl, rfl⟩ := h; rw [exec_foldMin]; exact run_meets m _
  case adrain => simp only [wordOf, Option.some.injEq, Prod.mk.injEq] at h; obtain ⟨rfl, rfl⟩ := h; rw [exec_adrain]; exact run_meets m _
  case aload => simp only [wordOf, Option.some.injEq, Prod.mk.injEq] at h; obtain ⟨rfl, rfl⟩ := h; rw [exec_aload]; exact run_meets m _
  case fres => simp only [wordOf, Option.some.injEq, Prod.mk.injEq] at h; obtain ⟨rfl, rfl⟩ := h; rw [exec_fres]; exact run_meets m _
  case fmul => simp only [wordOf, Option.some.injEq, Prod.mk.injEq] at h; obtain ⟨rfl, rfl⟩ := h; rw [exec_fmul]; exact run_meets m _
  case fdrain => simp only [wordOf, Option.some.injEq, Prod.mk.injEq] at h; obtain ⟨rfl, rfl⟩ := h; rw [exec_fdrain]; exact run_meets m _
  case vadd => simp only [wordOf, Option.some.injEq, Prod.mk.injEq] at h; obtain ⟨rfl, rfl⟩ := h; rw [exec_vadd]; exact run_meets m _
  case vsub => simp only [wordOf, Option.some.injEq, Prod.mk.injEq] at h; obtain ⟨rfl, rfl⟩ := h; rw [exec_vsub]; exact run_meets m _
  case vmul => simp only [wordOf, Option.some.injEq, Prod.mk.injEq] at h; obtain ⟨rfl, rfl⟩ := h; rw [exec_vmul]; exact run_meets m _
  case vfma => simp only [wordOf, Option.some.injEq, Prod.mk.injEq] at h; obtain ⟨rfl, rfl⟩ := h; rw [exec_vfma]; exact run_meets m _
  case vmin => simp only [wordOf, Option.some.injEq, Prod.mk.injEq] at h; obtain ⟨rfl, rfl⟩ := h; rw [exec_vmin]; exact run_meets m _
  case vmax => simp only [wordOf, Option.some.injEq, Prod.mk.injEq] at h; obtain ⟨rfl, rfl⟩ := h; rw [exec_vmax]; exact run_meets m _
  case vabs => simp only [wordOf, Option.some.injEq, Prod.mk.injEq] at h; obtain ⟨rfl, rfl⟩ := h; rw [exec_vabs]; exact run_meets m _
  case vneg => simp only [wordOf, Option.some.injEq, Prod.mk.injEq] at h; obtain ⟨rfl, rfl⟩ := h; rw [exec_vneg]; exact run_meets m _
  case vcmpeq => simp only [wordOf, Option.some.injEq, Prod.mk.injEq] at h; obtain ⟨rfl, rfl⟩ := h; rw [exec_vcmpeq]; exact run_meets m _
  case vcmplt => simp only [wordOf, Option.some.injEq, Prod.mk.injEq] at h; obtain ⟨rfl, rfl⟩ := h; rw [exec_vcmplt]; exact run_meets m _
  case vcmple => simp only [wordOf, Option.some.injEq, Prod.mk.injEq] at h; obtain ⟨rfl, rfl⟩ := h; rw [exec_vcmple]; exact run_meets m _
  case vsel => simp only [wordOf, Option.some.injEq, Prod.mk.injEq] at h; obtain ⟨rfl, rfl⟩ := h; rw [exec_vsel]; exact run_meets m _
  case viadd => simp only [wordOf, Option.some.injEq, Prod.mk.injEq] at h; obtain ⟨rfl, rfl⟩ := h; rw [exec_viadd]; exact run_meets m _
  case visub => simp only [wordOf, Option.some.injEq, Prod.mk.injEq] at h; obtain ⟨rfl, rfl⟩ := h; rw [exec_visub]; exact run_meets m _
  case vimul => simp only [wordOf, Option.some.injEq, Prod.mk.injEq] at h; obtain ⟨rfl, rfl⟩ := h; rw [exec_vimul]; exact run_meets m _
  case vand => simp only [wordOf, Option.some.injEq, Prod.mk.injEq] at h; obtain ⟨rfl, rfl⟩ := h; rw [exec_vand]; exact run_meets m _
  case vor => simp only [wordOf, Option.some.injEq, Prod.mk.injEq] at h; obtain ⟨rfl, rfl⟩ := h; rw [exec_vor]; exact run_meets m _
  case vxor => simp only [wordOf, Option.some.injEq, Prod.mk.injEq] at h; obtain ⟨rfl, rfl⟩ := h; rw [exec_vxor]; exact run_meets m _
  case vshl => simp only [wordOf, Option.some.injEq, Prod.mk.injEq] at h; obtain ⟨rfl, rfl⟩ := h; rw [exec_vshl]; exact run_meets m _
  case vshr => simp only [wordOf, Option.some.injEq, Prod.mk.injEq] at h; obtain ⟨rfl, rfl⟩ := h; rw [exec_vshr]; exact run_meets m _
  case vsra => simp only [wordOf, Option.some.injEq, Prod.mk.injEq] at h; obtain ⟨rfl, rfl⟩ := h; rw [exec_vsra]; exact run_meets m _
  case vftoi => simp only [wordOf, Option.some.injEq, Prod.mk.injEq] at h; obtain ⟨rfl, rfl⟩ := h; rw [exec_vftoi]; exact run_meets m _
  case vitof => simp only [wordOf, Option.some.injEq, Prod.mk.injEq] at h; obtain ⟨rfl, rfl⟩ := h; rw [exec_vitof]; exact run_meets m _
  case vdiv => simp only [wordOf, Option.some.injEq, Prod.mk.injEq] at h; obtain ⟨rfl, rfl⟩ := h; rw [exec_vdiv]; exact run_meets m _
  case vsqrt => simp only [wordOf, Option.some.injEq, Prod.mk.injEq] at h; obtain ⟨rfl, rfl⟩ := h; rw [exec_vsqrt]; exact run_meets m _
  case vrcp => simp only [wordOf, Option.some.injEq, Prod.mk.injEq] at h; obtain ⟨rfl, rfl⟩ := h; rw [exec_vrcp]; exact run_meets m _
  case vrsqrt => simp only [wordOf, Option.some.injEq, Prod.mk.injEq] at h; obtain ⟨rfl, rfl⟩ := h; rw [exec_vrsqrt]; exact run_meets m _
  case vexp2 => simp only [wordOf, Option.some.injEq, Prod.mk.injEq] at h; obtain ⟨rfl, rfl⟩ := h; rw [exec_vexp2]; exact run_meets m _
  case vlog2 => simp only [wordOf, Option.some.injEq, Prod.mk.injEq] at h; obtain ⟨rfl, rfl⟩ := h; rw [exec_vlog2]; exact run_meets m _
  case vexp => simp only [wordOf, Option.some.injEq, Prod.mk.injEq] at h; obtain ⟨rfl, rfl⟩ := h; rw [exec_vexp]; exact run_meets m _
  case vlog => simp only [wordOf, Option.some.injEq, Prod.mk.injEq] at h; obtain ⟨rfl, rfl⟩ := h; rw [exec_vlog]; exact run_meets m _
  case vtanh => simp only [wordOf, Option.some.injEq, Prod.mk.injEq] at h; obtain ⟨rfl, rfl⟩ := h; rw [exec_vtanh]; exact run_meets m _
  case vsigm => simp only [wordOf, Option.some.injEq, Prod.mk.injEq] at h; obtain ⟨rfl, rfl⟩ := h; rw [exec_vsigm]; exact run_meets m _
  case vsin => simp only [wordOf, Option.some.injEq, Prod.mk.injEq] at h; obtain ⟨rfl, rfl⟩ := h; rw [exec_vsin]; exact run_meets m _
  case vcos => simp only [wordOf, Option.some.injEq, Prod.mk.injEq] at h; obtain ⟨rfl, rfl⟩ := h; rw [exec_vcos]; exact run_meets m _
  case verf => simp only [wordOf, Option.some.injEq, Prod.mk.injEq] at h; obtain ⟨rfl, rfl⟩ := h; rw [exec_verf]; exact run_meets m _
  case vrsum => simp only [wordOf, Option.some.injEq, Prod.mk.injEq] at h; obtain ⟨rfl, rfl⟩ := h; rw [exec_vrsum]; exact run_meets m _
  case vrmax => simp only [wordOf, Option.some.injEq, Prod.mk.injEq] at h; obtain ⟨rfl, rfl⟩ := h; rw [exec_vrmax]; exact run_meets m _
  case vrmin => simp only [wordOf, Option.some.injEq, Prod.mk.injEq] at h; obtain ⟨rfl, rfl⟩ := h; rw [exec_vrmin]; exact run_meets m _
  case vrargmax => simp only [wordOf, Option.some.injEq, Prod.mk.injEq] at h; obtain ⟨rfl, rfl⟩ := h; rw [exec_vrargmax]; exact run_meets m _
  case vrargmin => simp only [wordOf, Option.some.injEq, Prod.mk.injEq] at h; obtain ⟨rfl, rfl⟩ := h; rw [exec_vrargmin]; exact run_meets m _
  case vld => simp only [wordOf, Option.some.injEq, Prod.mk.injEq] at h; obtain ⟨rfl, rfl⟩ := h; rw [exec_vld]; exact run_meets m _
  case vst => simp only [wordOf, Option.some.injEq, Prod.mk.injEq] at h; obtain ⟨rfl, rfl⟩ := h; rw [exec_vst]; exact run_meets m _
  case vgather => simp only [wordOf, Option.some.injEq, Prod.mk.injEq] at h; obtain ⟨rfl, rfl⟩ := h; rw [exec_vgather]; exact run_meets m _
  case psig => simp only [wordOf, Option.some.injEq, Prod.mk.injEq] at h; obtain ⟨rfl, rfl⟩ := h; rw [exec_psig]; exact run_meets m _
  case pwait => simp only [wordOf, Option.some.injEq, Prod.mk.injEq] at h; obtain ⟨rfl, rfl⟩ := h; rw [exec_pwait]; exact run_meets m _
  case parrive => simp only [wordOf, Option.some.injEq, Prod.mk.injEq] at h; obtain ⟨rfl, rfl⟩ := h; rw [exec_parrive]; exact run_meets m _
  case pbwait => simp only [wordOf, Option.some.injEq, Prod.mk.injEq] at h; obtain ⟨rfl, rfl⟩ := h; rw [exec_pbwait]; exact run_meets m _
  case preset => simp only [wordOf, Option.some.injEq, Prod.mk.injEq] at h; obtain ⟨rfl, rfl⟩ := h; rw [exec_preset]; exact run_meets m _
  case mring => simp only [wordOf, Option.some.injEq, Prod.mk.injEq] at h; obtain ⟨rfl, rfl⟩ := h; rw [exec_mring]; exact run_meets m _
  case mkick => simp only [wordOf, Option.some.injEq, Prod.mk.injEq] at h; obtain ⟨rfl, rfl⟩ := h; rw [exec_mkick]; exact run_meets m _
  all_goals simp [wordOf] at h

/-- The engine a dispatched word finds. -/
theorem foundEngine_eq {a : State} {n : Nat} {w : W128} (h : (a.core n).mode = .running) :
    ((dispatched a n w).core n).run.eng = foundEngine a n w := by
  rw [dispatched_core w h]
  rfl

/-- What an engine sees of scratchpad does not change by fetch and dispatch. -/
theorem viewOf_dispatched {a : State} {n : Nat} {w : W128} (h : (a.core n).mode = .running) :
    viewOf (dispatched a n w) n = viewOf a n := by
  simp only [viewOf, dispatched_core w h]
  rfl

/-- What a unit's executed word leaves, in the model's own operation. -/
theorem executed_eq {a : State} {n : Nat} {w : W128} {g : Engine} {wr : List (Nat × List Byte)} (h : (a.core n).mode = .running) :
    applyOut (dispatched a n w) n 0 (wordEntry a n w) (.ok g wr) = executed a n w g wr := by
  have hn : ((dispatched a n w).core n).mode ≠ .idle := by rw [dispatched_core w h]; simp [h]
  have hs := softReads_core w hn
  have hn' : ((softReads (dispatched a n w) n w).core n).mode ≠ .idle := by rw [hs.2]; exact hn
  have e : modQ ((softReads (dispatched a n w) n w).modEng n fun _ => g) n 0 (fun e => { e with done := true, taken := [] })
      = (softReads (dispatched a n w) n w).modRun n fun r => { r with eng := g, q := [{ wordEntry a n w with done := true }] } := by
    unfold modQ State.modEng
    rw [modRun_modRun _ _ _ _ hn']
    apply modRun_congr
    rw [hs.1, dispatched_core w h]
    rfl
  have ew : (wordEntry a n w).word = w := rfl
  unfold applyOut executed takeFree
  simp only [ew, e]
  have hb : (((softReads (dispatched a n w) n w).modRun n fun r => { r with eng := g, q := [{ wordEntry a n w with done := true }] }).core n).run.rowBase
      = (a.core n).run.rowBase := by
    rw [core_modRun _ _ _ hn', hs.1, dispatched_core w h]
    simp only [queued]
  have : ∀ (l : List (Nat × List Byte)) (s : State), (s.core n).run.rowBase = (a.core n).run.rowBase →
      l.foldl (fun s w => writeMem s (rowAddr n (s.core n).run.rowBase + w.1) w.2) s
        = l.foldl (fun s x => writeMem s (rowAddr n (a.core n).run.rowBase + x.1) x.2) s := by
    intro l
    induction l with
    | nil => intro s _; simp only [List.foldl_nil]
    | cons x t ih => intro s hs; rw [List.foldl_cons, List.foldl_cons, hs]; exact ih _ (by rw [core_writeMem]; exact hs)
  exact this _ _ hb

/-- A unit's word at a waiting core that its unit executes. -/
theorem issueWord_ok {a : State} {n : Nat} {w : W128} {g : Engine} {wr : List (Nat × List Byte)} (h : Accepts a n w) (hu : unitOf w ≠ 0)
    (hm : wOp w ≠ 0x03 ∨ ∀ r ∈ writeRows w, r ∉ heldRows a n)
    (hr : runEntry (dispatched a n w) n 0 (wordEntry a n w) = some (applyOut (dispatched a n w) n 0 (wordEntry a n w) (.ok g wr))) :
    issueWord a n w = executed a n w g wr := by
  rw [← executed_eq h.1.1]
  refine issueWord_executes h.1 hu h.2 ?_ hr
  rcases hm with hm | hm
  · exact mayRun_alone hm
  · have : heldRows (dispatched a n w) n = heldRows a n := by
      unfold heldRows State.mover
      rw [dispatched_core w h.1.1]
      rfl
    simp only [mayRun, List.all_nil, Bool.true_and, this, Bool.not_eq_true', Bool.and_eq_false_iff, List.any_eq_false, List.contains_iff_mem]
    exact .inr fun r hr => hm r hr

/-! ### What the unit of a word does with it -/

theorem runEntry_astat {s : State} {n i : Nat} {e : QWord} (h : wOp e.word = 1) :
    runEntry s n i e = some (applyOut s n i e (runAstat (viewOf s n) (s.core n).run.eng e.word)) := by
  simp only [runEntry, h]

theorem runEntry_adrain {s : State} {n i : Nat} {e : QWord} (h : wOp e.word = 3) :
    runEntry s n i e = some (applyOut s n i e (runAdrain (viewOf s n) (s.core n).run.eng e.word e.seed)) := by
  simp only [runEntry, h]

theorem runEntry_aload {s : State} {n i : Nat} {e : QWord} (h : wOp e.word = 4) :
    runEntry s n i e = some (applyOut s n i e (runAload (viewOf s n) (s.core n).run.eng e.word)) := by
  simp only [runEntry, h]

theorem runEntry_fres {s : State} {n i : Nat} {e : QWord} (h : wOp e.word = 33) :
    runEntry s n i e = some (applyOut s n i e (runFres (viewOf s n) (s.core n).run.eng e.word)) := by
  simp only [runEntry, h]

theorem runEntry_fdrain {s : State} {n i : Nat} {e : QWord} (h : wOp e.word = 35) :
    runEntry s n i e = some (applyOut s n i e (runFdrain (viewOf s n) (s.core n).run.eng e.word e.seed e.rvec)) := by
  simp only [runEntry, h]

theorem runEntry_amul {s : State} {n i : Nat} {e : QWord} (h : wOp e.word = 2) (hc : clash (s.core n).run e.word = false) :
    runEntry s n i e = if wf e.word 16 1 = 1 then some (applyOut s n i e (runAmulLocal (viewOf s n) (s.core n).run.eng e.word))
      else runStream s n i e := by
  simp only [runEntry, h, hc, Bool.and_false, Bool.false_eq_true, if_false]

theorem runEntry_fmul {s : State} {n i : Nat} {e : QWord} (h : wOp e.word = 34) (hc : clash (s.core n).run e.word = false) :
    runEntry s n i e = if wf e.word 15 2 = 2 then some (applyOut s n i e (runFmulLocal (viewOf s n) (s.core n).run.eng e.word))
      else runStream s n i e := by
  simp only [runEntry, h, hc, Bool.and_false, Bool.false_eq_true, if_false]

theorem runEntry_vector {s : State} {n i : Nat} {e : QWord} (h : 64 ≤ wOp e.word) :
    runEntry s n i e = some (applyOut s n i e (runVector (viewOf s n) (s.core n).run.eng e.word e.seed)) := by
  simp only [runEntry]
  split <;> first | omega | skip
  rw [if_neg (by omega), if_neg (by omega)]

/-- An instruction without a trapped flag (R51). -/
theorem finish_ok {b e : Engine} {fl : BitVec 7} {k : Nat} {wr : List (Nat × List Byte)} (h : fl &&& b.trap = 0) :
    finish b e fl k wr = .ok (flagged e fl k) wr := by
  simp [finish, h, flagged]

/-- What an instruction that ends without a trap leaves (R51, R52). -/
theorem finish_inv {b e g : Engine} {fl : BitVec 7} {k : Nat} {wr wr' : List (Nat × List Byte)} (h : finish b e fl k wr = .ok g wr') :
    g = flagged e fl k ∧ wr' = wr := by
  unfold finish at h
  split at h
  · cases h
  · injection h with h1 h2
    exact ⟨h1.symm, h2.symm⟩

end Sys2Proof.Machine
end

