-- ==== Sys2Proof/Tests/Slice0.lean ====
section
/-! SUPPORT. The model's own tests: ill-formed terms for the checks of WellFormed, words and values worked out from the spec, and for every
statement that has hypotheses a state and operands that meet them. -/

namespace Sys2Proof.Tests

open Sys2Proof Sys2Proof.Machine

set_option maxRecDepth 40000
set_option Elab.async false

/-! ### Helpers -/

/-- The next state of an outcome is the one expected. -/
def isNext (o : Host.Outcome State Fault Refusal) (t : State) : Bool := match o with
  | .next u => decide (u = t)
  | _ => false

/-- The fault of an outcome is the one expected. -/
def isFault (o : Host.Outcome State Fault Refusal) (f : Fault) : Bool := match o with
  | .fault g => decide (g = f)
  | _ => false

/-- The state after a step, or the given one where the step stops. -/
def nextOf (o : Host.Outcome State Fault Refusal) : State := match o with
  | .next u => u
  | _ => State.reset

theorem isNext_iff {o : Host.Outcome State Fault Refusal} {t : State} (h : isNext o t = true) : o = .next t := by
  unfold isNext at h
  split at h
  · rw [of_decide_eq_true h]
  · cases h

/-- A part that is on. -/
def wOn : State := { State.reset with start := { State.reset.start with pwrok := true } }

theorem wOn_meets : Meets wOn wOn := by unfold Meets; decide +kernel

/-- Two live contexts, and VPID 7 of context 1 mapped to peg 2048, whose home is core 1. -/
def wCtx : State :=
  let k : Ctx := { live := true, vpids := [(7, 2048)], hpegCount := 4, hpegBase := 64 }
  { wOn with ctxs := [(1, k), (2, { live := true })], pegs := [(2048, { mode := 1, owner := 1, vpid := 7 })], cxl := { wOn.cxl with up := true } }

/-- Core 3 runs a program of context 1 with nothing fetched. -/
def wCore : State :=
  let p : PegUnit := { slots := [none, some { vpid := 7, sense := false, phases := 0 }, none, none] }
  { wCtx with cores := [(3, { mode := .running, ctx := 1, run := { progPc := 0x4000000000, rowCount := 4096, peg := p } })] }

theorem wCore_meets : Meets wCore wCore := by unfold Meets; decide +kernel

theorem wCore_waits : Waiting wCore 3 := by unfold Waiting; decide +kernel

/-- A message of a whole data word. -/
def word64 (b : Byte) : List Byte := List.replicate 64 b

/-! ### Ill-formed commands -/

/-- Program words: a NOP row with another row's OP, and a mode of AMUL in another mode's row (Table 3-4); DONE of unit 0 (Table 6-4). -/
theorem test_wf_words :
    ([.nop 0 0x11, .nop 0 0x7A, .amul 0 (1 <<< 30), .distSq 0 0, .distAbs 0 0, .distMax 0 0, .selMax 0 0, .selMin 0 0, .foldMax 0 0, .foldMin 0 0
      , .engineWordComplete 0 0 0 []] : List Instr).all (fun i => !i.wf) = true := by decide +kernel

/-- Packet entries and packet references whose fields do not fit (Table 8-1). -/
theorem test_wf_packets :
    ([.openPkt 64 { tag := 2 ^ 32 } 0 false, .openPkt 64 { length := 256 } 0 false, .openPkt 64 { prio := 8 } 0 false, .openPkt 64 { fver := 4 } 0 false
      , .openPkt 64 { fmt := 32 } 0 false, .openPkt 64 { pseq := 2 ^ 32 } 0 false, .openPkt 64 { slot := 16 } 0 false, .openPkt 64 { crc := 2 ^ 32 } 0 false
      , .openPkt 64 {} 65536 false, .commit 64 16 0 [] false false, .commit 64 0 (2 ^ 32) [] false false, .commit 64 0 0 [1] false false
      , .openTimeout 64 16 0, .openTimeout 64 0 (2 ^ 32), .readHoldExpiry 64 (2 ^ 32), .unclaim 64 (2 ^ 32), .retire 64 (2 ^ 32)
      , .payloadCopied 64 (2 ^ 32), .creditUpdate 64 16] : List Instr).all (fun i => !i.wf) = true := by decide +kernel

/-- Messages and frames whose fields do not fit, or whose data words are not what the header says (Table 12-5). -/
theorem test_wf_messages :
    ([.wr 0 { words := [1], data := true }, .wr 0 { words := word64 1 }, .wr 0 { words := word64 1, data := true, len := 1 }, .rd 0 { len := 512 }
      , .atomic 0 { tag := 4096 }, .signal 0 { dst := 65536 }, .trayPut 0 { src := 65536 }, .update 0 { addr := 2 ^ 48 }, .credit 0 { arg := 2 ^ 64 }
      , .mgmt 0 { ctx := 4096 }, .rddata 0 { win := 16384 }, .wrack 0 { slot := 16 }, .atomresp 0 { status := 65536 }, .sigack 0 { tag := 4096 }
      , .trayAck 0 { tag := 4096 }, .updack 0 { tag := 4096 }, .rspTimeout 0 4096, .frameReceive 0 4 0 0 true 0 0, .frameReceive 0 0 1024 0 true 0 0
      , .frameReceive 0 0 0 1024 true 0 0, .frameReceive 0 0 0 0 true 5 0, .replay 0 1024, .tag 0 false 1024 true, .linkCredit 0 4 0 0
      , .linkCredit 0 0 65536 0, .linkCredit 0 0 0 65536, .routeHoldRelease 65536] : List Instr).all (fun i => !i.wf) = true := by decide +kernel

/-- Doorbells, host writes and mailbox requests whose fields do not fit. -/
theorem test_wf_host :
    ([.cmdTail 1 (2 ^ 32) [], .cmplHead 1 (2 ^ 32), .evrHead 1 (2 ^ 32), .htrTail 1 0 65536 [], .hostMemWrite 0 (List.replicate 65 0) false
      , .ringAnchor { cmdBase := 2 ^ 64 }, .ringAnchor { cmplBase := 2 ^ 64 }, .ringAnchor { vector := 65536 }, .linkPolicy 256 0 false false
      , .linkPolicy 0 256 false false] : List Instr).all (fun i => !i.wf) = true := by decide +kernel

/-- Command headers whose fields do not fit, or whose parameter slots are not as many as they say (Table 14-2). -/
theorem test_wf_commands :
    ([.sessionOpen 0 { nparam := 16 } [], .sessionClose 0 { target := 4096 } [], .ctxCreate 0 { cmdid := 2 ^ 32 } [], .ctxDestroy 0 { flags := 65536 } []
      , .ctxConfig 0 { haddr := 2 ^ 64 } [], .stageLoad 0 { hlen := 2 ^ 32 } [] {}, .stageDrain 1 { nparam := 1 } [], .trayConfig 1 {} (word64 0)
      , .trayRelease 1 { nparam := 1 } [], .trayFlush 1 { nparam := 1 } [], .sweepRun 1 { nparam := 1 } [], .sweepRunStop 1 { nparam := 1 } []
      , .seqJoin 1 { nparam := 1 } [], .seqLeave 1 { nparam := 1 } [], .rakeProgram 1 { nparam := 1 } [], .rakeGroup 1 { nparam := 1 } []
      , .pegAlloc 1 { nparam := 1 } [], .pegFree 1 { nparam := 1 } [], .pegReset 1 { nparam := 1 } [], .pegSignal 1 { nparam := 1 } []
      , .pegWait 1 { nparam := 1 } [], .pegDump 1 { nparam := 1 } [], .windowOpen 1 { nparam := 1 } [], .windowClose 1 { nparam := 1 } []
      , .routeSet 0 { nparam := 1 } [], .harvest 1 { nparam := 1 } [], .restore 1 { nparam := 1 } [] {}, .powerSet 0 { nparam := 1 } []
      , .selftest 0 { nparam := 1 } [], .debugRead 0 { nparam := 1 } [], .attest 0 { nparam := 1 } []] : List Instr).all (fun i => !i.wf) = true := by
  decide +kernel

/-! ### The queue, power and boot -/

/-- `StepRunsQueue`: a queue with a command, and empty queues with and without power. -/
theorem test_stepRunsQueue :
    isNext (step { wOn with pending := [.rateSample 3 5, .gateRelease 1] }) (nextOf (exec (.rateSample 3 5) { wOn with pending := [.gateRelease 1] })) = true
    ∧ (wOn.pending = [] ∧ powered wOn = true ∧ isNext (step wOn) { wOn with now := 1 } = true)
    ∧ (State.reset.pending = [] ∧ powered State.reset = false ∧ isNext (step State.reset) State.reset = true) := by decide +kernel

/-- A start with an image that verifies in slot 1, and with none. -/
def goodRec : SignedRec := { present := true, version := 0x01000000 }
def goodStart : StartInputs := { slot1 := goodRec, repairRec := { present := true, kind := 3 } }

/-- `PowerEdges`: a command without power; a rising edge while PWROK is high; and an edge for each end of a start, from flash and over the
mesh. -/
theorem test_powerEdges :
    (powered State.reset = false ∧ isPowerEdge .hardwareTrip = false) ∧ wOn.start.pwrok = true ∧ State.reset.start.pwrok = false
    ∧ (∃ i : StartInputs, i.bootsrc = false ∧ i.flashAnswers = false)
    ∧ (∃ i : StartInputs, i.bootsrc = true ∧ i.meshAnswers = false)
    ∧ (∃ i : StartInputs, i.bootsrc = false ∧ i.flashAnswers = true ∧ chooseImage i = none)
    ∧ (∃ (i : StartInputs) (r : SignedRec), i.bootsrc = true ∧ i.meshAnswers = true ∧ chooseImage i = some (1, r) ∧ i.memTrains = false)
    ∧ (∃ (i : StartInputs) (r : SignedRec), i.bootsrc = false ∧ i.flashAnswers = true ∧ chooseImage i = some (1, r) ∧ i.memTrains = true ∧ i.badArray = true)
    ∧ (∃ (i : StartInputs) (r : SignedRec), i.bootsrc = false ∧ i.flashAnswers = true ∧ chooseImage i = some (1, r) ∧ i.memTrains = true ∧ i.badArray = false) :=
  ⟨by decide +kernel, by decide +kernel, by decide +kernel, ⟨{ flashAnswers := false }, by decide +kernel⟩, ⟨{ bootsrc := true, meshAnswers := false }, by decide +kernel⟩
  , ⟨{}, by decide +kernel⟩, ⟨{ goodStart with bootsrc := true, memTrains := false }, goodRec, by decide +kernel⟩
  , ⟨{ goodStart with badArray := true }, goodRec, by decide +kernel⟩, ⟨goodStart, goodRec, by decide +kernel⟩⟩

/-- A cold start that completes leaves phase F and READY (R409, R414). -/
theorem test_powerOn_completes :
    (nextOf (exec (.powerOn goodStart) State.reset)).start.phase = 0xF ∧ (nextOf (exec (.powerOn goodStart) State.reset)).cxl.ready = true := by
  decide +kernel

/-- `UnpoweredStepKeeps`: reset, and a part that a command without power waits at; each answers a next state. -/
theorem test_unpowered :
    (powered State.reset = false ∧ State.reset.pending.all (fun c => !isPowerEdge c) = true)
    ∧ (let s : State := { State.reset with pending := [.hardwareTrip, .rateSample 3 5] }
       powered s = false ∧ s.pending.all (fun c => !isPowerEdge c) = true ∧ isNext (step s) { s with pending := [.rateSample 3 5] } = true) := by
  decide +kernel

/-- `ResetsAndTrip`, and the stop of BOARD_RESET without the rails. -/
theorem test_resets : Meets wOn wOn ∧ powered wOn = true ∧ isFault (exec (.boardReset false {}) wOn) .undefinedStart = true :=
  ⟨wOn_meets, by decide +kernel, by decide +kernel⟩

/-- The root of a board with port 2 up at version 2, and a secondary that waits for its parts. -/
def wRoot : State :=
  { wOn with ports := [(2, { state := 2, version := 2 })], start := { wOn.start with dister := true, parts := [(1, 0, [7])] } }
def wMesh (retries : Nat) (stuck : Bool) : State :=
  { wOn with start := { wOn.start with pos := 3, mesh := true, bootsrc := true, meshTries := retries, waitmesh := stuck } }

/-- `MeshBoot`: each clause, with the retries at 9 and at 10. -/
theorem test_meshBoot :
    (advance wRoot = wRoot ∧ powered wRoot = true ∧ wRoot.start.pos = 0 ∧ wRoot.start.dister = true ∧ (wRoot.port 2).version = 2 ∧ 2 ≤ (wRoot.port 2).state
      ∧ wRoot.start.trainPut = none)
    ∧ (advance (wMesh 9 false) = wMesh 9 false ∧ powered (wMesh 9 false) = true ∧ meshWaiting (wMesh 9 false) = true ∧ (4 : PortId).val = 7 - (wMesh 9 false).start.pos
      ∧ (wMesh 9 false).start.waitmesh = false ∧ (wMesh 9 false).start.meshTries < 10)
    ∧ (advance (wMesh 10 false) = wMesh 10 false ∧ meshWaiting (wMesh 10 false) = true ∧ 10 ≤ (wMesh 10 false).start.meshTries)
    ∧ (advance (wMesh 10 true) = wMesh 10 true ∧ meshWaiting (wMesh 10 true) = true ∧ (wMesh 10 true).start.waitmesh = true) := by decide +kernel

/-! ### Words of core programs -/

/-- A word from its OP and its fields, each with its lowest bit. -/
def wordFrom (op : Nat) (l : List (Nat × Nat)) : W128 := BitVec.ofNat 128 (l.foldl (fun n e => n + e.2 * 2 ^ e.1) op)

/-- The word, at core 3 of `a`, meets what the statements about unit words ask. -/
def good (a : State) (w : W128) : Bool :=
  decide (wordOf (instrOfWord 3 w) = some (3, w)) && powered a && decide (advance a = a) && decide (issueFault (a.core 3).run w = none)
    && decide (a.core 3).run.ended.not && decide ((a.core 3).run.q = []) && fetchOk a 3 (a.core 3).run.progPc && decide ((a.core 3).mode = .running)

theorem good_iff {a : State} {w : W128} (hw : Waiting a 3) (h : good a w = true) :
    wordOf (instrOfWord 3 w) = some (3, w) ∧ Meets a a ∧ Accepts a 3 w := by
  simp only [good, Bool.and_eq_true, decide_eq_true_eq] at h
  obtain ⟨⟨⟨⟨⟨⟨⟨h1, h2⟩, h3⟩, h4⟩, -⟩, -⟩, -⟩, -⟩ := h
  exact ⟨h1, ⟨h2, h3⟩, hw, h4⟩

/-- `WordRoundTrip`: words of well-formed rows. -/
theorem test_wordRoundTrip :
    (Instr.vadd 3 0).wf = true ∧ wordOf (.vadd 3 0) = some (3, 0x40) ∧ (Instr.nop 3 0xFF).wf = true ∧ wordOf (.nop 3 0xFF) = some (3, 0xFF)
    ∧ (Instr.selMax 3 (4 <<< 30)).wf = true ∧ wordOf (.selMax 3 (4 <<< 30)) = some (3, 0x10000000002) ∧ wordOf (.mring 3 1 0) = some (3, 0x34) := by decide +kernel

/-- Words of each family of Table 6-2, Table 5-8, Table 12-12 and Table 11-5, written out by their OP. -/
theorem test_words_spell :
    instrOfWord 3 0x01 = .astat 3 0 ∧ instrOfWord 3 0x03 = .adrain 3 0 ∧ instrOfWord 3 0x04 = .aload 3 0 ∧ instrOfWord 3 0x12 = .loop 3 0
    ∧ instrOfWord 3 0x13 = .seed 3 0 ∧ instrOfWord 3 0x14 = .endW 3 0 ∧ instrOfWord 3 0x21 = .fres 3 0 ∧ instrOfWord 3 0x23 = .fdrain 3 0
    ∧ instrOfWord 3 0x4B = .vsel 3 0 ∧ instrOfWord 3 0x59 = .vftoi 3 0 ∧ instrOfWord 3 0x6C = .verf 3 0 ∧ instrOfWord 3 0x74 = .vrargmin 3 0
    ∧ instrOfWord 3 0x7A = .vgather 3 0 ∧ instrOfWord 3 0x30 = .mring 3 0 0 ∧ instrOfWord 3 0x31 = .mkick 3 0 0 ∧ instrOfWord 3 0x38 = .psig 3 0
    ∧ instrOfWord 3 0x3C = .preset 3 0 := by decide +kernel

def wAstat : W128 := wordFrom 0x01 [(48, 256), (57, 1), (32, 0)]
def wAdrain : W128 := wordFrom 0x03 [(19, 32), (32, 8), (48, 40)]
def wAload : W128 := wordFrom 0x04 [(19, 32)]

/-- `ArrayLoadDrain`: ASTAT of 256 tokens, the largest count, and one block; ADRAIN and ALOAD of one tile of FP32. -/
theorem test_arrayLoadDrain :
    (wAstat = mkWord 0x01 (wAstat.extractLsb' 8 120) ∧ good wCore wAstat = true ∧ (viewOf wCore 3).badOf (readRows wAstat) = [])
    ∧ (wAdrain = mkWord 0x03 (wAdrain.extractLsb' 8 120) ∧ good wCore wAdrain = true ∧ (viewOf wCore 3).badOf (readRows wAdrain) = []
      ∧ (writeRows wAdrain).all (fun r => decide (r ∉ heldRows wCore 3)) = true
      ∧ (foundEngine wCore 3 wAdrain).trap = 0)
    ∧ (wAload = mkWord 0x04 (wAload.extractLsb' 8 120) ∧ good wCore wAload = true ∧ (viewOf wCore 3).badOf (readRows wAload) = []) := by decide +kernel

/-- Core 3 with both stationary and both resident buffers loaded in FP32. -/
def wBufs : State :=
  wCore.modEng 3 fun e =>
    let b : SBuf := { full := true, tokens := 2, blocks := 1, cols := [[.fin false 1 0], [.fin true 3 0]] }
    { e with last0 := some 0, rlast0 := some 0, sb0 := b, rb0 := { b with dead := [] }, rvec := 2 }
theorem wBufs_waits : Waiting wBufs 3 := by unfold Waiting; decide +kernel

def wAmul (src mode : Nat) : W128 := wordFrom 0x02 [(15, src), (28, 1), (38, mode), (18, 0), (9, 1)]

/-- `ArrayMultiply`: a local word, and a word from the weight intake while that is empty, for the plain rows and the comparison rows. -/
theorem test_arrayMultiply :
    ([0, 1, 2, 3, 4, 5, 6, 7].all fun mode =>
      good wBufs (wAmul 2 mode) && !clash (queued wBufs 3 (wAmul 2 mode) (wBufs.core 3).run) (wAmul 2 mode)
        && decide (localGood (viewOf wBufs 3) (wAmul 2 mode) 0 0 1 = (1, []))
        && decide ((amulApply (foundEngine wBufs 3 (wAmul 2 mode)) (wAmul 2 mode) (localVectors (viewOf wBufs 3) (wAmul 2 mode) 0 0 1)).2
          &&& (foundEngine wBufs 3 (wAmul 2 mode)).trap = 0)
        && decide (wf (wAmul 2 mode) 16 1 = 1 ∧ wf (wAmul 2 mode) 28 10 = 1 ∧ wf (wAmul 2 mode) 48 16 = 0 ∧ wf (wAmul 2 mode) 64 16 = 0)) = true
    ∧ ([0, 4].all fun mode => good wBufs (wAmul 0 mode) && !clash (queued wBufs 3 (wAmul 0 mode) (wBufs.core 3).run) (wAmul 0 mode)
        && decide (wf (wAmul 0 mode) 16 1 = 0 ∧ (foundEngine wBufs 3 (wAmul 0 mode)).intake = [])) = true := by decide +kernel

def wFres : W128 := wordFrom 0x21 [(48, 16), (53, 1)]
def wFmul (src : Nat) : W128 := wordFrom 0x22 [(15, src), (27, 1), (9, 1)]
def wFdrain : W128 := wordFrom 0x23 [(18, 32), (32, 8), (48, 40)]

/-- `FurrowWords`: FRES of 16 vectors, the largest count; FMUL from rows, from the intake and from the direct queue; FDRAIN. -/
theorem test_furrowWords :
    (wFres = mkWord 0x21 (wFres.extractLsb' 8 120) ∧ good wCore wFres = true ∧ (viewOf wCore 3).badOf (readRows wFres) = [])
    ∧ ([0, 1, 2].all fun src => good wBufs (wFmul src) && !clash (queued wBufs 3 (wFmul src) (wBufs.core 3).run) (wFmul src)
        && decide (wf (wFmul src) 15 2 = src ∧ (foundEngine wBufs 3 (wFmul src)).intake = [] ∧ (foundEngine wBufs 3 (wFmul src)).direct = [])) = true
    ∧ (localGood (viewOf wBufs 3) (wFmul 2) 0 0 1 = (1, [])
      ∧ (fmulApply (foundEngine wBufs 3 (wFmul 2)) (wFmul 2) (localVectors (viewOf wBufs 3) (wFmul 2) 0 0 1)).2 &&& (foundEngine wBufs 3 (wFmul 2)).trap = 0)
    ∧ (wFdrain = mkWord 0x23 (wFdrain.extractLsb' 8 120) ∧ good wCore wFdrain = true ∧ (viewOf wCore 3).badOf (readRows wFdrain) = []
      ∧ (foundEngine wCore 3 wFdrain).trap = 0) := by decide +kernel

/-- The elementwise rows with a register result. -/
def laneOps : List Nat :=
  [0x40, 0x41, 0x42, 0x43, 0x44, 0x45, 0x46, 0x47, 0x50, 0x51, 0x52, 0x53, 0x54, 0x55, 0x56, 0x57, 0x58, 0x59, 0x5A, 0x60, 0x61, 0x62, 0x63
    , 0x64, 0x65, 0x66, 0x67, 0x68, 0x69, 0x6A, 0x6B, 0x6C]

/-- `VectorLanes`: every row, with no trap enabled. -/
theorem test_vectorLanes :
    (laneOps.all fun o => good wCore (wordFrom o []) && [VGroup.arith, .integer, .cvt, .root, .trans].contains (vGroup (wOp (wordFrom o [])))) = true
    ∧ ([0x48, 0x49, 0x4A].all fun o => good wCore (wordFrom o []) && decide (vGroup (wOp (wordFrom o [])) = .cmp)) = true
    ∧ (good wCore 0x4B = true ∧ wOp 0x4B = 0x4B) ∧ ((foundEngine wCore 3 0x40).count 0x02C0 1).trap = 0 := by decide +kernel

def wRed (o : Nat) : W128 := wordFrom o [(32, 9)]
def wVld : W128 := wordFrom 0x78 []
def wVst : W128 := wordFrom 0x79 []
def wVgather : W128 := wordFrom 0x7A [(64, 1)]

/-- `VectorReduceMemory`: every reduction over 512 lanes, VLD, VST, and VGATHER of indices in a table of one row. -/
theorem test_vectorReduceMemory :
    ([0x70, 0x71, 0x72, 0x73, 0x74].all fun o => good wCore (wRed o) && decide (vGroup (wOp (wRed o)) = .red)) = true
    ∧ (good wCore wVld = true ∧ vGroup (wOp wVld) = .ld ∧ (viewOf wCore 3).badOf (readRows wVld) = [])
    ∧ (good wCore wVst = true ∧ vGroup (wOp wVst) = .st ∧ ((foundEngine wCore 3 wVst).count 0x02C0 1).trap = 0
      ∧ wCore.badRows = [])
    ∧ (good wCore wVgather = true ∧ vGroup (wOp wVgather) = .gath
      ∧ (let e := (foundEngine wCore 3 wVgather).count 0x02C0 1
         let v := viewOf wCore 3
         (activeLanes e wVgather).all fun l =>
          let i := (vlane e (wf wVgather 13 5) l).toInt
          decide (0 ≤ i ∧ i < (wf wVgather 64 16 * 128 : Nat) ∧ wf wVgather 48 16 + i.toNat / 128 < v.count) && !v.isBad (wf wVgather 48 16 + i.toNat / 128)) = true) := by
  decide +kernel

/-- `WordFrame`: a running core. -/
theorem test_wordFrame : (wCore.core 3).mode = .running := by decide +kernel

/-- 1 + 2 = 3 in VADD, 2^31 - 1 + 1 wraps in VIADD and VSHL takes the low five bits (R104, R105, Table 5-8). -/
theorem test_lane_values :
    (vecLane 0x40 0x3F800000 0x40000000 0).1 = 0x40400000 ∧ (vecLane 0x50 0x7FFFFFFF 1 0).1 = 0x80000000 ∧ (vecLane 0x42 0x40000000 0x40400000 0).1 = 0x40C00000
    ∧ (vecLane 0x47 0x3F800000 0 0).1 = 0xBF800000 ∧ (vecLane 0x46 0xBF800000 0 0).1 = 0x3F800000 ∧ (vecLane 0x61 0x40800000 0 0).1 = 0x40000000
    ∧ (vecLane 0x59 0x40200000 0 0).1 = 2 ∧ (vecLane 0x5A 3 0 0).1 = 0x40400000 := by decide +kernel

def wBad : W128 := 0xFF
def wTrap : State := wCore.modEng 3 fun e => { e with trap := 0x7F, vreg := [(0, 0x7FC00000)] }

/-- `ProgramFaults`: a reserved OP, a fetch outside the program's memory, a poisoned word, an idle core, what is recorded, and a trapped flag. -/
theorem test_programFaults :
    (good wCore wBad = false ∧ wordOf (.nop 3 wBad) = some (3, wBad) ∧ wOp wBad ≠ 0x11 ∧ issueFault (wCore.core 3).run wBad = some (9, 0)
      ∧ ((nextOf (exec (.nop 3 wBad) wCore)).core 3).mode ≠ .running ∧ ((nextOf (exec (.nop 3 wBad) wCore)).core 3).fault.cause = 9
      ∧ ((nextOf (exec (.nop 3 wBad) wCore)).ctx 1).faulted = true)
    ∧ (let a := wCore.modRun 3 fun r => { r with progPc := 0x10 }
       advance a = a ∧ (a.core 3).mode = .running ∧ (a.core 3).run.prog = [] ∧ fetchOk a 3 0x10 = false
        ∧ ((programFault a 3 0x0A 0 0x10 0 0x10).core 3).mode ≠ .running)
    ∧ (let a : State := { wCore with poison := [0x4000000000 / 64] }
       advance a = a ∧ fetchOk a 3 0x4000000000 = true ∧ isPoisoned a 0x4000000000 16 = true
        ∧ ((unitUncorrRec (noteBad a 0x4000000000 16) 3 0x4000000000).core 3).mode ≠ .running)
    ∧ ((wCore.core 4).mode ≠ .running ∧ (wCore.ctx 1).faulted = false)
    ∧ (let a := wCore.modCtx 1 fun x => { x with faulted := true }
       (a.core 3).mode = .running ∧ (a.ctx (a.core 3).ctx).faulted = true) := by decide +kernel

/-- `ProgramFaults`, its last part: a NaN operand whose flag is trapped. -/
theorem test_trap :
    good wTrap 0x40 = true ∧ vGroup (wOp 0x40) = .arith
    ∧ (let e := (foundEngine wTrap 3 0x40).count 0x02C0 1
       (activeLanes e 0x40).foldl (fun f l => f ||| (vecLane (wOp 0x40) (vlane e (wf (0x40 : W128) 13 5) l) (operandB e 0x40 l) (vlane e (wf (0x40 : W128) 23 5) l)).2) 0
        &&& e.trap ≠ 0) := by decide +kernel

theorem wTrap_waits : Waiting wTrap 3 := by unfold Waiting; decide +kernel

/-! ### Control, mover and peg words -/

def wSeed : W128 := wordFrom 0x13 [(8, 15), (12, 1), (64, 5)]
def wLoop : W128 := wordFrom 0x12 [(8, 1), (16, 2)]
def wGate : W128 := wordFrom 0x11 [(8, 1), (12, 8)]
def wKicked : State := wCore.modRun 3 fun r => { r with issued := [(8, 1)] }

/-- `ControlWords`: SEED of register 15, the last; LOOP of one word; GATE on a source that has completed and on one that has not. -/
theorem test_controlWords :
    (wSeed = mkWord 0x13 (wSeed.extractLsb' 8 120) ∧ wf wSeed 13 51 = 0) ∧ (wLoop = mkWord 0x12 (wLoop.extractLsb' 8 120) ∧ controlBad (wCore.core 3).run wLoop = false)
    ∧ (wGate = mkWord 0x11 (wGate.extractLsb' 8 120) ∧ controlBad (wCore.core 3).run wGate = false ∧ gateMet (wCore.core 3).run (gateNeeds (wCore.core 3).run wGate) = true)
    ∧ (advance wKicked = wKicked ∧ controlBad (wKicked.core 3).run wGate = false ∧ gateMet (wKicked.core 3).run (gateNeeds (wKicked.core 3).run wGate) = false) := by
  decide +kernel

theorem wKicked_waits : Waiting wKicked 3 := by unfold Waiting; decide +kernel

/-- SEED with the bit that adds, and LOOP, leave the seed register and the loop (R121, R123). -/
theorem test_seed_loop :
    tget 0 ((nextOf (exec (.seed 3 (wSeed.extractLsb' 8 120)) wCore)).core 3).run.seeds 15 = 5
    ∧ (((nextOf (exec (.loop 3 (wLoop.extractLsb' 8 120)) wCore)).core 3).run.loops.map LoopSt.count) = [2]
    ∧ ((nextOf (exec (.endW 3 0) wCore)).core 3).run.ended = true := by decide +kernel

/-- Ring 2 of mover 0 of core 3 is bound to 16 descriptors, released up to 2. -/
def wBound (halted : Bool) : State := wCore.modRun 3 fun r => r.setMov 0 { r.mov 0 with
  rings := modAt (r.mov 0).rings 2 fun _ => { bound := true, base := 0x5000000000, log2n := 4, halted := halted, released := 2, next := 2, started := 2 } }
def wMring (log2n : Nat) : W128 := wordFrom 0x30 [(8, 1), (14, log2n), (64, 0x5000000000)]
def wMkick (k : Nat) : W128 := wordFrom 0x31 [(8, 2), (16, k)]

/-- `MoverWords`: MRING of a free ring with the least and the largest size; MKICK on a halted ring, of one descriptor, and of all 16. -/
theorem test_moverWords :
    ([3, 16].all fun n => decide (wMring n = mkWord (mringOp 0) ((wMring n).extractLsb' 8 120) ∧ wf (wMring n) 19 45 = 0 ∧ wf (wMring n) 14 5 = n
      ∧ wf (wMring n) 64 64 % 64 = 0 ∧ progMem wCore 3 (wf (wMring n) 64 64) (64 * 2 ^ n) false = true ∧ (wCore.ring 3 0 (wf (wMring n) 8 2)).bound = false)) = true
    ∧ ([1, 16].all fun k => decide (wMkick k = mkWord (mkickOp 0) ((wMkick k).extractLsb' 8 120) ∧ wf (wMkick k) 10 6 = 0 ∧ wf (wMkick k) 32 96 = 0
      ∧ wf (wMkick k) 8 2 = 2 ∧ wf (wMkick k) 16 16 = k)) = true
    ∧ (advance (wBound true) = wBound true ∧ ((wBound true).ring 3 0 2).bound = true ∧ ((wBound true).ring 3 0 2).halted = true)
    ∧ (advance (wBound false) = wBound false ∧ ((wBound false).ring 3 0 2).bound = true ∧ ((wBound false).ring 3 0 2).halted = false
      ∧ 16 + (((wBound false).ring 3 0 2).released - ((wBound false).ring 3 0 2).next) ≤ 2 ^ ((wBound false).ring 3 0 2).log2n) := by decide +kernel

theorem wBound_waits : Waiting (wBound true) 3 ∧ Waiting (wBound false) 3 := by unfold Waiting; decide +kernel

def wSignal (dest : Nat) : W128 := wordFrom 0x38 [(8, if dest = 2 then 3 else 7), (20, dest), (32, 5)]
def wWait : W128 := wordFrom 0x39 [(8, 7), (20, 1), (32, 5)]
def wArrive (hold : Nat) : W128 := wordFrom 0x3A [(8, 7), (22, hold)]
def wPbwait : W128 := wordFrom 0x3B [(20, 1)]
def wPreset : W128 := wordFrom 0x3C [(8, 7), (32, 9)]
def wBarrier : State := { wCore with pegs := [(2048, { mode := 3, owner := 1, vpid := 7, parties := 3 })] }

/-- `PegWords`: each word whose checks pass, a host peg of the last number among them. -/
theorem test_pegWords :
    ([wSignal 0, wSignal 2, wWait, wPbwait, wPreset].all fun w => decide (wordOf (instrOfWord 3 w) = some (3, w) ∧ 0x38 ≤ wOp w ∧ wOp w ≤ 0x3C ∧ pegBad wCore 3 w = 0)) = true
    ∧ (wf (wSignal 0) 20 2 = 0 ∧ wf (wSignal 2) 20 2 = 2 ∧ ((wCore.core 3).run.peg.slots.getD (wf wPbwait 20 2) none).isSome = true)
    ∧ ([wArrive 0, wArrive 1].all fun w => decide (wordOf (instrOfWord 3 w) = some (3, w) ∧ pegBad wBarrier 3 w = 0 ∧ wOp w = 0x3A)) = true
    ∧ advance wBarrier = wBarrier := by decide +kernel

theorem wBarrier_waits : Waiting wBarrier 3 := by unfold Waiting; decide +kernel

def wDone : State := nextOf (exec (.vadd 3 0) wCore)
def wStall : State := advance (nextOf (exec (instrOfWord 3 (wAmul 0 0)) wBufs))
def wEnded : State := wCore.modRun 3 fun r => { r with ended := true }

/-- `CoreProgress`: an executed word in front, and one that waits; and a program that has ended. -/
theorem test_coreProgress :
    (advance wDone = wDone ∧ (wDone.core 3).mode = .running ∧ beatOrder 7 ≠ ([], [])
      ∧ ((wDone.core 3).run.q.find? fun e => e.unit == 7 && e.gate.isNone).map QWord.done = some true)
    ∧ (advance wStall = wStall ∧ (wStall.core 3).mode = .running ∧ ((wStall.core 3).run.q.find? fun e => e.unit == 2 && e.gate.isNone).map QWord.done = some false)
    ∧ (advance wEnded = wEnded ∧ (wEnded.core 3).mode = .running ∧ (wEnded.core 3).run.ended = true ∧ (wEnded.core 3).run.q = []
      ∧ ([0, 1].all fun m => (wEnded.mover 3 m).rings.all ringSettled) = true) := by decide +kernel

/-- ENGINE_WORD_COMPLETE retires the VADD and PROGRAM_COMPLETE frees the core (R116, R118). -/
theorem test_completes :
    ((nextOf (exec (.engineWordComplete 3 7 0 []) wDone)).core 3).run.q = [] ∧ tget 0 ((nextOf (exec (.engineWordComplete 3 7 0 []) wDone)).core 3).run.done 7 = 1
    ∧ ((nextOf (exec (.programComplete 3) wEnded)).core 3).mode = .idle := by decide +kernel

/-- A descriptor of 64 bytes (Table 12-11) from its fields, each a byte offset, a width in bytes and a value. -/
def descBytes (l : List (Nat × Nat × Nat)) : List Byte := l.foldl (fun b e => placeAt b e.1 (leBytes e.2.1 e.2.2)) (List.replicate 64 0)

/-- Core 3 of node 5 with a descriptor released on ring 2 of mover `m`. -/
def wDesc (m : Nat) (d : List Byte) (poison : List Nat) : State :=
  let s := wCore.modRun 3 fun r => { (r.setMov m { (r.mov m) with
    rings := modAt (r.mov m).rings 2 fun _ => { bound := true, base := 0x5000000000, log2n := 4, released := 1 } }) with
      q := [{ unit := 8 + m, word := 0x31, pc := 0x4000000000, kick := some (2, 1) }] }
  { (writeMem (s.modSalt fun x => { x with node := 5 }) 0x5000000000 d) with poison := poison }

/-- The local address `x` of node `n`. -/
def gAt (n x : Nat) : Nat := n * 2 ^ 48 + x

def dCopy : List Byte := descBytes [(0, 4, 1), (8, 8, gAt 5 0x6000000000), (0x10, 8, gAt 5 0x6100000000), (0x18, 4, 64), (0x1C, 4, 2), (0x20, 4, 64), (0x24, 4, 64)]
def dAdd : List Byte := descBytes [(0, 4, 0x11), (8, 8, gAt 5 0x6000000000), (0x10, 8, gAt 5 0x6100000000), (0x18, 4, 64), (0x1C, 4, 1), (0x38, 8, gAt 5 0x6200000000)]
def dStream : List Byte := descBytes [(0, 4, 0x21), (8, 8, gAt 5 0x6000000000), (0x18, 4, 256), (0x1C, 4, 1), (0x34, 4, 128)]
def dAtomic : List Byte := descBytes [(0, 4, 0x31), (8, 8, gAt 5 0x6000000000), (0x10, 8, gAt 5 0x6100000000), (0x18, 4, 8), (0x1C, 4, 1)]
def dPut : List Byte := descBytes [(0, 4, 0x41), (8, 8, gAt 5 0x6000000000), (0x10, 8, gAt 6 0x40)]
def dUpdate : List Byte := descBytes [(0, 4, 0x51), (8, 8, gAt 5 0x6000000000), (0x10, 8, gAt 5 0)]
def dOf (b : List Byte) : Desc := { idx := 0, bytes := b }

/-- What a descriptor's statement asks of it and of its state. -/
def descGood (m kind : Nat) (b : List Byte) : Bool :=
  let a := wDesc m b []
  powered a && decide (advance a = a) && decide ((a.core 3).mode = .running) && decide ((a.ring 3 m 2).nextStart = some 0)
    && !isPoisoned a ((a.ring 3 m 2).addr 0) 64 && decide (readMem a ((a.ring 3 m 2).addr 0) 64 = b) && (dOf b).own && decide (descBad a 3 m (dOf b) = 0)
    && decide ((dOf b).kind = kind) && decide (isHost (dOf b).src = false ∧ isHost (dOf b).dst = false)
    && decide ((descSpans a (dOf b)).flatMap (fun e => snoopedLines a e.1 e.2) = [])

/-- `MoverDescriptors`: a descriptor of each KIND that may run, with the sides that its clause asks for. -/
theorem test_moverDescriptors :
    descGood 0 0 dCopy = true ∧ descGood 0 1 dAdd = true ∧ descGood 1 2 dStream = true ∧ descGood 0 3 dAtomic = true ∧ descGood 0 4 dPut = true
    ∧ descGood 0 5 dUpdate = true
    ∧ ([dCopy, dAdd].all fun b => hostSideOk (wDesc 0 b []) 3 (dOf b) && !isRemote (wDesc 0 b []) (dOf b).src && !isRemote (wDesc 0 b []) (dOf b).dst) = true
    ∧ isLocal (wDesc 0 dAtomic []) (dOf dAtomic).dst = true := by decide +kernel

/-- `MoverDescriptors`: an idle core, nothing released, a poisoned descriptor, and one not owned, of KIND 6 and of LEN 63 (Table 12-13). -/
theorem test_moverFaults :
    (wCore.core 4).mode ≠ .running ∧ (wCore.ring 3 0 2).nextStart = none
    ∧ (let a := wDesc 0 dCopy [0x5000000000 / 64]
       (a.ring 3 0 2).nextStart = some 0 ∧ isPoisoned a ((a.ring 3 0 2).addr 0) 64 = true)
    ∧ ([(descBytes [], 7), (descBytes [(0, 4, 0x61)], 1), (placeAt dCopy 0x18 (leBytes 4 63), 2)].all fun e =>
        decide (descBad (wDesc 0 e.1 []) 3 0 (dOf e.1) = e.2 ∧ ((dOf e.1).own = false ∨ 6 ≤ (dOf e.1).kind ∨ (dOf e.1).kind = 0))) = true := by decide +kernel

/-- A COPY of two pieces, at a stride of one, moves both (R295, R297). -/
theorem test_copy_moves :
    (let t := nextOf (exec (.copy 3 0 2) (writeMem (writeMem (wDesc 0 dCopy []) 0x6000000000 [1, 2] false) 0x600000007F [3] false))
     readMem t 0x6100000000 3 = [1, 2, 0] ∧ readMem t 0x610000007F 2 = [3, 0]) := by
  decide +kernel

/-- `MoverEvents`: a descriptor whose data is done and that gives no signal, and an empty ring. -/
theorem test_moverEvents :
    (let a := nextOf (exec (.copy 3 0 2) (wDesc 0 dCopy []))
     advance a = a ∧ (match (a.ring 3 0 2).live with
      | d :: _ => d.dataDone && !d.signal
      | [] => false) = true)
    ∧ (wCore.ring 3 0 2).live = [] := by decide +kernel

/-! ### Pegs -/

/-- A signal of 5 to VPID 7 by core 3 that waits at the unit of core 1, and one of a VPID freed meanwhile. -/
def wReq (v : Nat) (op : PegOp) : State := { wCore with pegReqs := [{ core := 3, ctx := 1, vpid := v, phys := 2048, op := op }] }

/-- `PegApply`: no operation for core 0; a signal, a preset and a wait on a mapped peg; a VPID that is mapped no more; and the arrivals of a
barrier peg, the last among them. -/
theorem test_pegApply :
    (advance wCore = wCore ∧ (wCore.pegReqs.find? fun r => r.phys / 2048 == (0 : CoreId).val) = none)
    ∧ ([PegOp.signal 5, .preset 9, .wait 5 true].all fun op => decide (advance (wReq 7 op) = wReq 7 op
        ∧ ((wReq 7 op).pegReqs.find? fun r => r.phys / 2048 == (1 : CoreId).val).isSome = true ∧ vpidOk (wReq 7 op) 1 7 = some 2048)) = true
    ∧ (advance (wReq 8 (.signal 5)) = wReq 8 (.signal 5) ∧ vpidOk (wReq 8 (.signal 5)) 1 8 ≠ some 2048)
    ∧ (let p : Peg := { mode := 3, parties := 3, arrived := 2, phases := 2 ^ 31 - 1 }
       p.mode = 3 ∧ p.arrived + 0 < p.parties ∧ p.arrived + 1 = p.parties ∧ (p.signal 1).phases = 0) := by decide +kernel

/-- A signal reaches its peg (R244, R245). -/
theorem test_signal_applies : ((nextOf (exec (.pegApply 1) (wReq 7 (.signal 5)))).peg 2048).value = 5 := by decide +kernel

/-- `CounterPegs`: a sum at the greatest value and one beyond it; a peg with OVERFLOW set; and a canonical table of pegs. -/
theorem test_counterPegs :
    (let p : Peg := { mode := 1, value := 0xFFFFFFFE }
     p.value + 1 ≤ 0xFFFFFFFF ∧ 0xFFFFFFFF < p.value + 2 ∧ (p.signal 1).value = 0xFFFFFFFF ∧ (p.signal 1).overflow = false
      ∧ (p.signal 2).value = 0xFFFFFFFF ∧ (p.signal 2).overflow = true)
    ∧ (let s : State := { wOn with pegs := [(5, { mode := 1, overflow := true })] }
       (s.peg 5).mode = 1 ∧ (s.peg 5).overflow = true ∧ tabWf {} s.pegs = true) := by decide +kernel

/-- `FlagPegs`: a first signal of 1, a second, and one of 2; a wait that is met and one that is not. -/
theorem test_flagPegs :
    (let p : Peg := { mode := 2 }
     p.mode = 2 ∧ (p.signal 1).doubled = false ∧ ((p.signal 1).signal 1).doubled = true ∧ (p.signal 2).doubled = true
      ∧ p.meets { who := .core 3 } = false ∧ (p.signal 1).meets { who := .core 3, k := 9 } = true)
    ∧ (let s : State := { wOn with pegs := [(5, { mode := 2, doubled := true })] }
       (s.peg 5).mode = 2 ∧ (s.peg 5).doubled = true ∧ tabWf {} s.pegs = true) := by decide +kernel

def wStopping : State := wOn.setCore 3 { mode := .stopping, ctx := 1, reqAt := some 0 }
def wSaving : State := { wOn with now := 9, cores := [(3, { mode := .saving, ctx := 1, pointAt := 9 })] }

/-- A unit of context 2 whose core 3 is saved, or is being restored. -/
def wSavedUnit (st : Nat) (mode : CoreMode) : State :=
  { wCtx with
    plotsz := 0, cores := [(3, { mode := mode, ctx := if mode = .idle then 0 else 1 })]
    ctxs := wCtx.ctxs.map fun e => if e.1 = 1 then (1, { e.2 with cores := [0, 1, 2, 3] }) else e
    saved := [{ ctx := 1, core := 3, plotsz := 0, unit := 9 }], units := [{ id := 9, ctx := 1, st := st, cores := [3] }], nextUnit := 10 }

/-- `Preemption`: a stopping core at rest, a saving core, a restoring core with its saved run, and a saved unit whose core is free. -/
theorem test_preemption :
    (powered wStopping = true ∧ advance wStopping = wStopping ∧ (wStopping.core 3).mode = .stopping ∧ atRest wStopping 3 = true ∧ unitOn wStopping 3 = none)
    ∧ (advance wSaving = wSaving ∧ (wSaving.core 3).mode = .saving)
    ∧ (let a := advance (wSavedUnit 5 .restoring)
       advance a = a ∧ (a.core 3).mode = .restoring
        ∧ (a.saved.find? fun v => v.core == 3 && v.ctx == (a.core 3).ctx && (unitOn a 3).any fun u => u.id == v.unit).isSome = true)
    ∧ (let a := advance (wSavedUnit 4 .idle)
       advance a = a ∧ powered a = true ∧ (a.units.map fun u => (u.id, u.st)) = [(9, 4)] ∧ (a.saved.map fun v => (v.unit, v.plotsz)) = [(9, a.plotsz)]
        ∧ coreFree a [] 1 3 = true) := by decide +kernel

/-! ### Trays -/

/-- A work tray 64, a log tray 65 and a telemetry tray 66 of context 1, whose program runs on core 3. -/
def wTrays (t : Tray) : State :=
  { wCore with trays := [(64, { t with kind := 1, ctx := 1, maxpkt := 4, mib := 1, ringWords := 8 })
                         , (65, { kind := 2, ctx := 1, maxpkt := 1, mib := 1, ringWords := 2, base := 0x100000, packets := t.packets.take 1 })] }
def wSlot : Slot := { enabled := true, pktAvail := 4, wordAvail := 8, pktLimit := 4, wordLimit := 8, node := 6 }
def wWork : State := wTrays { slots := [(0, wSlot)] }
def wEntry (pseq length : Nat) : TrayEntry := { pseq := pseq, length := length }
def wDup : State := wTrays { slots := [(0, { wSlot with committed := true, last := 5 })] }
def wNoCredit : State := wTrays { slots := [(0, { wSlot with wordAvail := 1 })] }
def wFull : State := wWork.modFaults fun f => { f with jrn := [{ type := 0x11, ctx := 1, tray := 64, seq := 1, idx := 1 }], jnext := 950272 - 4096, jpaused := true }

/-- `TrayOpens`: an OPEN that takes the last credit; a log tray with room, and one that must drop; a refused check; a full journal; a duplicate;
and a slot without credit. -/
theorem test_trayOpens :
    (powered wWork = true ∧ advance wWork = wWork ∧ openCheck wWork (wWork.tray 64) (wEntry 32 7) 6 false = stOK ∧ jfull wWork = false
      ∧ pseqClass ((wWork.tray 64).slot 0) 32 = .fresh ∧ (wWork.tray 64).packets.find? (isOpen 0 32) = none ∧ 7 + 1 ≤ ((wWork.tray 64).slot 0).wordAvail
      ∧ 1 ≤ ((wWork.tray 64).slot 0).pktAvail ∧ (wWork.tray 64).kind = 1 ∧ (wWork.tray 64).fmtver = 2)
    ∧ (1 < (wWork.tray 65).kind ∧ openCheck wWork (wWork.tray 65) (wEntry 1 1) 6 false = stOK
      ∧ (let r := logMakeRoom 2 wWork.now 0 (wWork.tray 65)
         r.words + 2 ≤ r.ringWords ∧ r.packets.length < r.maxpkt))
    ∧ (let a := wTrays { slots := [(0, wSlot)], packets := [{ length := 0, pseq := 1 }] }
       advance a = a ∧ openCheck a (a.tray 65) (wEntry 1 1) 6 false = stOK ∧ (logMakeRoom 2 a.now 1 (a.tray 65)).maxpkt ≤ (logMakeRoom 2 a.now 1 (a.tray 65)).packets.length)
    ∧ openCheck wWork (wWork.tray 64) (wEntry 33 0) 6 false = stBADPARAM
    ∧ (powered wFull = true ∧ advance wFull = wFull ∧ jfull wFull = true ∧ wFull.faults.jpaused = true ∧ openCheck wFull (wFull.tray 64) (wEntry 1 0) 6 false = stOK)
    ∧ (advance wDup = wDup ∧ openCheck wDup (wDup.tray 64) (wEntry 5 0) 6 false = stOK ∧ jfull wDup = false ∧ pseqClass ((wDup.tray 64).slot 0) 5 = .dup)
    ∧ (advance wNoCredit = wNoCredit ∧ openCheck wNoCredit (wNoCredit.tray 64) (wEntry 1 1) 6 false = stOK ∧ pseqClass ((wNoCredit.tray 64).slot 0) 1 = .fresh
      ∧ ((wNoCredit.tray 64).slot 0).wordAvail < 1 + 1 ∧ jfull wNoCredit = false) := by decide +kernel

def wPkt : Packet := { pseq := 1, node := 6, crc := (crc32c (word64 3)).toNat }
def wOpened : State := wTrays { slots := [(0, wSlot)], packets := [wPkt], nextWord := 1 }
def wCommitted : State := wTrays { slots := [(0, wSlot)], packets := [{ wPkt with commitOk := true }], nextWord := 1 }

/-- `TrayCommits`: no packet of the COMMIT; an open packet with a good and with a bad payload; no packet due; and one that is due. -/
theorem test_trayCommits :
    ((wWork.tray 64).openOf 0 1 = none)
    ∧ (powered wOpened = true ∧ advance wOpened = wOpened ∧ ((wOpened.tray 64).openOf 0 1).map Packet.commitOk = some false
      ∧ ((wOpened.tray 64).openOf 0 1).map Packet.reply = some .none ∧ commitStatus wPkt (fixLen (word64 3) 64) false false = stOK
      ∧ commitStatus wPkt (fixLen (word64 4) 64) false false = stDIGEST ∧ commitStatus wPkt (fixLen (word64 3) 64) false true = stLINK
      ∧ (wOpened.tray 64).nextCommit = none)
    ∧ (advance wCommitted = wCommitted ∧ ((wCommitted.tray 64).nextCommit).map Packet.reply = some .none) := by decide +kernel

/-- OPEN, COMMIT, COMMIT_POINT and CLAIM bring a packet with SEQ 1 to its reader, with the first word of its payload (R167, R175). -/
theorem test_packet_passes :
    (let s := nextOf (exec (.openPkt 64 { pseq := 1, crc := wPkt.crc } 6 false) wWork)
     let s := nextOf (exec (.commit 64 0 1 (word64 3) false false) s)
     let s := nextOf (exec (.commitPoint 64) s)
     let s := nextOf (exec (.claim 64 (some 3)) s)
     ((s.tray 64).packets.map fun p => (decide (p.st = .claimed), p.seq)) = [(true, 1)] ∧ s.readOut.drop 32 = word64 3) := by decide +kernel

def wReady : State := wTrays { packets := [{ wPkt with st := .ready, seq := 1 }] }
def wClaimed : State := wTrays { packets := [{ wPkt with st := .claimed, seq := 1, claimer := 1 }] }
def wHeld : State := wTrays { packets := [{ wPkt with st := .held, seq := 1 }] }
def wWaits : State := wTrays { readmode := true, waiters := [.prog 3, .prog 3, .prog 3] }

/-- `TrayReading`: a READY packet of each kind of tray; none, in both read modes, with three readers waiting; a claimed packet; a held one. -/
theorem test_trayReading :
    (powered wReady = true ∧ advance wReady = wReady ∧ (wReady.core 3).mode = .running ∧ (wReady.core 3).ctx = (wReady.tray 64).ctx ∧ (wReady.tray 64).kind = 1
      ∧ (wReady.tray 64).head.map Packet.bad = some false ∧ (wReady.tray 65).ctx = 1 ∧ 2 ≤ (wReady.tray 65).kind ∧ (wReady.tray 65).head.map Packet.bad = some false)
    ∧ ((wWork.tray 64).head = none ∧ (wWork.tray 64).readmode = false ∧ (wWork.tray 65).head = none ∧ (wWork.tray 65).readmode = false)
    ∧ (advance wWaits = wWaits ∧ (wWaits.tray 64).head = none ∧ (wWaits.tray 64).readmode = true ∧ (wWaits.tray 64).waiters.length < 4)
    ∧ (let a := wReady.setTray 65 { kind := 3, ctx := 1, readmode := true }
       advance a = a ∧ (a.tray 65).head = none ∧ (a.tray 65).readmode = true ∧ 2 ≤ (a.tray 65).kind)
    ∧ (advance wClaimed = wClaimed ∧ ((wClaimed.tray 64).find .claimed 1).isSome = true ∧ inUnit wClaimed 64 1 = false ∧ (wClaimed.ctx 1).sweep = none)
    ∧ (advance wHeld = wHeld ∧ ((wHeld.tray 65).find .held 1).isSome = true) := by decide +kernel

/-- `TrayTimes`: an open packet not due; a quarter of a slot's packets to return, to a node and to this host; and the credit of a packet. -/
theorem test_trayTimes :
    (((wOpened.tray 64).openOf 0 1).map (wOpened.tray 64).eligible = some false)
    ∧ ([6, 0xFFFE].all fun node =>
        let a := wTrays { slots := [(0, { wSlot with node := node, retPkts := 1, retWords := 1 })] }
        decide (powered a = true ∧ advance a = a ∧ (a.tray 64).kind = 1 ∧ 0 < ((a.tray 64).slot 0).retPkts ∧ creditDue a ((a.tray 64).slot 0) = true
          ∧ (a.tray 64).fmtver = 2 ∧ ((a.tray 64).slot 0).node = node ∧ ((a.tray 64).slot 0).node ≠ a.salt.node)) = true := by decide +kernel

/-- OPEN_TIMEOUT takes the packet back and counts it (R171). -/
theorem test_openTimeout : ((nextOf (exec (.openTimeout 64 0 1) wOpened)).tray 64).rewound = 1 ∧ ((nextOf (exec (.openTimeout 64 0 1) wOpened)).tray 64).packets = [] := by
  decide +kernel

/-! ### The fabric -/

/-- Node 5 with ports 2 and 3 up, a window over one page of memory, and a transit route to node 9 by port 3. -/
def wNode : State :=
  let w : Window := { base := 0x1000, size := 1, read := true, write := true, atom := true, anyctx := true, valid := true, nodeHi := 9 }
  let x : Port := { state := 2, version := 2 }
  { wCtx with
    ports := [(2, x), (3, x)]
    salt := { wCtx.salt with node := 5, windows := [(0, w)], routes := [(6, { port := 2, valid := true }), (9, { port := 3, valid := true, transitOk := true })] } }
def mRd : Msg := { mtype := 1, dst := 5, src := 6, addr := 0x1FC0, tag := 7 }
def mWr : Msg := { mtype := 2, dst := 5, src := 6, addr := 0x1FC0, data := true, words := word64 9 }
def mAtom : Msg := { mtype := 3, dst := 5, src := 6, addr := 0x1FF8, arg := 3 }
def wNodeBad : State := { wNode with poison := [0x1FF8 / 64] }
def wNodeSnoop : State := wNode.modCxl fun x => { x with hdmCommitted := true, snoop := [0x1FC0 / 64] }

/-- `FabricAccess`: the last line of a window, one line beyond it, a malformed access, a poisoned word, and a line that the host holds. -/
theorem test_fabricAccess :
    (powered wNode = true ∧ advance wNode = wNode ∧ ([mRd, mWr, mAtom].all fun m => decide (m.mtype ≤ 3 ∧ arrival wNode 2 m = .mine ∧ accessBad m = false
      ∧ windowOk wNode 2 m = true ∧ snoopedLines wNode m.addr (msgSpan m) = [])) = true)
    ∧ (msgOf (.rd 2 mRd) = some (2, mRd) ∧ msgOf (.wr 2 mWr) = some (2, mWr) ∧ msgOf (.atomic 2 mAtom) = some (2, mAtom))
    ∧ (accessBad { mRd with addr := 0x2000 } = false ∧ windowOk wNode 2 { mRd with addr := 0x2000 } = false ∧ arrival wNode 2 { mRd with addr := 0x2000 } = .mine)
    ∧ (accessBad { mRd with addr := 0x1FC1 } = true ∧ isPoisoned wNode 0x1FF8 8 = false)
    ∧ (advance wNodeBad = wNodeBad ∧ isPoisoned wNodeBad 0x1FF8 8 = true ∧ windowOk wNodeBad 2 mAtom = true)
    ∧ (advance wNodeSnoop = wNodeSnoop ∧ windowOk wNodeSnoop 2 mRd = true ∧ snoopedLines wNodeSnoop mRd.addr (msgSpan mRd) ≠ []) := by decide +kernel

/-- WR stores its word, and ATOMIC of AOP 0 adds ARG to it (R280, Table 12-7). -/
theorem test_access_values :
    readMem (nextOf (exec (.wr 2 mWr) wNode)) 0x1FC0 64 = word64 9
    ∧ readLE (nextOf (exec (.atomic 2 mAtom) (writeLE wNode 0x1FF8 8 4))) 0x1FF8 8 = 7 := by decide +kernel

def mSig : Msg := { mtype := 4, dst := 5, src := 6, addr := 7, arg := 2, ctx := 1 }
def mPut : Msg := { mtype := 5, dst := 5, src := 6, addr := 64, data := true, len := 1, words := List.replicate 128 0 }
def mUpd : Msg := { mtype := 6, dst := 5, src := 6, data := true, len := 64, words := List.replicate (64 * 65) 0 }
def mCred : Msg := { mtype := 7, dst := 5, src := 6, addr := 32767, arg := 2 ^ 45 - 1 }
def wNodeHalt : State := wNode.setRake 2 { halted := true }

/-- `FabricRequests`: a SIGNAL to the last VPID and one beyond it; a TRAY_PUT of one word; an UPDATE at a rake with room and at a halted one;
and a CREDIT at the ends of its fields. -/
theorem test_fabricRequests :
    ([mSig, mPut, mUpd, mCred].all fun m => decide (arrival wNode 2 m = .mine)) = true
    ∧ (signalBad { mSig with addr := 4095 } = false ∧ signalBad { mSig with addr := 4096 } = true)
    ∧ (mPut.addr < 32768 ∧ mPut.barrier = false ∧ mPut.aop = 0 ∧ mPut.rsvd = false ∧ mPut.words.length = 64 * ((parseEntry (mPut.words.take 32)).length + 2))
    ∧ (updateBad mUpd = false ∧ rakeRoom wNode 2 = true ∧ advance wNodeHalt = wNodeHalt ∧ rakeRoom wNodeHalt 2 = false ∧ arrival wNodeHalt 2 mUpd = .mine)
    ∧ (mCred.rsvd = false ∧ mCred.addr < 32768 ∧ mCred.arg < 2 ^ 45) := by decide +kernel

def outRd (len got : Nat) : OutReq := { port := 2, tag := 7, msg := { mtype := 1, dst := 6, len := len }, src := .mover 3 0 2 0 0x2000 0, got := got }
def wOut (o : OutReq) : State := wNode.modSalt fun x => { x with outs := [o] }
def mData (st : Nat) : Msg := { mtype := 0x21, dst := 5, src := 6, tag := 7, status := st, data := true, words := word64 1 }
def outAtom : OutReq := { port := 2, tag := 7, msg := { mtype := 3, dst := 6 }, src := .mover 3 0 2 0 (gAt 5 0x2000) 0 }
def wOutAtom : State := { (wOut outAtom) with cores := (wDesc 0 dCopy []).cores.map fun e => (e.1, { e.2 with
  run := e.2.run.setMov 0 { e.2.run.mov0 with rings := modAt e.2.run.mov0.rings 2 fun r => { r with live := [{ idx := 0, bytes := dCopy, out := 1 }], started := 1 } } }) }

/-- `FabricAnswers`: a CODE of each operation and another; a late response; each end of a request, with the last and with a middle part of a read. -/
theorem test_fabricAnswers :
    (2 ≤ (wNode.port 2).state ∧ (0x11 : Nat) % 256 ∉ [0x01, 0x02, 0x03, 0x04, 0x10])
    ∧ (msgOf (.rddata 2 (mData stOK)) = some (2, mData stOK) ∧ 0x21 ≤ (mData stOK).mtype ∧ arrival wNode 2 (mData stOK) = .mine ∧ outOf wNode 2 (mData stOK) = none)
    ∧ ([outRd 0 0, outRd 2 1].all fun o => decide (powered (wOut o) = true ∧ advance (wOut o) = wOut o ∧ arrival (wOut o) 2 (mData stOK) = .mine
        ∧ outOf (wOut o) 2 (mData stOK) = some o)) = true
    ∧ ((outRd 0 0).msg.len + 1 ≤ (outRd 0 0).got + ((mData stOK).len + 1) ∧ (outRd 2 1).got + ((mData stOK).len + 1) < (outRd 2 1).msg.len + 1)
    ∧ (outOf (wOut (outRd 0 0)) 2 (mData stLINK) = some (outRd 0 0) ∧ stLINK ≠ stOK ∧ stLINK ≠ stUNCORR)
    ∧ (let o : OutReq := { port := 2, tag := 7, msg := { mtype := 2, dst := 6 } }
       advance (wOut o) = wOut o ∧ outOf (wOut o) 2 { (mData stOK) with mtype := 0x22 } = some o ∧ (0x22 : Nat) ∉ [0x21, 0x23])
    ∧ (advance wOutAtom = wOutAtom ∧ outOf wOutAtom 2 { (mData stOK) with mtype := 0x23 } = some outAtom ∧ ((wOutAtom.ring 3 0 2).desc 0).isSome = true) := by decide +kernel

def wHolds (busy : Bool) : State := wNode.modSalt fun x => { x with heldNodes := [6], outs := if busy then [outRd 0 0] else [] }

/-- `FabricForward`: a message by a transit route, one with none, and one on a port that is down; a TAG in use and one not; a held node with
and without a request outstanding. -/
theorem test_fabricForward :
    (arrival wNode 2 { mRd with dst := 9 } = .forwarded 3 ∧ arrival wNode 2 { mRd with dst := 10 } = .refused ∧ isRequest mRd.mtype = true
      ∧ arrival wNode 2 { (mData stOK) with dst := 10 } = .refused ∧ isRequest (mData stOK).mtype = false ∧ arrival wNode 4 mRd = .dropped)
    ∧ ((wNode.salt.outs.find? fun o => o.port == 2 && o.tag == 7) = none ∧ ((wOut (outRd 0 0)).salt.outs.find? fun o => o.port == 2 && o.tag == 7) = some (outRd 0 0))
    ∧ (advance (wHolds false) = wHolds false ∧ (wHolds false).salt.heldNodes.contains 6 = true ∧ (wHolds false).salt.outs = [])
    ∧ (advance (wHolds true) = wHolds true ∧ ((wHolds true).salt.outs.map fun o => o.msg.dst) = [6] ∧ wNode.salt.heldNodes.contains 6 = false) := by decide +kernel

def wEncrypted (age : Nat) : State := wNode.modPort 2 fun x => { x with encrypt := true, groupN := 4, groupSeq := 1023, groupAge := age }

/-- `LinkFrames`: frames at the port that is up, in and out of sequence; a group whose tag is due, at 64 frames; and a port that is down. -/
theorem test_linkFrames :
    (2 ≤ (wNode.port 2).state ∧ (wNode.port 2).rxSeq = 0 ∧ (wNode.port 2).encrypt = false ∧ (1 : Nat) ≠ (wNode.port 2).rxSeq)
    ∧ (powered (wEncrypted 64) = true ∧ advance (wEncrypted 64) = wEncrypted 64 ∧ ((wEncrypted 64).port 2).encrypt = true ∧ ((wEncrypted 64).port 2).groupN ≠ 0
      ∧ ((wEncrypted 64).port 2).groupSeq = 1023 ∧ 64 ≤ ((wEncrypted 64).port 2).groupAge)
    ∧ (wNode.port 4).state < 2 := by decide +kernel

def goodTrain : TrainResult := { peer := { versions := 3, node := 6 } }
def wWorn : State := wNode.modPort 2 fun x => { x with txq := [{ body := .retrain, replays := 4 }] }

/-- `LinkTraining`: a port that is up, one that is not, one whose frame was replayed four times, and a training on all lanes. -/
theorem test_linkTraining :
    (2 ≤ (wNode.port 2).state ∧ (wNode.port 4).state < 2 ∧ mustRetrain wNode (wNode.port 2) = false ∧ (wNode.port 2).state ≠ 0)
    ∧ (advance wWorn = wWorn ∧ mustRetrain wWorn (wWorn.port 2) = true)
    ∧ (lanesUsed goodTrain.lanesOk = 15 ∧ goodTrain.locked = true ∧ goodTrain.peer.versions = 3 ∧ wNode.ident.require.testBit 4 = false) := by decide +kernel

/-- The lanes that R271 allows: all four, the first two, the last two, and no others. -/
theorem test_lanes : ([15, 3, 12, 7, 11, 14, 5, 1, 0].map lanesUsed) = [15, 3, 12, 3, 3, 12, 0, 0, 0] := by decide +kernel

/-! ### Rakes -/

/-- Every lane of rake 0 is active, and E1 lane 0 holds 2.0. -/
def wRake : State := wOn.setRake 0 { active := [0], e := [(256, 0x40000000)] }

/-- `RakeOperation`: a row; a NaN against a number; zeros; and numbers of both signs. -/
theorem test_rakeOperation :
    (powered wRake = true ∧ advance wRake = wRake ∧ rakeRow (.rkAdd 0 5 1 1 0) = some (0, 0x02, 5, 1, 1, 0))
    ∧ (fvNan (ofF32 0x7FC00000) = true ∧ fvNan (ofF32 0x3F800000) = false ∧ ofF32 0x3F800000 ≠ .inf false ∧ ofF32 0x3F800000 ≠ .inf true)
    ∧ (fvZero (ofF32 0x80000000) = true ∧ ofF32 0xBF800000 = .fin true 8388608 (-23) ∧ ofF32 0x3F800000 = .fin false 8388608 (-23)) := by decide +kernel

/-- E5 ← E1 + E1 (R231, Table 10-4). -/
theorem test_rake_adds : tget 0 ((nextOf (exec (.rkAdd 0 5 1 1 0) wRake)).rake 0).e (5 * 256) = 0x40800000 := by decide +kernel

/-- A rake phase of context 1 at step 7; group 0 enabled with its expected count; a block of no gradients for the beds at 0x10000. `h` is the header
of bed 0 and `pre` makes the group preconditioned. -/
def wPhase (h : Nat) (pre : Bool) (poison : List Nat) : State :=
  let s : State := { wCtx with
    image := some { groupBase := 0x100000, groupCount := 1 }
    rphase := { active := true, ctx := 1, step := 7, want := [0x10000] }
    rakes := [(0, { queue := [{ step := 7, ctx := 1, bed := 0x10000, own := 0x20000, pegOk := true }]
                    gram := if pre then [{ group := 1 }, { group := 2 }, { group := 3 }, { group := 4 }] else [] })] }
  let s1 := writeLE (writeLE s 0x100000 4 (1 + if pre then 8 else 0)) 0x100008 4 7
  { writeLE s1 (0x10000 + 0x0C00) 16 h with poison := poison }

/-- A header of group 0, valid, of a step. -/
def bedOf (step : Nat) : Nat := 2 ^ 16 + step * 2 ^ 32

/-- `BedPassRuns`: no block that may be taken; a poisoned one; one with a bed already updated; one that finds no Gram slot; and one that runs. -/
theorem test_bedPassRuns :
    readyBlk wCtx 0 = none
    ∧ ([wPhase 0 false [0x20000 / 64], wPhase (bedOf 8) false [], wPhase (bedOf 7) true [], wPhase (bedOf 7) false [], wPhase (bedOf 6) false []].all fun a =>
        powered a && decide (advance a = a) && (readyBlk a 0).isSome) = true
    ∧ isPoisoned (wPhase 0 false [0x20000 / 64]) 0x20000 4096 = true
    ∧ (let a := wPhase (bedOf 8) false []
       isPoisoned a 0x20000 4096 = false ∧ isPoisoned a 0x10C00 (16 * 0x340) = false ∧ bedFate a 7 (bedHdr a 0x10000 0) = .dup)
    ∧ (let a := wPhase (bedOf 7) true []
       bedFate a 7 (bedHdr a 0x10000 0) = .update ∧ bedFate a 7 (bedHdr a 0x10000 1) = .skip ∧ gramRoom (a.rake 0) (gramKeys a 0x10000 [(0, bedHdr a 0x10000 0)]) = false)
    ∧ (let a := wPhase (bedOf 7) false []
       bedFate a 7 (bedHdr a 0x10000 0) = .update ∧ gramRoom (a.rake 0) (gramKeys a 0x10000 [(0, bedHdr a 0x10000 0)]) = true)
    ∧ bedFate (wPhase (bedOf 6) false []) 7 (bedHdr (wPhase (bedOf 6) false []) 0x10000 0) = .mismatch := by decide +kernel

/-- `BedPassRuns`, the checks of a bed: each fate, at the steps next to the expected one, and the start of a phase. -/
theorem test_bedFate :
    (let a := wPhase 0 false []
     let b : State := { a with rphase := { a.rphase with rejected := [0] } }
     bedFate a 7 { (bedHdr a 0x10000 0) with valid := true, step := 7 } = .update ∧ bedFate a 7 { (bedHdr a 0x10000 0) with valid := true, step := 8 } = .dup
      ∧ bedFate a 7 { (bedHdr a 0x10000 0) with valid := true, step := 9 } = .mismatch ∧ bedFate a 7 { (bedHdr a 0x10000 0) with valid := true, frozen := true } = .skip
      ∧ bedFate b 7 { (bedHdr b 0x10000 0) with valid := true, step := 7 } = .rejected ∧ groupFrozen a 0 = false ∧ groupFrozen a 1 = true)
    ∧ (let s := (wPhase 0 false []).modCtx 1 fun x => { x with sweep := some { step := 8 } }
       (s.ctx 1).sweep.map Sweep.step = some 8 ∧ (phaseBegin s 1).rphase.rejected = [0]) := by decide +kernel

/-- Rake 0 with a refresh due of block 0 of group 0. -/
def wRefresh (halted : Bool) (poison : List Nat) : State :=
  { wPhase 0 true poison with rakes := [(0, { halted := halted, refresh := [(0, 0, 7)] })] }
def wLate : State := { wPhase 0 false [] with rphase := { (wPhase 0 false []).rphase with resolved := [0x10000] }, rakes := [] }
def wMissing : State := { wPhase 0 false [] with rakes := [] }

/-- `RakePhase`: no refresh due; one on a halted rake, and one with its statistics good or poisoned; a phase that may end and one that misses a
bed. -/
theorem test_rakePhase :
    (powered wCtx = true ∧ advance wCtx = wCtx ∧ (wCtx.rake 0).refresh = [] ∧ phaseDone wCtx = false ∧ wCtx.svc.running = [] ∧ wCtx.rphase.active = false)
    ∧ (advance (wRefresh true []) = wRefresh true [] ∧ ((wRefresh true []).rake 0).refresh = [(0, 0, 7)] ∧ ((wRefresh true []).rake 0).halted = true)
    ∧ (advance (wRefresh false []) = wRefresh false [] ∧ ((wRefresh false []).rake 0).halted = false ∧ ((wRefresh false []).rake 0).queue = []
      ∧ isPoisoned (wRefresh false []) (statAddr (groupRec (wRefresh false []) 0) 0) 65536 = false
      ∧ isPoisoned (wRefresh false []) (rootAddr (groupRec (wRefresh false []) 0) 0) 65536 = false)
    ∧ (advance (wRefresh false [0]) = wRefresh false [0] ∧ isPoisoned (wRefresh false [0]) (statAddr (groupRec (wRefresh false [0]) 0) 0) 65536 = true)
    ∧ (advance wLate = wLate ∧ phaseDone wLate = true)
    ∧ (advance wMissing = wMissing ∧ wMissing.rphase.active = true ∧ missingBeds wMissing = [0x10000]) := by decide +kernel

/-! ### The schedule, heat and faults -/

def wDead (inP : Bool) (period : Nat) : State :=
  wOn.setCtx 1 { live := true, deadline := true, period := period, inPeriod := inP, pstart := 5, tend := 1005 }
def wFence (closed : Bool) : State := wOn.setCtx 1 { live := true, fenceClosed := closed }
def wRecon : State := { wCtx with plotWait := true, plotNext := 1, plotsz := 1 }
def wSlice : State :=
  { wSavedUnit 2 .running with saved := [], image := some { sweeps := [{ plotsz := 0 }] } }

/-- `ScheduleTimes`: a closed and an open fence; a deadline context outside and inside a period; a best-effort unit that runs, and none. -/
theorem test_scheduleTimes :
    (powered (wFence true) = true ∧ advance (wFence true) = wFence true ∧ ((wFence true).ctx 1).fenceClosed = true ∧ ((wFence true).ctx 1).sweep = none
      ∧ (wFence true).rphase.active = false ∧ ((wFence false).ctx 1).fenceClosed = false)
    ∧ (advance (wDead false 1000) = wDead false 1000 ∧ ((wDead false 1000).ctx 1).live = true ∧ ((wDead false 1000).ctx 1).faulted = false
      ∧ ((wDead false 1000).ctx 1).deadline = true ∧ ((wDead false 1000).ctx 1).inPeriod = false ∧ 0 < ((wDead false 1000).ctx 1).period)
    ∧ (let a := advance (wDead true 1000)
       advance a = a ∧ (a.ctx 1).live = true ∧ (a.ctx 1).faulted = false ∧ (a.ctx 1).deadline = true ∧ (a.ctx 1).inPeriod = true)
    ∧ (let a := advance wSlice
       advance a = a ∧ ((a.units.find? fun u => u.id == 9 && u.st == 2).map (isDeadline a)) = some false)
    ∧ (wCtx.units.find? fun u => u.id == 9 && u.st == 2) = none := by decide +kernel

/-- `ScheduleTimes`, a plot configuration that waits: what it asks of the state before the step. -/
theorem test_plotReconfig :
    (∃ a, advance a = a ∧ powered a = true ∧ a.plotWait = true ∧ streaming a = false ∧ a.saved = [] ∧ (∀ e ∈ a.ctxs, e.2.inPeriod = false) ∧ a.units = []) :=
  ⟨wRecon, by decide +kernel⟩

def wFailing : State := wOn.setCore 3 { failAt := some 5, tempFail := true }
def wHalted : State :=
  { wSavedUnit 2 .running with
    saved := [], image := some { sweeps := [{ plotsz := 0 }] }, units := [{ id := 9, ctx := 1, st := 2, cores := [3], waitRing := true }]
    cores := [(3, { mode := .running, ctx := 1, run := ({ progPc := 0x4000000000, ended := true } : Run).setMov 0 { rings := [{}, {}
      , { bound := true, base := 0x5000000000, log2n := 4, halted := true, haltAt := some 5, failed := [0], released := 1 }, {}] } })] }

/-- `CoreFaults`: no test that runs; a fenced core; a failing sensor; a unit that waits for a neighbour on a halted ring. -/
theorem test_coreFaults :
    (wOn.svc.running = [] ∧ (wOn.core 3).failAt = none) ∧ ((wOn.setCore 3 { mode := .fenced }).core 3).mode = .fenced
    ∧ (powered wFailing = true ∧ advance wFailing = wFailing ∧ (wFailing.core 3).failAt = some 5)
    ∧ (let a := advance wHalted
       advance a = a ∧ (a.ring 3 0 2).haltAt = some 5 ∧ (a.ring 3 0 2).failed = [0] ∧ (a.ring 3 0 2).halted = true ∧ (a.ring 3 0 2).live = []
        ∧ ((a.units.find? fun u => u.id == 9 && u.waitRing).bind (firstHalt a)) = some 5)
    ∧ (wCtx.units.find? fun u => u.id == 9 && u.waitRing) = none := by decide +kernel

/-- The states of Table 15-2 at and next to their bounds, for a ceiling of 100.0 °C and a limit of 1000 W. -/
theorem test_heat_states :
    ([(1000, 0), (999, 1050), (999, 1051), (951, 0), (950, 980), (950, 981), (851, 900), (850, 900), (850, 901)].map fun e => heatState e.1 100 e.2 1000)
      = [3, 2, 3, 2, 1, 2, 1, 0, 1] := by decide +kernel

/-- `HeatAndVoltage`: every part that is on; a tick below and at the trip; a calibration in its range and at its upper bound (R374: 3 W and
0.75 W measured over 1 W modelled); and a ball of the centre and of a ring. -/
theorem test_heatAndVoltage :
    powered wOn = true ∧ advance wOn = wOn ∧ (nextOf (exec (.currentRead 0x201 true false) wOn)).trellis.imeas = 0x201
    ∧ (calOf { ticks := [{ rail := 10000 }], vmeas := 750, amps := [4] } = 0x200 ∧ calOf { ticks := [{ rail := 10000 }], vmeas := 750, amps := [1] } = 192)
    ∧ ((∀ e ∈ ({ temps := [(0, 1149)] } : TickIn).temps, e.2 < 1150) ∧ ∃ e ∈ ({ temps := [(0, 1150)] } : TickIn).temps, 1150 ≤ e.2)
    ∧ (ballAt 78 21 = .vss ∧ ballAt 78 22 = .vddCore ∧ ballAt 50 49 = .signal "VDD_CORE_SENSE" ∧ ballRing 9 9 = true ∧ ballAt 10 40 = .vddhSer) := by decide +kernel

/-! ### Commands of the rings -/

/-- What `Starts` says of a row, found from the state: the ring's context, the command at its start, and the block at its start. -/
def rowStart (i : Instr) (s : State) : Option (Nat × Cmd × State) := match cmdRow i with
  | some (x, r) =>
    if powered s && decide (advance s = s) && readsRing s x && ringRoom (s.ctx x) r.hdr.nparam && (headUnknown (s.ctx x)).isNone && decide ((s.ctx x).cmds = [])
        && decide ((s.ctx x).badOps = []) && decide (headerStatus s x r = stOK) && !periodBad (s.ctx x) r && !sweepHeld (s.ctx x) r
      then some (x, startedCmd s x r, startPoint s x r) else none
  | none => none

theorem starts_any {i : Instr} {s : State} {p : Nat → Cmd → State → Bool} (h : (rowStart i s).any (fun e => p e.1 e.2.1 e.2.2) = true) :
    ∃ c k t, Starts i s t c k ∧ p c k t = true := by
  unfold rowStart at h
  split at h
  case h_2 => cases h
  rename_i x r hr
  split at h
  case isFalse => cases h
  rename_i hc
  simp only [Bool.and_eq_true, decide_eq_true_eq, Bool.not_eq_true', Option.isNone_iff_eq_none] at hc
  obtain ⟨⟨⟨⟨⟨⟨⟨⟨⟨h1, h2⟩, h3⟩, h4⟩, h5⟩, h6⟩, h7⟩, h8⟩, h9⟩, h10⟩ := hc
  exact ⟨_, _, _, ⟨s, x, r, ⟨h1, h2⟩, hr, rfl, ⟨h3, h4, h5⟩, h6, h7, h8, h9, h10, rfl, rfl⟩, h⟩

/-- Parameter slots from their fields, each a byte offset, a width in bytes and a value. -/
def pars (slots : Nat) (l : List (Nat × Nat × Nat)) : List Byte := l.foldl (fun b e => placeAt b e.1 (leBytes e.2.1 e.2.2)) (List.replicate (64 * slots) 0)

def hdrOf (n : Nat) : CmdHdr := { nparam := n, cmdid := 77 }

/-- An open session of version 0x302 with contexts 0 to 2, whose rings hold commands and whose regions hold all of the host's first 2^30 bytes. -/
def wRing0 : State :=
  let k : Ctx := { live := true, cmdTail := 64, vector := 1, cmplBase := 0x100000, regions := [(0, { base := 0, size := 2 ^ 30, read := true, write := true })]
                   pegQuota := 16, cores := [3] }
  { wOn with
    cxl := { wOn.cxl with up := true, ready := true, memActive := true }, sess := { opened := true, version := 0x302, number := 1, anchored := true }
    ctxs := [(0, k), (1, { k with vpids := [(7, 2048)], cmplBase := 0x200000, memQuota := 2 ^ 20 }), (2, { k with cmplBase := 0x300000 })]
    pegs := [(2048, { mode := 1, owner := 1, vpid := 7 })], salt := { wOn.salt with node := 5 }, start := { wOn.start with dister := true, phase := 0xF } }

/-- The same, with the measurements of its links taken (R462). -/
def wRing : State := advance wRing0

/-- The rows of Table 14-7 with parameters that they take. -/
def ringRows : List Instr :=
  [.sessionOpen 0 (hdrOf 1) (pars 1 [(0, 2, 0x100), (2, 2, 0x302), (4, 1, 1)]), .sessionClose 0 (hdrOf 0) []
    , .ctxCreate 0 (hdrOf 1) (pars 1 [(4, 2, 4096), (6, 2, 2047), (8, 4, 4096), (0x10, 1, 1), (0x28, 1, 16), (0x29, 1, 6)])
    , .ctxDestroy 0 { (hdrOf 0) with target := 2 } [], .ctxConfig 0 { (hdrOf 2) with target := 1 } (pars 2 [(0, 1, 1), (0x40, 1, 7)])
    , .stageLoad 0 (hdrOf 1) (pars 1 [(0, 8, 0xFFFE000000000000), (8, 8, 64)]) {}, .stageDrain 0 (hdrOf 1) (pars 1 [(0, 1, 1)])
    , .trayConfig 1 (hdrOf 2) (pars 2 [(0, 2, 64), (2, 1, 1), (3, 1, 4), (5, 1, 7), (6, 1, 1), (8, 4, 4), (0x0C, 4, 8), (0x10, 4, 100), (0x40, 2, 6), (0x44, 4, 4), (0x48, 4, 8)])
    , .trayRelease 1 (hdrOf 1) (pars 1 [(0, 2, 64)]), .trayFlush 1 (hdrOf 1) (pars 1 [(0, 2, 64)])
    , .sweepRun 1 (hdrOf 2) (pars 2 [(0x14, 4, 1), (0x18, 2, 1), (0x1A, 2, 1), (0x1C, 2, 2), (0x1E, 2, 3)]), .sweepRunStop 1 (hdrOf 2) (pars 2 [])
    , .seqJoin 1 (hdrOf 1) (pars 1 [(0, 4, 9), (4, 4, 64), (8, 4, 64)]), .seqLeave 1 (hdrOf 1) (pars 1 [(0, 4, 9)])
    , .rakeProgram 0 (hdrOf 3) (pars 3 [(0, 1, 15), (1, 1, 1), (0x40, 4, 0x00000001)]), .rakeGroup 0 { (hdrOf 1) with haddr := 0x1000, hlen := 128 } (pars 1 [(4, 4, 1)])
    , .pegAlloc 1 (hdrOf 1) (pars 1 [(1, 1, 1), (2, 2, 4080), (4, 2, 15), (0x0D, 1, 255)]), .pegFree 1 (hdrOf 1) (pars 1 [(2, 2, 7), (4, 2, 1)])
    , .pegReset 1 (hdrOf 1) (pars 1 [(2, 2, 7), (4, 2, 1)]), .pegSignal 1 (hdrOf 1) (pars 1 [(0, 2, 7), (4, 4, 1)])
    , .pegWait 1 (hdrOf 1) (pars 1 [(0, 2, 7), (4, 4, 1), (8, 4, 10000000)]), .pegDump 1 (hdrOf 1) (pars 1 [(0, 2, 4095), (2, 2, 1), (8, 8, 0xFFFE000000000000)])
    , .windowOpen 1 (hdrOf 1) (pars 1 [(0, 8, 0x4000000000), (8, 4, 1), (0x0C, 1, 31), (0x12, 2, 9)]), .windowClose 1 (hdrOf 1) (pars 1 [(0, 2, 16383)])
    , .routeSet 0 { (hdrOf 1) with haddr := 0x1000, hlen := 8 } (pars 1 [(0, 2, 65535), (2, 2, 1)])
    , .harvest 1 (hdrOf 1) (pars 1 [(0, 4, 6), (4, 2, 2), (8, 8, 0xFFFE000000010000)])
    , .restore 1 (hdrOf 1) (pars 1 [(0, 8, 0xFFFE000000010000)]) {}, .powerSet 0 (hdrOf 1) (pars 1 [(0, 2, 1000), (2, 2, 550), (4, 2, 850), (6, 1, 105)])
    , .selftest 0 (hdrOf 1) (pars 1 [(0, 1, 1), (1, 1, 1), (2, 2, 3)]), .debugRead 0 (hdrOf 1) (pars 1 [(0, 8, 0xF0000000), (8, 4, 64)])
    , .attest 0 (hdrOf 1) (pars 1 [(0x28, 4, 200000)])]

/-- Every row of Table 14-7 starts on an otherwise empty ring, and answers a next state. -/
theorem test_rows_start : ringRows.length = 31 ∧ (ringRows.all fun i => (rowStart i wRing).isSome) = true := by decide +kernel

/-- `CommandsTaken`: a turn that has not come; one that has, with a header that fails and with one that passes. -/
theorem test_commandsTaken :
    (let i : Instr := .sessionClose 0 (hdrOf 0) []
     cmdRow i = some (0, { op := 2, hdr := hdrOf 0 }) ∧ readsRing wOn 0 = false ∧ readsRing wRing 0 = true ∧ ringRoom (wRing.ctx 0) 0 = true
      ∧ headUnknown (wRing.ctx 0) = none ∧ (wRing.ctx 0).cmds = [] ∧ (wRing.ctx 0).badOps = [] ∧ headerStatus wRing 0 { op := 2, hdr := hdrOf 1 } = stBADPARAM)
    ∧ (3 ≤ 3 ∧ (recordBytes (wRing.ctx 0) 0 { op := 2, hdr := hdrOf 0 } dDONE stOK 5 9).length = 32) := by decide +kernel

/-- The record of a settled command in host memory: CMDID, OPCODE, DISPOSITION, STATUS (Table 14-3). -/
def settledOk (base : Nat) (i : Instr) (s : State) : Bool :=
  match cmdRow i with
  | some (_, r) =>
    let l := readHost (nextOf (exec i s)) base 32
    decide (leNat (l.take 4) = 77 ∧ leNat ((l.drop 4).take 1) = r.op ∧ leNat ((l.drop 5).take 1) % 4 = dDONE ∧ leNat ((l.drop 8).take 2) = stOK)
  | none => false

/-- The row at a place of `ringRows`. -/
def rowAt (n : Nat) : Instr := ringRows.getD n .hardwareTrip

/-- The stage of context 1: an image with a sweep of each kind and an empty plan of this node, a tray, a sequence that waits, and a window. -/
def wStage0 : State :=
  let d (kind id : Nat) : SweepDesc := { kind := kind, id := id, intray := if kind = 3 then 0 else 64, plotsz := 2 }
  let im : Image := { sweeps := [d 1 0, d 1 1, d 2 2, d 3 3, d 4 4, d 5 5], groupBase := 0x700000000, groupCount := 1, plan := some { nodes := [5] } }
  let w : Window := { owner := 1, valid := true }
  { wRing0 with
    image := some im, trays := [(64, { kind := 1, ctx := 1, maxpkt := 4, mib := 1, ringWords := 8, base := poolStart })]
    salt := { wRing0.salt with windows := [(16383, w)] } }
def wStage : State := advance wStage0
/-- The same while a serving sweep runs, with sequence 9 of it in a state. -/
def wServe (st : Nat) : State :=
  advance (wStage0.modCtx 1 fun x => { x with
    sweep := some { serving := true, fwd := 4, igr := 5, m := 1 }, seqs := if st = 0 then [] else [{ id := 9, st := st, maxlen := 64, locB := if st = 1 then 2 ^ 40 else 0 }]
    kvLocal := 4, kvFar := [(0, 6, 2 ^ 30)] })
def wRakes : State := advance { wStage0 with rphase := { active := true, ctx := 2, step := 1, want := [0x10000] } }

/-- `SessionAndContextCommands`: versions, adoption and the number asked for; the lowest free number; a TARGET that lives; a section of CTX_CONFIG. -/
theorem test_sessionAndContext :
    (rowStart (rowAt 0) wRing).any (fun e => let k := e.2.1
      decide ((versions.filter fun v => k.fld 0 2 ≤ v && v ≤ k.fld 2 2).getLast? = some 0x302 ∧ k.fld 0 2 ≤ k.fld 2 2 ∧ k.fld 4 1 ≤ 3
        ∧ k.fld 4 1 % 2 = 1 ∧ e.2.2.svc.running = []) && !parRsvd k [(0, 5)]) = true
    ∧ (rowStart (rowAt 2) wRing).any (fun e => let k := e.2.1
      decide (k.fld 0 2 = 0 ∧ (countFrom 1 4095).find? (fun i => !(e.2.2.ctx i).live) = some 3 ∧ k.fld 4 2 ≤ 4096 ∧ 1 ≤ k.fld 6 2 ∧ k.fld 6 2 ≤ 2047
        ∧ maskBits 128 (k.fld 0x10 16) = [0] ∧ 2432 ≤ k.fld 8 4 * 1024 ∧ k.fld 0x28 1 = 16 ∧ k.fld 0x29 1 = 6 ∧ k.fld 0x20 8 % 4096 = 0 ∧ k.fld 0x30 8 % 4096 = 0
        ∧ e.2.2.image.isSome = false) && !parRsvd k [(0, 12), (0x10, 26), (0x30, 8)]) = true
    ∧ (rowStart (.ctxCreate 0 (hdrOf 1) (pars 1 [(0, 2, 4095), (6, 2, 1), (8, 4, 4096), (0x10, 1, 1), (0x28, 1, 6), (0x29, 1, 16)])) wStage).any (fun e =>
        decide (e.2.1.fld 0 2 = 4095 ∧ (e.2.2.ctx 4095).live = false ∧ e.2.2.image.isSome = true
          ∧ heapUsed e.2.2 + saveBytes { cores := [0] } ≤ heapSize e.2.2)) = true
    ∧ (rowStart (rowAt 3) wRing).any (fun e => decide (e.2.1.hdr.target = 2 ∧ (e.2.2.ctx 2).live = true)) = true
    ∧ (rowStart (rowAt 4) wRing).any (fun e => let k := e.2.1
      decide (k.hdr.target = 1 ∧ (e.2.2.ctx 1).live = true ∧ (e.2.2.ctx 1).faulted = false ∧ (configSections k.par).contains 5 = false)
        && (configured e.2.2 1 k []).isOk) = true := by decide +kernel

/-- SESSION_OPEN, CTX_CREATE, CTX_DESTROY, CTX_CONFIG, STAGE_LOAD, TRAY_CONFIG, PEG_ALLOC and WINDOW_OPEN settle DONE (Table 14-3). -/
theorem test_rows_settle :
    (([0, 2, 3, 4, 5].all fun n => settledOk 0x100000 (rowAt n) wRing) && ([7, 16, 17, 18, 19, 22].all fun n => settledOk 0x200000 (rowAt n) wRing)) = true := by
  decide +kernel

/-- `StageAndTrayCommands`: an image of the host; both modes of a drain; a tray number at each end of its range with room; an empty tray. -/
theorem test_stageAndTray :
    (rowStart (rowAt 5) wRing).any (fun e => let k := e.2.1; let t := e.2.2
      decide (k.fld 0 8 / 2 ^ 48 = 0xFFFE ∧ inRegion (t.ctx 0) 0 64 false = true ∧ t.cxl.up = true ∧ t.image = none ∧ t.draining = none
        ∧ (spanLines 64 0 64).any t.hostPoison.contains = false ∧ imageFits t {} 16 = true ∧ imageBad {} = false ∧ ({} : Image).digestOk = true)
        && !parRsvd k [(0, 17)]) = true
    ∧ (rowStart (.stageLoad 0 (hdrOf 1) (pars 1 [(0, 8, gAt 5 0x400000000), (8, 8, 64), (0x10, 1, 128)]) { fmtVer := 0x400 }) (advance { wRing0 with hdmBytes := 0xC000000000 - 0x400000000 })).any
        (fun e => decide (e.2.1.fld 0 8 / 2 ^ 48 = e.2.2.salt.node ∧ hdmStart e.2.2 ≤ 0x400000000 ∧ inLp 0x400000000 64 = true
          ∧ isPoisoned e.2.2 0x400000000 64 = false)) = true
    ∧ (rowStart (rowAt 6) wStage).any (fun e => decide (e.2.1.fld 0 1 = 1 ∧ e.2.2.image.isSome = true ∧ e.2.2.draining = none) && !parRsvd e.2.1 [(0, 1)]) = true
    ∧ (rowStart (.stageDrain 0 (hdrOf 1) (pars 1 [])) wStage).any (fun e => decide (e.2.1.fld 0 1 = 0)) = true
    ∧ (rowStart (rowAt 7) wRing).any (fun e => let k := e.2.1; let t := e.2.2; let fmt := bitsAt (k.fld 3 1) 1 2; let sl := configSlots k 2 0 0
      decide (k.fld 0 2 = 64 ∧ (t.tray 64).kind = 0 ∧ k.fld 2 1 = 1 ∧ fmt = 2 ∧ k.fld 3 1 ≤ 15 ∧ k.fld 4 1 ≤ k.fld 5 1 ∧ k.fld 5 1 = 7 ∧ k.fld 6 1 = 1 ∧ k.fld 8 4 = 4
        ∧ 1 ≤ k.fld 0x0C 4 ∧ k.fld 0x10 4 = 100 ∧ (sl.map fun e => e.2.pktLimit).foldl (· + ·) 0 ≤ k.fld 8 4
        ∧ (sl.map fun e => e.2.wordLimit).foldl (· + ·) 0 ≤ k.fld 0x0C 4 ∧ (t.tray 64).packets = []
        ∧ (poolPlace (t.setTray 64 { t.tray 64 with mib := 0 }) (areaMib (k.fld 0x0C 4) (k.fld 8 4))).isSome = true)
        && !parRsvd k ([(0, 7), (8, 12)] ++ (List.range (k.fld 6 1)).map fun i => (0x40 + 16 * i, 12)) && !(List.range (k.fld 6 1)).any fun i => k.fld (0x42 + 16 * i) 2 != 0) = true
    ∧ ([8, 9].all fun n => (rowStart (rowAt n) wStage).any (fun e => decide (e.2.1.fld 2 1 = 0 ∧ e.2.1.fld 0 2 = 64 ∧ (e.2.2.tray 64).kind ≠ 0 ∧ (e.2.2.tray 64).ctx = e.1
        ∧ (e.2.2.tray 64).packets = []) && !parRsvd e.2.1 [(0, 2)])) = true := by decide +kernel

/-- `SweepAndRakeCommands`: a serving and a training sweep; a STOP with and without one that runs; a sequence at its greatest length; one in each
state; and both rake commands inside and outside a phase. -/
theorem test_sweepAndRake :
    (rowStart (rowAt 10) wStage).any (fun e => let k := e.2.1; let t := e.2.2
      decide (k.fld 1 1 = 0 ∧ t.draining = none ∧ t.image.isSome = true ∧ k.fld 2 2 = 0 ∧ k.fld 0 1 = 0 ∧ (t.ctx 1).deadline = false ∧ k.fld 0x18 2 = (imageD t).m
        ∧ kindIs t (k.fld 0x1A 2) 1 = true ∧ kindIs t (k.fld 0x1C 2) 2 = true ∧ kindIs t (k.fld 0x1E 2) 3 = true ∧ k.fld 0x14 4 ≠ 0
        ∧ schedBad t (k.fld 0x20 8) (k.fld 0x28 2) = false) && !parRsvd k [(0, 4), (8, 34), (0x30, 12)] && !periodBad (t.ctx 1) k) = true
    ∧ (rowStart (.sweepRun 1 (hdrOf 2) (pars 2 [(0, 1, 1), (0x18, 2, 4), (0x1A, 2, 5)])) wStage).any (fun e => let k := e.2.1; let t := e.2.2
      decide (k.fld 0 1 = 1 ∧ kindIs t (k.fld 0x18 2) 4 = true ∧ kindIs t (k.fld 0x1A 2) 5 = true) && !parRsvd k [(0, 4), (8, 34), (0x30, 12)]) = true
    ∧ (rowStart (rowAt 11) wStage).any (fun e => decide (e.2.1.fld 0 1 ≤ 1 ∧ e.2.1.fld 1 1 = 1 ∧ (e.2.2.ctx 1).sweep = none) && !parRsvd e.2.1 [(0, 4)]) = true
    ∧ (rowStart (rowAt 11) (wServe 0)).any (fun e => (e.2.2.ctx 1).sweep.isSome) = true
    ∧ (rowStart (.seqJoin 1 (hdrOf 1) (pars 1 [(0, 4, 9), (4, 4, 64), (8, 4, 64)])) (wServe 0)).any (fun e => let k := e.2.1; let t := e.2.2
      decide (1 ≤ k.fld 8 4 ∧ k.fld 8 4 ≤ k.fld 4 4 ∧ k.fld 4 4 ≤ 16777216 ∧ (t.ctx 1).seqs.any (fun q => q.id == k.fld 0 4) = false
        ∧ ((t.ctx 1).sweep.map Sweep.serving) = some true ∧ (reserveOf (imageD t) (k.fld 4 4)).1 ≤ (t.ctx 1).kvLocal * 0x100000
        ∧ (reserveOf (imageD t) (k.fld 4 4)).2 ≤ farPool (t.ctx 1)) && !parRsvd k [(0, 12)]) = true
    ∧ ([3, 1].all fun st => (rowStart (rowAt 13) (wServe st)).any (fun e => decide (((e.2.2.ctx 1).seqs.find? (fun q => q.id == e.2.1.fld 0 4 && q.st != 4)).map Seqn.st = some (max st 2))
        && !parRsvd e.2.1 [(0, 4)])) = true
    ∧ ([(wStage, false), (wRakes, true)].all fun a => (rowStart (rowAt 14) a.1).any (fun e => decide (rakeProgramStatus e.2.2 e.2.1 = stOK ∧ e.2.2.rphase.active = a.2))) = true
    ∧ ([(wStage, false), (wRakes, true)].all fun a => (rowStart (rowAt 15) a.1).any (fun e => (rakeGroupData e.2.2 e.1 e.2.1).isOk && decide (e.2.2.rphase.active = a.2))) = true := by
  decide +kernel

/-- `PegCommands`: a range that ends at the quota; a mapped VPID to free, reset and signal; an unmapped one and an AMOUNT of 0; waits on a good and on
a poisoned peg; a wait with a timeout, and none; and a dump of the last VPID. -/
theorem test_pegCommands :
    (rowStart (rowAt 16) wRing).any (fun e => let k := e.2.1; let t := e.2.2
      decide (k.fld 0 1 = 0 ∧ pegRangeBad k = false ∧ (countFrom (k.fld 2 2) (k.fld 4 2)).any (fun v => (vpidPhys t 1 v).isSome) = false ∧ k.fld 1 1 = 1
        ∧ k.fld 0x0D 1 = 0xFF ∧ k.fld 0x0E 2 ≤ k.fld 0x10 2 ∧ (t.ctx 1).vpids.length + k.fld 4 2 = (t.ctx 1).pegQuota ∧ k.fld 4 2 ≤ pegsFree t)) = true
    ∧ ([(17, 1), (18, 2)].all fun n => (rowStart (rowAt n.1) wRing).any (fun e => decide (e.2.1.fld 0 1 = n.2 ∧ pegRangeStatus e.2.2 1 e.2.1 = stOK))) = true
    ∧ (rowStart (rowAt 19) wRing).any (fun e => decide (e.2.1.fld 0 2 ≤ 4095 ∧ (targetSignal e.2.2 1 (e.2.1.fld 0 2) (e.2.1.fld 4 4) true ⟨e.2.2.salt.node, 3, 0⟩).2 = stOK)
        && !parRsvd e.2.1 [(0, 2), (4, 4)]) = true
    ∧ (rowStart (.pegSignal 1 (hdrOf 1) (pars 1 [(0, 2, 4095), (4, 4, 1)])) wRing).any (fun e => decide (vpidOk e.2.2 1 (e.2.1.fld 0 2) = none) && !parRsvd e.2.1 [(0, 2), (4, 4)]) = true
    ∧ (rowStart (.pegSignal 1 (hdrOf 1) (pars 1 [(0, 2, 7)])) wRing).any (fun e => decide (e.2.1.fld 4 4 = 0)) = true
    ∧ ([false, true].all fun bad => (rowStart (rowAt 20) (wRing.setPeg 2048 { (wRing.peg 2048) with poisoned := bad })).any (fun e => let k := e.2.1; let t := e.2.2
      decide (vpidOk t 1 (k.fld 0 2) = some 2048 ∧ k.fld 2 1 ≤ 1 ∧ k.fld 8 4 = 10000000 ∧ k.fld 4 4 ≠ 0 ∧ (t.peg 2048).poisoned = bad ∧ hostWaits (t.peg 2048) < 255)
        && !parRsvd k [(0, 3), (4, 8)])) = true
    ∧ (let a := nextOf (exec (rowAt 20) wRing)
       powered a = true ∧ advance a = a ∧ ((a.ctx 1).cmds.find? (fun k => k.aseq == 0 && k.op == 0x62 && k.started)).map (fun w => w.fld 8 4) = some 10000000)
    ∧ ((wRing.ctx 1).cmds.find? (fun k => k.aseq == 0 && k.op == 0x62 && k.started)).isNone = true
    ∧ (rowStart (rowAt 21) wRing).any (fun e => let k := e.2.1
      decide (1 ≤ k.fld 2 2 ∧ k.fld 0 2 + k.fld 2 2 = 4096 ∧ (e.2.2.ctx 1).live = true) && !parRsvd k [(0, 4), (8, 8)]
        && (putDest e.2.2 1 1 (k.fld 8 8) (dumpBytes e.2.2 1 (k.fld 0 2) (k.fld 2 2)) false).isOk) = true := by decide +kernel

/-- `PlatformCommands`: each row with fields at their ends. -/
theorem test_platform :
    (rowStart (rowAt 22) wRing).any (fun e => let k := e.2.1; let t := e.2.2
      decide (k.fld 0x0C 1 = 31 ∧ k.fld 0 8 % 4096 = 0 ∧ k.fld 8 4 = 1 ∧ k.fld 0x10 2 ≤ k.fld 0x12 2 ∧ k.fld 0x0E 2 ≤ 4095 ∧ windowMem t 1 0x4000000000 4096 false = true
        ∧ windowMem t 1 0x4000000000 4096 true = true ∧ (List.range 16384).find? (fun i => !(tget {} t.salt.windows i).valid) = some 0) && !parRsvd k [(0, 13), (0x0E, 6)]) = true
    ∧ (rowStart (rowAt 23) wStage).any (fun e => decide (e.2.1.fld 0 2 = 16383 ∧ (tget {} e.2.2.salt.windows 16383).valid = true ∧ (tget {} e.2.2.salt.windows 16383).owner = 1)
        && !parRsvd e.2.1 [(0, 2)]) = true
    ∧ (rowStart (rowAt 24) wRing).any (fun e => let k := e.2.1
      decide (k.fld 2 2 = 1 ∧ k.fld 0 2 + k.fld 2 2 = 65536 ∧ k.hdr.hlen = 8) && !parRsvd k [(0, 4)]
        && (match readExt e.2.2 e.1 k.hdr.haddr 8 with | .ok b => decide (b = List.replicate 8 0) | .error _ => false)) = true
    ∧ (rowStart (rowAt 27) wRing).any (fun e => let k := e.2.1
      decide (k.fld 0 2 ≤ packageLimit e.2.2 ∧ k.fld 2 2 = 550 ∧ k.fld 4 2 = 850 ∧ k.fld 6 1 = 105) && !parRsvd k [(0, 7)]) = true
    ∧ (rowStart (rowAt 28) wRing).any (fun e => let k := e.2.1
      decide (k.fld 4 1 ≤ 1 ∧ testStatus e.2.2 (k.fld 0 1) (k.fld 1 1) (k.fld 2 2) (k.fld 4 1 == 1) = stOK) && !parRsvd k [(0, 5)]) = true
    ∧ (rowStart (rowAt 29) wRing).any (fun e => let k := e.2.1
      decide (k.fld 0 8 % 64 = 0 ∧ k.fld 8 4 = 64 ∧ debugRange (k.fld 0 8) 64 = true ∧ inRegion (e.2.2.ctx 0) 0 64 true = true ∧ e.2.2.cxl.up = true)
        && !parRsvd k [(0, 12), (0x10, 8)]) = true := by decide +kernel

def wIdent : State := advance (wRing0.modIdent fun d => { d with valid := true, chains := [(0, [1])] })

/-- `PlatformCommands`, ATTEST: slot 0 with a chain and room for the evidence. -/
theorem test_attest :
    (rowStart (rowAt 30) wIdent).any (fun e => let k := e.2.1; let u := linkMeas e.2.2
      decide (k.fld 0x2C 1 = 0 ∧ u.ident.valid = true ∧ certChain u 0 ≠ [] ∧ (evidence u (k.par.take 32) 0).length + 49856 ≤ k.fld 0x28 4
        ∧ inRegion (u.ctx 0) (k.fld 0x20 8) ((evidence u (k.par.take 32) 0).length + 49856) true = true ∧ u.cxl.up = true) && !parRsvd k [(0, 45)]) = true := by
  decide +kernel

/-- Context 1 after its last fence of step 6, and the same with a sweep that runs. -/
def wFenced : State := advance (wStage0.modCtx 1 fun x => { x with lastStep := some 6 })
def wSweeps : State := advance (wStage0.modCtx 1 fun x => { x with sweep := some { serving := true, fwd := 4, igr := 5, m := 1 } })

/-- What a HARVEST asks for. -/
def harvestOk (a : State) (p : Nat → Cmd → State → Bool) : Bool :=
  (rowStart (rowAt 25) a).any fun e =>
    let k := e.2.1
    let t := e.2.2
    !parRsvd k [(0, 16)] && !periodBad (t.ctx 1) k && decide (k.fld 8 8 / 2 ^ 48 = 0xFFFE ∧ k.fld 8 8 / 2 ^ 48 ≠ t.salt.node ∧ k.fld 8 8 % 64 = 0 ∧ k.fld 6 2 ≤ 16383
      ∧ (t.image.bind Image.plan).isSome = true ∧ (myRank t).isSome = true ∧ (t.ctx 1).harvest = none ∧ k.fld 4 2 = 2) && p e.1 k t

/-- `HarvestCommands`: a harvest of the last step, and one that waits for a fence; and one that runs. -/
theorem test_harvest :
    harvestOk wFenced (fun _ k t => decide ((t.ctx 1).sweep = none ∧ k.fld 0 4 = (t.ctx 1).lastStep.getD 0xFFFFFFFF)) = true
    ∧ harvestOk wSweeps (fun _ _ t => decide ((t.ctx 1).sweep.map Sweep.serving = some true)) = true
    ∧ (let a := wFenced.modCtx 1 fun x => { x with harvest := some { begun := true, store := 6 * 2 ^ 48, step := 6, hseq := 1 } }
       let b := advance a
       powered b = true ∧ advance b = b ∧ ((b.ctx 1).harvest.map Harvest.begun) = some true) := by decide +kernel

/-- `HarvestCommands`, RESTORE: a store outside the host's regions, and one with a header and without. -/
theorem test_restore :
    (rowStart (.restore 1 (hdrOf 1) (pars 1 [(0, 8, 0xFFFE000080000000)]) {}) wStage).any (fun e =>
        match restoreRead e.2.2 1 (e.2.1.fld 0 8) [] [] 0 64 with | .error st => decide (st = stWINDOW) | .ok _ => false) = true
    ∧ ([0, 1].all fun b => (rowStart (.restore 1 (hdrOf 1) (pars 1 [(0, 8, 0xFFFE000000010000)]) { seen := [(0x10000, b)] }) wStage).any fun e =>
      let k := e.2.1
      let t := e.2.2
      !parRsvd k [(0, 11), (0x10, 12)] && !periodBad (t.ctx 1) k && decide (k.fld 0x0A 1 ≤ 1 ∧ k.fld 0 8 / 2 ^ 48 = 0xFFFE ∧ k.fld 0 8 / 2 ^ 48 ≠ t.salt.node ∧ k.fld 0 8 % 64 = 0
        ∧ k.fld 8 2 ≤ 16383 ∧ (t.ctx 1).sweep = none ∧ (t.ctx 1).harvest = none ∧ (t.image.bind Image.plan).isSome = true ∧ myRank t = some 0 )
        && (match restoreRead (applyHost t k.reads.seen) 1 (k.fld 0 8) (k.reads.seen.foldl (fun m e => tput 0 m e.1 e.2) []) k.reads.lost 0 64 with
          | .ok hd => decide (fieldAt hd 0 8 = b.toNat)
          | .error _ => false)) = true := by decide +kernel

/-! ### Local memory and the host port -/

/-- `LocalMemory`: a canonical memory, and two lines of LPDDR5X, one inside a write and one beside it. -/
theorem test_localMemory :
    Memory.wf wOn.mem = true ∧ inLp 0x1000 128 = true ∧ inLp 0x1080 64 = true ∧ 0x1000 + (word64 1 ++ word64 2).length ≤ 0x1080 ∧ 0x1040 + 64 ≤ 0x1000 + (word64 1 ++ word64 2).length
    ∧ (let s := writeMem wOn 0x1000 (word64 1 ++ word64 2) true
       readMem s 0x1000 128 = word64 1 ++ word64 2 ∧ isPoisoned s 0x1040 64 = true ∧ isPoisoned s 0x1080 64 = false
        ∧ isPoisoned (writeMem s 0x1040 (word64 0) false) 0x1040 64 = false ∧ (writeMem s 0x1040 (word64 0) false).mem.length = 64) := by decide +kernel

/-- `MemoryErrors`: the last row of a window and a line of a channel, of another channel, and of the journal (R152, Table 7-2). -/
theorem test_memoryErrors :
    powered wOn = true ∧ advance wOn = wOn ∧ (43775 : Nat) < 43776
    ∧ (inLp (0x1000000 * 64) 64 = true ∧ inJournal (0x1000000 * 64) = false ∧ chanOf wOn (0x1000000 * 64) < 96 ∧ chanOf wOn 0 = (0 : Fin 96).val ∧ chanOf wOn 256 ≠ (0 : Fin 96).val)
    ∧ inLp (0x300000000 * 64) 64 = false ∧ (∃ l, inJournal (l * 64) = true ∧ inLp (l * 64) 64 = true) :=
  ⟨by decide +kernel, by decide +kernel, by decide +kernel, by decide +kernel, by decide +kernel, ⟨0xC0000000 / 64, by decide +kernel⟩⟩

def wHtr (op : Nat) : State :=
  let x : HtRing := { base := 0x8000, log2n := 3, tail := 1 }
  let p : Packet := { st := if op ≤ 2 then .ready else .claimed, seq := 1, pseq := 1, claimer := 1 + 4096 }
  let s : State := { wRing0 with trays := [(64, { kind := 1, ctx := 1, maxpkt := 4, mib := 1, ringWords := 8, packets := [p], slots := [(0, { wSlot with enabled := true, node := 0xFFFE })] })] }
  let d : List Byte := descBytes [(0, 4, 1 + 2 * op), (6, 2, 64), (0x10, 8, 0x9000), (0x18, 4, if op = 2 then 4 else 0), (0x1C, 4, if 3 ≤ op then 1 else 0)]
  advance ((applyHost s ((List.range 64).zip d |>.map fun e => (0x8000 + e.1, e.2))).modCtx 1 fun y => { y with htr0 := x })

/-- `HostTrayRings`: a descriptor of each OP that is not broken, a broken one, and a ring with nothing announced. -/
theorem test_hostTrayRings :
    ([1, 2, 3, 4].all fun op =>
      let a := wHtr op
      let l := readHost a 0x8000 64
      powered a && decide (advance a = a) && htrMayStart a 1 0 && !htrBad a 1 l && decide (bitsAt (leNat (l.take 4)) 1 3 = op)) = true
    ∧ (htrMayStart wRing 1 0 = false ∧ htrBad (wHtr 1) 1 (List.replicate 64 0) = true)
    ∧ ([3, 4].all fun op => ((((wHtr op).tray 64).find .claimed 1).map Packet.claimer == some (1 + 4096))) = true
    ∧ (let t := (wHtr 2).tray 64
       t.packets.map Packet.bad = [false] ∧ t.head.map Packet.nwords = some 1 ∧ t.kind = 1 ∧ inRegion ((wHtr 2).ctx 1) 0x9000 (64 + 64 * 1) true = true) := by decide +kernel

/-- HTR_GET brings the packet's entry to the host's buffer (R319). -/
theorem test_htrGet : leNat ((readHost (nextOf (exec (.htrGet 1 0 true) (wHtr 2))) 0x9008 4)) = 1 := by decide +kernel

/-- `HostDoorbells`: the link down; a context that does not exist; a tail at the ring's size and beyond it, READY or not. -/
theorem test_hostDoorbells :
    (wOn.cxl.up = false ∧ wRing.cxl.up = true ∧ (wRing.ctx 9).live = false ∧ (wRing.ctx 1).live = true ∧ powered wRing = true ∧ advance wRing = wRing)
    ∧ (let x := (applyHost wRing []).ctx 1
       wRing.cxl.ready = true ∧ (64 + 2 ^ 32 - x.cmdRead) % 2 ^ 32 = 2 ^ x.cmdLog2 ∧ 2 ^ x.cmdLog2 < (65 + 2 ^ 32 - x.cmdRead) % 2 ^ 32)
    ∧ (wCtx.cxl.up = true ∧ wCtx.cxl.ready = false ∧ (wCtx.ctx 1).live = true)
    ∧ (let x := (applyHost (wHtr 1) []).htr 1 0
       3 ≤ x.log2n ∧ (8 + 2 ^ 16 - x.head) % 2 ^ 16 ≤ 2 ^ x.log2n ∧ (x.started + 2 ^ 16 - x.head) % 2 ^ 16 ≤ 8 ∧ 2 ^ x.log2n < (9 + 2 ^ 16 - x.head) % 2 ^ 16)
    ∧ (wRing.htr 1 0).log2n < 3 := by decide +kernel

/-- `HostRegisters`: the link down and up; node numbers that may and may not be set; the ends of RSP_TIMEOUT; and offsets in and out of each range. -/
theorem test_hostRegisters :
    (wOn.cxl.up = false ∧ wCtx.cxl.up = true)
    ∧ (wNode.cxl.up = true ∧ wNode.salt.node ≠ 0xFFFF ∧ (List.range 8).any (fun p => decide ((wNode.port p).state ≥ 2)) = true)
    ∧ (wCtx.salt.node = 0xFFFF ∧ (0xFFFE : BitVec 64).toNat % 2 ^ 16 = 0xFFFE ∧ (5 : BitVec 64).toNat % 2 ^ 16 ≠ 0xFFFE)
    ∧ ((9 : BitVec 64).toNat % 2 ^ 17 < 10 ∧ 100000 < (100001 : BitVec 64).toNat % 2 ^ 17 ∧ 10 ≤ (10 : BitVec 64).toNat % 2 ^ 17 ∧ (100000 : BitVec 64).toNat % 2 ^ 17 ≤ 100000)
    ∧ ((0x00400000 % 8 = 0 ∧ 0x00400000 < 0x00800000) ∧ 0x01FFFFF8 % 8 = 0 ∧ 0x01FFFFF8 < 0x02000000 ∧ 0x00028000 % 8 = 0 ∧ 4 % 8 ≠ 0) := by decide +kernel

def wHdm (committed : Bool) (poison : List Nat) : State := advance ({ wRing0 with hdmBytes := 0x100000000, poison := poison }.modCxl fun x =>
  { x with flit256 := true, hdmCommitted := committed, hdmBase := if committed then 0x1000000 else 0, hdmSize := if committed then 0x10000000 else 0, snooping := [77] })

/-- `HostMemory`: a decoder that is committed and one that is not; the first and last byte of its range, and the bytes beside it; good and poisoned
lines; and a line that is snooped. -/
theorem test_hostMemory :
    (advance (wHdm true []) = wHdm true [] ∧ powered (wHdm true []) = true ∧ (wHdm true []).cxl.hdmCommitted = true ∧ (wHdm true []).cxl.up = true)
    ∧ ((wHdm false []).cxl.hdmCommitted = false ∧ advance (wHdm false []) = wHdm false [] ∧ wOn.cxl.up = false)
    ∧ (hdmLine (wHdm true []) 0x1000000 = some 0xBF00000000 ∧ hdmLine (wHdm true []) 0x10FFFFFF = some 0xBF0FFFFFC0 ∧ hdmLine (wHdm true []) 0xFFFFFF = none
      ∧ hdmLine (wHdm true []) 0x11000000 = none)
    ∧ (isPoisoned (wHdm true []) 0xBF00000000 64 = false ∧ isPoisoned (wHdm true [0xBF00000000 / 64]) 0xBF00000000 64 = true
      ∧ advance (wHdm true [0xBF00000000 / 64]) = wHdm true [0xBF00000000 / 64])
    ∧ ((wHdm true []).cxl.snooping.contains 77 = true ∧ (wHdm true []).cxl.snooping.contains 78 = false) := by decide +kernel

def wDown : State := advance (wRing0.modCxl fun x => { x with up := false, downAt := some 5 })
def wIrq : State := advance (wRing0.modCtx 1 fun x => { x with lastIrq := some 5, irqHeld := true, holdoff := 1000 })

/-- The rows of Table 13-2: x16 at 64 GT/s in 256-byte flits, and the slowest in 68-byte ones; none in 256-byte flits at 8 GT/s. -/
theorem test_hostLink :
    (wOn.cxl.up = false ∧ wRing.cxl.up = true ∧ wRing.salt.snoopHeld = [])
    ∧ (linkRow 16 4 true = true ∧ linkRow 4 1 false = true ∧ linkRow 16 4 false = false ∧ linkRow 4 2 true = false ∧ linkRow 2 1 false = false)
    ∧ (powered wDown = true ∧ advance wDown = wDown ∧ wDown.cxl.up = false ∧ wDown.cxl.downAt = some 5 ∧ wRing.cxl.downAt = none)
    ∧ (advance wIrq = wIrq ∧ (wIrq.ctx 1).irqHeld = true ∧ (wIrq.ctx 1).lastIrq = some 5 ∧ (wRing.ctx 1).irqHeld = false) := by decide +kernel

/-! ### Identity and field service -/

/-- The mailbox's link in a state of the exchange, and port 2 in the same. -/
def wLink (st : Nat) : State :=
  let s := wRing0.modIdent fun d => { d with valid := true, chains := [(0, [1])], require := 4, allow := 4, links := [(2, { st := st, authed := true }), (8, { st := st, authed := true })] }
  advance { s with ports := [(2, { state := 2, version := 2, peerEnc := true, encrypt := st = 5, lanes := 15 })] }

/-- `SpdmRequests`: a link that reaches the device and one that does not; a die without an identity; each state of the exchange; and slots with and
without a chain. -/
theorem test_spdmRequests :
    ([1, 2, 3, 4, 5].all fun st => powered (wLink st) && decide (advance (wLink st) = wLink st) && linkReaches (wLink st) 8 && linkReaches (wLink st) 2 && (wLink st).ident.valid
      && decide (((wLink st).link 8).st = st)) = true
    ∧ (spdmRow (.heartbeat 8) = some (8, 5) ∧ linkReaches wOn 8 = false ∧ linkReaches wRing 8 = true ∧ wRing.ident.valid = false ∧ ((wLink 4).link 8).st < 5)
    ∧ (certChain (wLink 3) 0 ≠ [] ∧ certChain (wLink 3) 1 = [] ∧ (List.replicate 1568 (0 : Byte)).length = 1568)
    ∧ (((wLink 4).link 2).authed = true ∧ mustEncrypt (wLink 4) 2 = true ∧ ((wLink 4).port 2).peerEnc = true)
    ∧ (((wLink 4).modIdent fun d => { d with links := [(2, { st := 4 })] }).link 2).authed = false := by decide +kernel

def wAnchor (opened ide : Bool) : State := advance { wLink0 with sess := { wRing0.sess with opened := opened }, cxl := { wRing0.cxl with ideReq := ide, ready := false } }
  where wLink0 := (wRing0.modIdent fun d => { d with valid := true, links := [(8, { st := 5 })] }).modStart fun t => { t with phase := 0xE }

/-- `MailboxRequests`: RING_ANCHOR inside and outside a session, with good fields at their ends and a bad one, secured and not; LINK_POLICY; and the keys. -/
theorem test_mailbox :
    ([(true, false), (false, false), (false, true)].all fun e => powered (wAnchor e.1 e.2) && decide (advance (wAnchor e.1 e.2) = wAnchor e.1 e.2) && linkReaches (wAnchor e.1 e.2) 8
      && (wAnchor e.1 e.2).ident.valid && decide ((wAnchor e.1 e.2).sess.opened = e.1 ∧ (wAnchor e.1 e.2).cxl.ideReq = e.2)) = true
    ∧ (anchorBad { cmdLog2 := 16, vector := 2047 } = false ∧ anchorBad { cmdLog2 := 17 } = true ∧ anchorBad { vector := 2048 } = true)
    ∧ (inSession (wAnchor false true) true = true ∧ inSession (wAnchor false true) false = false ∧ (255 &&& 255 : Nat) = 255 ∧ (2 &&& 1 : Nat) ≠ 2)
    ∧ (((wAnchor false false).link 8).st = 5 ∧ ideOk ((wAnchor false false).modCxl fun x => { x with ideActive := 1 }) = true ∧ (wAnchor false false).start.phase ≠ 0xF
      ∧ ideOk ((wLink 5).modCxl fun x => { x with ideActive := 1 }) = true ∧ (wLink 5).start.phase = 0xF ∧ ((wLink 4).link 8).st ≠ 5)
    ∧ (((wLink 5).port 2).encrypt = true ∧ ((wLink 4).port 2).encrypt = false ∧ wOn.cxl.up = false) := by decide +kernel

def wConsole (locked opened : Bool) : State := advance { wRing0 with svc := { wRing0.svc with locked := locked }, sess := { wRing0.sess with opened := opened } }

/-- `ConsoleCommands`: a part before Dister runs and one after; locked and unlocked, inside and outside a session; and the fields of AMON and READ. -/
theorem test_console :
    (consoleRow .lock = true ∧ wOn.start.dister = false ∧ powered wOn = true ∧ advance wOn = wOn)
    ∧ ([(true, true), (false, false)].all fun e => powered (wConsole e.1 e.2) && decide (advance (wConsole e.1 e.2) = wConsole e.1 e.2) && (wConsole e.1 e.2).start.dister
        && decide (unlocked (wConsole e.1 e.2) = !e.1 ∧ (wConsole e.1 e.2).sess.opened = e.2)) = true
    ∧ (amonOk 3 11 = true ∧ amonOk 3 12 = false ∧ amonOk 0x20 127 = true ∧ amonOk 7 0 = false)
    ∧ (debugRange 0xF0000000 4096 = true ∧ debugRange 0x020000000000 8 = true) := by decide +kernel

def wRecover : State := advance { wOn with start := { wOn.start with recovery := true } }
def wTesting (block test n : Nat) (intrusive busy : Bool) : State := advance
  { wRing0 with
    svc := { wRing0.svc with running := [{ block := block, test := test, index := n, intrusive := intrusive, console := true }] }
    cores := if busy then [(n, { mode := .running, ctx := 1, run := { ended := true } })] else [] }

/-- `ServiceActions`: RESET locked and unlocked; RECOVER with and without ROM recovery and an image; a test that is taken and one that is refused;
and tests that may and may not end. -/
theorem test_service :
    (unlocked (wConsole true true) = false ∧ unlocked (wConsole false false) = true ∧ powered (quiesce (wConsole false false)) = true)
    ∧ (powered wRecover = true ∧ advance wRecover = wRecover ∧ wRecover.start.recovery = true ∧ recOk goodRec 1 wRecover.start.inputs.dieId 0x01000000 = true
      ∧ recOk {} 1 wRecover.start.inputs.dieId 0x01000000 = false ∧ wOn.start.recovery = false)
    ∧ (testStatus (wConsole false false) 1 1 127 false = stOK ∧ testStatus (wConsole false false) 1 1 128 false ≠ stOK ∧ destructive 1 1 = false ∧ destructive 4 2 = true)
    ∧ ((wConsole false false).svc.allPass = none ∧ (wConsole false false).svc.running = [])
    ∧ (let a := wTesting 1 1 3 false false
       powered a = true ∧ advance a = a ∧ (a.svc.running.find? fun t => t.block == 1 && t.index == 3).map Test.intrusive = some false)
    ∧ (let a := wTesting 1 1 3 true true
       advance a = a ∧ (a.svc.running.find? fun t => t.block == 1 && t.index == 3).map Test.intrusive = some true ∧ coreBlock 1 = true ∧ quickTest 1 1 = false
        ∧ (a.core 3).mode ≠ .fenced) := by decide +kernel

/-! ### Further witnesses -/

/-- `MeshBoot`, BOOT_END: a waiting secondary with a piece of part 2 that is good and one that is not, with parts still wanted and with none; and
position 0 with a training record to close. -/
theorem test_bootEnd :
    (let a (done : List Nat) : State := (wMesh 0 false).modStart fun t => { t with meshPart := 2, meshData := [7, 8], meshDone := done }
     let b (done : List Nat) : State := { a done with ports := [(4, { state := 2, version := 2 })] }
     (([[], [1, 3, 4]] : List (List Nat)).all fun d => decide (powered (b d) = true ∧ advance (b d) = b d ∧ meshWaiting (b d) = true
        ∧ (4 : PortId).val = 7 - (b d).start.pos ∧ ((b d).port 4).version = 2 ∧ 2 ≤ (b d).start.meshData.length)) = true
      ∧ meshWanted ((b []).modStart fun t => { t with meshDone := ninsert t.meshDone 2 }) ≠ 0
      ∧ meshWanted ((b [1, 3, 4]).modStart fun t => { t with meshDone := ninsert t.meshDone 2 }) = 0)
    ∧ (let a : State := wRoot.modStart fun t => { t with trainPut := some (7, [1, 2]) }
       powered a = true ∧ advance a = a ∧ a.start.pos = 0 ∧ a.start.dister = true ∧ a.start.bootsrc = false ∧ a.start.trainPut = some (7, [1, 2])) := by decide +kernel

/-- What the words that read accumulators and tables also ask: no entry with an uncorrectable error; the rows of VGATHER's table, and of a word, in
the scratchpad. -/
theorem test_wordRows :
    accBad (wCore.core 3).run.eng.acc (wf wAdrain 8 2 * 512 + wf wAdrain 10 9) (wf wAdrain 19 10) = false
    ∧ accBad (wCore.core 3).run.eng.facc (wf wFdrain 8 10) (wf wFdrain 18 11) = false
    ∧ (viewOf wCore 3).base + (wf wVgather 48 16 + 0) < 49152 ∧ (∀ r ∈ readRows wAdrain, (wCore.core 3).run.rowBase + r < 49152)
    ∧ (∀ r ∈ readRows wAstat, (wCore.core 3).run.rowBase + r < 49152) := by decide +kernel

/-- `CoreProgress`: a word that completes behind another one, and the causes of a beat of the array (Table 3-6). -/
theorem test_overlap :
    (let a := nextOf (exec (.vadd 3 0) wDone)
     (a.core 3).mode = .running ∧ ((a.core 3).run.q.find? (QWord.ofUnit 7)).map QWord.fin = some false ∧ overlaps 7 = true ∧ overlaps 2 = false)
    ∧ (beatOrder 2 = ([0x208, 0x210, 0x218, 0x220], [0x228]) ∧ chargedTo 2 [0x218, 0x210] = [0x210] ∧ chargedTo 2 [] = [0x228])
    ∧ ((delFirst (QWord.ofUnit 7) (wDone.core 3).run.q).find? (QWord.ofUnit 7)) = none := by decide +kernel

/-- `PegApply`: an operation whose peg's row is poisoned, which the teardown drops; one on a peg freed meanwhile; and a good row. -/
theorem test_pegRows :
    (let a : State := { wReq 7 (.signal 5) with badRows := [pegRow 2048] }
     powered a = true ∧ advance a = a ∧ a.badRows.contains (pegRow 2048) = true
      ∧ ((pegRead a 2048).pegReqs.find? fun r => r.phys / 2048 == (1 : CoreId).val) = none ∧ (wReq 7 (.signal 5)).badRows.contains (pegRow 2048) = false)
    ∧ (let a : State := { wReq 7 (.signal 5) with pegReqs := [{ core := 3, ctx := 1, vpid := 7, phys := 2048, op := .signal 5, dead := true }] }
       advance a = a ∧ (a.pegReqs.find? fun r => r.phys / 2048 == (1 : CoreId).val).map PegReq.dead = some true) := by decide +kernel

/-- `Preemption`: a save and a restore that wait their turn, and ones whose state or slot is uncorrectable. -/
theorem test_moves :
    (moves wSaving 3 = true ∧ runBad (wSaving.core 3).run = false ∧ moves { wSaving with moveQ := [9, 8, 7, 6, 5, 4, 2, 1, 3] } 3 = false)
    ∧ (let a := wSaving.modRun 3 fun r => { r with eng := { r.eng with acc := [(0, { bad := true })] } }
       powered a = true ∧ advance a = a ∧ (a.core 3).mode = .saving ∧ moves a 3 = true ∧ runBad (a.core 3).run = true)
    ∧ (let a := advance (wSavedUnit 5 .restoring)
       moves a 3 = true ∧ a.saved.all (fun v => !slotBad a v) = true)
    ∧ (let a := advance { wSavedUnit 5 .restoring with badRows := [rowKey 3 44288] }
       powered a = true ∧ advance a = a ∧ (a.core 3).mode = .restoring ∧ (a.saved.filter fun v => v.core == 3 && v.ctx == (a.core 3).ctx && (unitOn a 3).any fun u => u.id == v.unit).map
         (slotBad a) = [true]) := by decide +kernel

/-- `TrayOpens`, `TrayCommits`: a PSEQ open already, whose packet is taken back; ring words held behind an older packet (R173); and a COMMIT that comes
again. -/
theorem test_trayRoom :
    (powered wOpened = true ∧ advance wOpened = wOpened ∧ openCheck wOpened (wOpened.tray 64) (wEntry 1 0) 6 false = stOK ∧ jfull wOpened = false
      ∧ pseqClass ((wOpened.tray 64).slot 0) 1 = .fresh ∧ (wOpened.tray 64).packets.find? (isOpen 0 1) = some wPkt
      ∧ (let t := (answerPkt (rewind { wOpened with readOut := [] } 64 wPkt) wPkt stCANCELLED).tray 64
         1 ≤ (t.slot 0).pktAvail ∧ 1 ≤ (t.slot 0).wordAvail ∧ t.words + 1 ≤ t.ringWords))
    ∧ (let a := wTrays { slots := [(0, wSlot)], packets := [{ length := 7, pseq := 9, st := .ready, seq := 1 }] }
       powered a = true ∧ advance a = a ∧ openCheck a (a.tray 64) (wEntry 1 0) 6 false = stOK ∧ jfull a = false ∧ pseqClass ((a.tray 64).slot 0) 1 = .fresh
        ∧ (a.tray 64).packets.find? (isOpen 0 1) = none ∧ (a.tray 64).ringWords < (a.tray 64).words + 1)
    ∧ ((wCommitted.tray 64).openOf 0 1).map Packet.commitOk = some true := by decide +kernel

/-- `TrayReading`: the head of a tray whose entry is uncorrectable, in the ring and on die; and credit to return to the producers of version 1. -/
theorem test_trayErrors :
    ([{ wPkt with st := .ready, seq := 1, bad := true }, { wPkt with st := .ready, seq := 1, ecc := true }].all fun p =>
      let a := wTrays { packets := [p] }
      decide ((a.tray 64).head = some p ∧ (p.bad = true ∨ p.ecc = true ∧ p.spill = none))) = true
    ∧ (let a := wTrays { fmtver := 1, slots := [(0, { wSlot with retPkts := 1, retWords := 1, retNodes := [6] })] }
       powered a = true ∧ advance a = a ∧ (a.tray 64).kind = 1 ∧ (a.tray 64).fmtver ≠ 2 ∧ 0 < ((a.tray 64).slot 0).retPkts) := by decide +kernel

def wV1 (mode : Nat) : State := { (wNode.setPort 2 { state := 2, version := 1 }) with pegs := [(2048, { mode := mode, owner := 1, vpid := 7, remote := true, nodeHi := 9 })] }

/-- `FabricAccess`, `FabricRequests`: an access to a register block; a SIGNAL behind data of its source; a version 1 link with a counting peg and a flag;
a TRAY_PUT with a bad field, and one of the other version; and a poisoned UPDATE. -/
theorem test_fabricMore :
    (accessBad { mRd with addr := 0x020000000000 } = false ∧ inRegs 0x020000000000 64 = true ∧ inRegs mRd.addr (msgSpan mRd) = false)
    ∧ (let a := wNodeSnoop.modSalt fun x => { x with snoopHeld := [(2, { mWr with ukind := 0 }, 0)] }
       powered a = true ∧ advance a = a ∧ signalWaits a mSig = true ∧ signalWaits wNode mSig = false)
    ∧ ([1, 2].all fun mode => decide (powered (wV1 mode) = true ∧ advance (wV1 mode) = wV1 mode ∧ arrival (wV1 mode) 2 mSig = .mine ∧ ((wV1 mode).port 2).version = 1
        ∧ signalBad mSig = false ∧ (vpidOk (wV1 mode) 1 7).map (fun i => ((wV1 mode).peg i).mode) = some mode)) = true
    ∧ (mPut.arg = 0 ∧ mPut.data = true ∧ { mPut with arg := 1 }.arg ≠ 0 ∧ (parseEntry (mPut.words.take 32)).fver ≠ 1 ∧ arrival (wV1 1) 2 mPut = .mine)
    ∧ (arrival wNode 2 { mUpd with poison := true } = .mine ∧ updateBad { mUpd with poison := true } = false) := by decide +kernel

/-- `FabricWaits`: a request that RSP_TIMEOUT names; a held node with a held message and none outstanding. -/
theorem test_fabricWaits :
    ((wNode.salt.outs.find? fun o => o.port == (2 : PortId).val && o.tag == 7) = none)
    ∧ (powered (wOut (outRd 0 0)) = true ∧ advance (wOut (outRd 0 0)) = wOut (outRd 0 0)
      ∧ ((wOut (outRd 0 0)).salt.outs.find? fun o => o.port == (2 : PortId).val && o.tag == 7) = some (outRd 0 0))
    ∧ (let a := (wHolds false).modSalt fun x => { x with held := [({ mSig with dst := 6 }, .psig 3, 0)] }
       powered a = true ∧ advance a = a ∧ a.salt.heldNodes.contains 6 = true ∧ ∀ o ∈ a.salt.outs, o.msg.dst ≠ 6)
    ∧ (∃ o ∈ (wHolds true).salt.outs, o.msg.dst = 6) := by decide +kernel

/-- `ScheduleTimes`: a fence of a step whose heads are not there; a period that is open in the gap, and none; and a long sequence's pages. -/
theorem test_gap :
    (let a := advance ((wFence true).modCtx 1 fun x => { x with sweep := some { phase := 3, fwd := 1, igr := 2, wgr := 3, m := 1 } })
     powered a = true ∧ advance a = a ∧ (a.ctx 1).fenceClosed = true ∧ ((a.ctx 1).sweep.map fun w => (w.serving, w.phase)) = some (false, 3))
    ∧ (let a := { wDead true 1000 with plotWait := true, now := 2000 }
       gapOpen a = true ∧ gapOpen wOn = false)
    ∧ (let a := (wDead false 1000).modCtx 1 fun x => { x with gapWait := true }
       gapOpen a = false ∧ ((liveCtxs a).filter fun c => (a.ctx c).gapWait) = [1])
    ∧ (attended 2 (64 * 40 + 1) (fun j => BitVec.ofNat 32 (0x3F800000 + j))).contains 5 = false
    ∧ (attended 2 (64 * 40 + 1) (fun j => BitVec.ofNat 32 (0x3F800000 + j))).length = 35 := by decide +kernel

/-- `CoreFaults`, `RakePhase`: an intrusive test of core 3 that runs; and a phase whose COUNTs are set. -/
theorem test_doomed :
    (let a := wTesting 1 1 3 true true
     powered a = true ∧ advance a = a ∧ (a.svc.running.any fun t => t.intrusive && coreBlock t.block && t.index == (3 : CoreId).val) = true)
    ∧ (let a : State := { wRefresh false [] with rphase := { (wRefresh false []).rphase with counted := true } }
       powered a = true ∧ advance a = a ∧ (a.rake 0).refresh = [(0, 0, 7)] ∧ a.rphase.counted = true ∧ (wRefresh false []).rphase.counted = false
        ∧ isPoisoned a (statAddr (groupRec a 0) 0) 65536 = false ∧ isPoisoned a (rootAddr (groupRec a 0) 0) 65536 = false)
    ∧ ((wPhase 0 false []).badRows = []) := by decide +kernel

/-- `SessionAndContextCommands`: a SESSION_CLOSE in front of context 0 and another command there; room for a context's save slots. -/
theorem test_closeSession :
    (let s : State := wRing.modCtx 0 fun x => { x with cmds := [{ op := 2, started := true, mark := 2 }] }
     ((s.ctx 0).cmds.map fun k => (k.op, k.started)) = [(2, true)] ∧ (closeSession s).sess.opened = false)
    ∧ ([rowAt 2].all fun i => (rowStart i wRing).any fun e => decide (1 ≤ (slotsFor e.2.2 0 1).length)) = true := by decide +kernel

/-- `StageAndTrayCommands`, `SweepAndRakeCommands`: an image beside which every slot and pool has a place, and one with none; the memory that a sweep needs;
and a restored step that a sweep goes on from. -/
theorem test_places :
    (rowStart (rowAt 5) wRing).any (fun e => (placeAll { e.2.2 with image := some {}, nRes := 16, solo := [], affinity := [] }).isSome) = true
    ∧ (let s : State := { wRing with nRes := 128, hdmBytes := 0xC000000000 - 133 * 0x30000000, image := some {} }
       placeAll (s.modCtx 1 fun x => { x with slots := [0x400000000] }) = none)
    ∧ (rowStart (rowAt 10) wStage).any (fun e => let t := e.2.2
      decide (ctxHeap t (t.ctx 1) true ≤ (t.ctx 1).memQuota * 0x100000 ∧ heapUsed t + roundUp (imageD t).ctxBytes 256 ≤ heapSize t)) = true
    ∧ (rowStart (rowAt 10) (advance (wStage.modCtx 1 fun x => { x with restored := some 0xFFFFFFFF }))).any (fun e =>
        decide (((e.2.2.ctx 1).restored.map fun n => (n + 1) % 2 ^ 32) = some (e.2.1.fld 0x10 4))) = true := by decide +kernel

/-- `PegCommands`, `PlatformCommands`: a poisoned peg row; a dump of a live context; a window that closes while an access is held. -/
theorem test_pegRowsHost :
    (rowStart (rowAt 20) wRing).any (fun e => decide (vpidRead e.2.2 1 7 = e.2.2)) = true
    ∧ (rowStart (rowAt 21) wRing).any (fun e => decide ((e.2.2.ctx 1).faulted = false)) = true
    ∧ (rowStart (rowAt 23) wStage).any (fun e => decide (e.2.2.salt.snoopHeld = [])) = true
    ∧ (rowStart (rowAt 23) (advance ((wStage.modCxl fun x => { x with hdmCommitted := true, snoop := [0] }).modSalt fun x =>
        { x with snoopHeld := [(2, { mWr with addr := 0 }, 0)] }))).any (fun e => decide (e.2.2.salt.snoopHeld ≠ [])) = true := by decide +kernel

/-- `HarvestCommands`, RESTORE with room for BADLIST. -/
theorem test_badList :
    (rowStart (.restore 1 (hdrOf 1) (pars 1 [(0, 8, 0xFFFE000000010000), (0x10, 8, 0xFFFE000000020000), (0x18, 4, 64)]) {}) wStage).any (fun e =>
        decide (e.2.1.fld 0x18 4 = 64) && (putDest e.2.2 1 1 (e.2.1.fld 0x10 8) (badList 64 0 []) false).isOk) = true
    ∧ decide ((listed wStage 1 { par := pars 1 [(0x10, 8, 0xFFFE000000020000), (0x18, 4, 64)] } wStage 0 [(1, 2, 3)] id) = wStage) = false := by decide +kernel

/-- `MemoryErrors`: a row and a 64 B with a correctable error of their own. -/
theorem test_softErrors :
    (let a : State := { wOn with softRows := [rowKey 3 0], soft64 := [0x1000000] }
     powered a = true ∧ advance a = a ∧ (weedNext a.spSplit (a.core 3) 0).1 = 0 ∧ a.softRows.contains (rowKey 3 0) = true ∧ a.soft64.contains 0x1000000 = true
      ∧ (nextOf (exec (.weeding 3 0 false false false) a)).softRows = [] ∧ ((nextOf (exec (.weeding 3 0 false false false) a)).core 3).spCe = 1)
    ∧ (let s : State := { wOn with softRows := [2], soft64 := [3] }
       (3 ∈ wholeLines 64 0xC0 64 ∧ inLp 0xC0 64 = true) ∧ inAperture 0x010000000400 512 = true ∧ 2 ∈ wholeLines 512 0x400 512
        ∧ (writeMem s 0xC0 (word64 1)).soft64 = []) := by decide +kernel

/-- `HostRegisters`, `HostMemory`: a component register; what BAR0 and the configuration header read; and an interleave of two ways, in which this device
holds every other granule (R310, R323). -/
theorem test_bar0 :
    (bar0Read (nextOf (exec (.registerWrite 0xFFF8 5) wCtx)) 0xFFF8 = 5 ∧ bar0Read wCtx 4 = 0 ∧ bar0Read wCtx 0x00028100 = 0 ∧ bar0Read wCtx 0x00800000 = 0)
    ∧ configHeader wCtx 0x08 = 0x120000B1
    ∧ (hdmDpa { hdmBase := 0x1000000, hdmWays := 2, hdmGran := 256 } 0x10002C0 = 0x1C0)
    ∧ (interleaveOk 8 16384 = true ∧ interleaveOk 3 256 = false ∧ interleaveOk 1 128 = false) := by decide +kernel

/-- `ServiceActions`: the criterion of a test of the first kind, and one that fails (Table 20-3). -/
theorem test_criteria :
    meetsCriterion wOn { block := 3 } 0x100 = true ∧ meetsCriterion wOn { block := 3 } 1 = false ∧ meetsCriterion wOn { block := 7 } 100000 = true
    ∧ meetsCriterion wOn { block := 7 } 100001 = false := by decide +kernel

end Sys2Proof.Tests
end

namespace Sys2Proof.HostRegisters

open Sys2Proof Sys2Proof.Machine

/-! ### The component registers (R313, log 105) -/

/-- REGISTER_WRITE of a component register while the link is up. -/
theorem registerWrite_comp {s : State} {off : Nat} (v : Nat) (hup : s.cxl.up = true) (h8 : off % 8 = 0) (hoff : off < 0x00010000) :
    registerWrite s off v = s.modCxl fun x => { x with comp := tput 0 x.comp (off / 8) v } := by
  have hwinsel : off ≠ 0x00010008 := by omega
  simp [registerWrite, hup, h8, hoff, hwinsel]

/-- A read of a component register. -/
theorem bar0Read_comp (s : State) {off : Nat} (h8 : off % 8 = 0) (hoff : off < 0x00010000) : bar0Read s off = tget 0 s.cxl.comp (off / 8) := by
  simp [bar0Read, h8, hoff]

/-- What a component register reads after a write of it: the table's own read after the table's own write, whatever the table held. -/
theorem bar0Read_registerWrite_comp {s : State} {off : Nat} (v : Nat) (hup : s.cxl.up = true) (h8 : off % 8 = 0) (hoff : off < 0x00010000) :
    bar0Read (registerWrite s off v) off = tget 0 (tput 0 s.cxl.comp (off / 8) v) (off / 8) := by
  rw [bar0Read_comp _ h8 hoff, registerWrite_comp v hup h8 hoff, State.modCxl_cxl]

/-- The clause of O53 on the component registers holds where their table is canonical, as every table is that writes have made of the
empty one. -/
theorem bar0Read_registerWrite_comp_of_tabWf {s : State} {off : Nat} (v : Nat) (hup : s.cxl.up = true) (h8 : off % 8 = 0) (hoff : off < 0x00010000)
    (hwf : tabWf 0 s.cxl.comp = true) : bar0Read (registerWrite s off v) off = v := by
  rw [bar0Read_registerWrite_comp v hup h8 hoff, tget_tput_same 0 _ v hwf]

/-- The counterexample to O53: a part that is on, with its link up, whose table of component registers lists the register at offset 0
twice. -/
def listedTwice : State :=
  { State.reset with start := { State.reset.start with pwrok := true }, cxl := { State.reset.cxl with up := true, comp := [(0, 1), (0, 2)] } }

theorem listedTwice_meets : Meets listedTwice listedTwice := by
  unfold Meets
  decide +kernel

/-- A write of 0 takes only the first of the two entries away, so the register then reads 2. -/
theorem bar0Read_listedTwice_zeroed : bar0Read (registerWrite listedTwice 0 0) 0 = 2 := by
  rw [bar0Read_registerWrite_comp 0 rfl rfl (by decide)]
  rfl

/-- Refutes O53: it lets the table of component registers be any list, and where that list names a register twice a write of 0, which
takes one entry away, does not read back as 0. The counterexample is `listedTwice`. With a canonical table the clause holds
(`bar0Read_registerWrite_comp_of_tabWf`). -/
theorem not_hostRegisters : ¬ Obligations.HostRegisters := by
  unfold Obligations.HostRegisters
  intro h
  obtain ⟨-, -, hLinkUp, -⟩ := h 0 0 0 listedTwice listedTwice listedTwice_meets
  obtain ⟨-, -, -, -, -, -, -, -, -, hComp⟩ := hLinkUp rfl
  obtain ⟨t, hExec, hRead⟩ := hComp rfl (by decide)
  rw [exec_registerWrite, run_meets listedTwice_meets] at hExec
  injection hExec with ht
  rw [← ht] at hRead
  exact absurd (bar0Read_listedTwice_zeroed.symm.trans hRead) (by decide)

end Sys2Proof.HostRegisters

namespace Sys2Proof.UnitWords

open Sys2Proof Sys2Proof.Machine

/-! ### Unit words at a waiting core (R116) -/

/-- OP of a program word (R118). -/
@[simp] theorem wOp_mkWord (op : BitVec 8) (f : BitVec 120) : wOp (mkWord op f) = op.toNat := by
  have hlt : op.toNat < 2 ^ 8 := op.isLt
  unfold wOp mkWord bitsAt
  rw [BitVec.toNat_append, ← Nat.shiftLeft_add_eq_or_of_lt hlt, Nat.shiftLeft_eq]
  omega

/-- The words of the matrix array belong to one of its units. -/
theorem unitOf_array {w : W128} (h : wOp w < 0x10) : unitOf w ≠ 0 := by
  unfold unitOf
  simp only [h, if_true]
  split <;> [decide; (split <;> decide)]

/-- The dispatch of a word changes no accumulator entry. -/
theorem foundEngine_acc (a : State) (n : Nat) (w : W128) : (foundEngine a n w).acc = (a.core n).run.eng.acc := by
  simp only [foundEngine, Engine.count, queued]
  split
  · split <;> rfl
  · split
    · split <;> rfl
    · rfl

/-- The type check of R64 and R97 looks at the accumulators only, which fetch and dispatch leave. -/
theorem clash_dispatched {a : State} {n : Nat} {w : W128} (h : (a.core n).mode = .running) :
    clash ((dispatched a n w).core n).run w = clash (queued a n w (a.core n).run) w := by
  rw [dispatched_core w h]
  rfl

/-- A program row whose word its unit executes at once. -/
theorem exec_executes {i : Instr} {c : CoreId} {w : W128} {s a : State} {g : Engine} {wr : List (Nat × List Byte)} {o : UOut}
    (hw : wordOf i = some (c, w)) (m : Meets s a) (h : Accepts a c w) (hu : unitOf w ≠ 0)
    (hm : wOp w ≠ 0x03 ∨ ∀ r ∈ writeRows w, r ∉ heldRows a c)
    (hr : runEntry (dispatched a c w) c 0 (wordEntry a c w) = some (applyOut (dispatched a c w) c 0 (wordEntry a c w) o)) (ho : o = .ok g wr) :
    exec i s = .next (executed a c w g wr) := by
  subst ho
  rw [exec_word hw m, issueWord_ok h hu hm hr]

/-- A core whose one queued word cannot execute yet, with nothing fetched, is at rest. -/
theorem pump_waits {s : State} {n : Nat} {e : QWord} (k : Nat) (hp : (s.core n).run.prog = []) (hq : (s.core n).run.q = [e])
    (hg : e.gate = none) (hr : runEntry s n 0 e = none) : pumpCore n k s = s := by
  have hx : executeOne s n = none := by
    have hpass : passGate (s.core n).run = none := by simp [passGate, hq, hg]
    simp [executeOne, hpass, hq, runFrom, hr]
  have hd : dispatchOne s n = none := by simp [dispatchOne, hp]
  cases k with
  | zero => rfl
  | succ k => rw [pumpCore, hx]; simp only [hd]

/-- Table 6-1: every queue has room for a word. -/
theorem queueCap_pos (u : Nat) : 0 < queueCap u := by
  unfold queueCap
  split <;> omega

/-- The issue unit fetches and dispatches the word of a program row that it accepts, and goes on from there. -/
theorem exec_dispatches {i : Instr} {c : CoreId} {w : W128} {s a : State} (hw : wordOf i = some (c, w)) (m : Meets s a) (h : Accepts a c w)
    (hu : unitOf w ≠ 0) : exec i s = .next (pumpCore c 71 (dispatched a c w)) := by
  have hg : wOp w ≠ 0x11 := fun e => hu (by simp [unitOf, e])
  rw [exec_word hw m, issueWord_waiting h.1 hu (queueCap_pos _) h.2 hg]

/-- The fetch queue and the unit's queue of a core that has dispatched the word it waited for. -/
theorem dispatched_queues {a : State} {n : Nat} (w : W128) (h : Waiting a n) :
    ((dispatched a n w).core n).run.prog = [] ∧ ((dispatched a n w).core n).run.q = [wordEntry a n w] := by
  obtain ⟨hmode, -, hprog, -, -, -, -, -, -⟩ := h
  rw [dispatched_core w hmode]
  exact ⟨hprog, rfl⟩

/-- A program row whose word waits in its unit's queue after the dispatch. -/
theorem exec_waits {i : Instr} {c : CoreId} {w : W128} {s a : State} (hw : wordOf i = some (c, w)) (m : Meets s a) (h : Accepts a c w)
    (hu : unitOf w ≠ 0) (hr : runEntry (dispatched a c w) c 0 (wordEntry a c w) = none) : exec i s = .next (dispatched a c w) := by
  obtain ⟨hprog, hq⟩ := dispatched_queues w h.1
  rw [exec_dispatches hw m h hu, pump_waits 71 hprog hq rfl hr]

end Sys2Proof.UnitWords

namespace Sys2Proof.ArrayWords

open Sys2Proof Sys2Proof.Machine Sys2Proof.UnitWords

/-! ### ASTAT, ADRAIN and ALOAD (R55 to R57, R67, R68, R86) -/

/-- ASTAT of rows that read without error. -/
theorem runAstat_ok {v : View} (e : Engine) {w : W128} (h : v.badOf (readRows w) = []) :
    runAstat v e w = .ok ((e.setBuf (wf w 8 1)
      { full := true, fmt := wf w 10 5, tokens := wf w 48 9, blocks := wf w 57 4, cols := astatTile v w, dead := []
        elem := v.bytes (wf w 16 16) 0 (256 * vecElemBytes (wf w 10 5))
        scale := if fdScaled (wf w 10 5) then v.bytes (wf w 32 16) 0 (256 * vecScaleBytes (wf w 10 5)) else [] }).count 0x0238
      ((astatTile v w).foldl (fun n k => n + zeros k) 0)) [] := by
  unfold runAstat
  rw [h]

/-- ADRAIN of entries that read without error, with no trap enabled: it leaves the accumulators, and every piece that it writes is the
element plane or the scale plane of one of its tiles. -/
theorem runAdrain_ok {v : View} {e : Engine} {w : W128} (seed : W64) (h : v.badOf (readRows w) = []) (ht : e.trap = 0)
    (ha : accBad e.acc (wf w 8 2 * 512 + wf w 10 9) (wf w 19 10) = false) :
    ∃ g wr, runAdrain v e w seed = .ok g wr ∧ g.acc = e.acc
      ∧ ∀ x ∈ wr, ∃ j < wf w 19 10 / depthOf (classOf (fdCode (convOf (wf w 64 16)).tfmt)),
          x.1 = (wf w 32 16 + j * tileRows (convOf (wf w 64 16)).tfmt 256) * 512
          ∨ x.1 = (wf w 48 16 + j * tileScaleRows (convOf (wf w 64 16)).tfmt 256) * 512 := by
  unfold runAdrain
  rw [h]
  simp only [ha, Bool.false_eq_true, if_false]
  refine ⟨_, _, finish_ok (by simp [ht]), rfl, fun x hx => ?_⟩
  simp only [List.mem_flatMap, List.mem_map, List.mem_range, List.mem_cons] at hx
  obtain ⟨-, ⟨j, hj, rfl⟩, rfl | hscale⟩ := hx
  · exact ⟨j, hj, .inl rfl⟩
  · split at hscale
    · rw [List.mem_singleton] at hscale
      exact ⟨j, hj, .inr (by rw [hscale])⟩
    · cases hscale

/-- Settles O9: each word's unit executes it at once, and what the unit gives is `runAstat_ok`, `runAdrain_ok` and `runAload`. -/
theorem arrayLoadDrain : Obligations.ArrayLoadDrain := by
  unfold Obligations.ArrayLoadDrain
  intro c f s a m
  refine ⟨?astat, ?adrain, ?aload⟩
  case astat =>
    rintro w rfl hacc hbad
    have hop : wOp (mkWord 0x01 f) = 1 := wOp_mkWord 0x01 f
    refine exec_executes rfl m hacc (unitOf_array (by omega)) (.inl (by omega)) (runEntry_astat hop) ?_
    rw [viewOf_dispatched hacc.1.1, foundEngine_eq hacc.1.1]
    exact runAstat_ok _ hbad
  case adrain =>
    rintro w rfl hacc hbad hheld htrap hent
    have hop : wOp (mkWord 0x03 f) = 3 := wOp_mkWord 0x03 f
    rw [← foundEngine_acc a c (mkWord 0x03 f)] at hent ⊢
    obtain ⟨g, wr, hrun, hg, hwr⟩ := runAdrain_ok (wordEntry a c (mkWord 0x03 f)).seed hbad htrap hent
    refine ⟨g, wr, hrun, ?_, hg, hwr⟩
    refine exec_executes rfl m hacc (unitOf_array (by omega)) (.inr hheld) (runEntry_adrain hop) ?_
    rw [viewOf_dispatched hacc.1.1, foundEngine_eq hacc.1.1]
    exact hrun
  case aload =>
    rintro w rfl hacc hbad
    have hop : wOp (mkWord 0x04 f) = 4 := wOp_mkWord 0x04 f
    refine exec_executes rfl m hacc (unitOf_array (by omega)) (.inl (by omega)) (runEntry_aload hop) ?_
    rw [viewOf_dispatched hacc.1.1, foundEngine_eq hacc.1.1]
    show runAload _ _ (mkWord 0x04 f) = _
    unfold runAload
    rw [hbad]

/-! ### AMUL (R59 to R65, R79 to R87) -/

/-- AMUL over the COUNT vectors of a local source, all of which read without error, with no trapped flag. -/
theorem runAmulLocal_ok {v : View} {e : Engine} {w : W128}
    (hgood : localGood v w (wf w 48 16) (wf w 64 16) (wf w 28 10) = (wf w 28 10, []))
    (htrap : (amulApply e w (localVectors v w (wf w 48 16) (wf w 64 16) (wf w 28 10))).2 &&& e.trap = 0) :
    runAmulLocal v e w = .ok (flagged (amulApply e w (localVectors v w (wf w 48 16) (wf w 64 16) (wf w 28 10))).1
      (amulApply e w (localVectors v w (wf w 48 16) (wf w 64 16) (wf w 28 10))).2 0) [] := by
  simp only [runAmulLocal, hgood, finish_ok htrap, List.isEmpty_nil, if_true]

/-- An AMUL word that has taken no vector waits at an empty weight intake (R61, R62). -/
theorem runStream_amul_empty {s : State} {n i : Nat} {e : QWord} (hop : wOp e.word = 0x02) (htaken : e.taken = [])
    (hin : (s.core n).run.eng.intake = []) : runStream s n i e = none := by
  simp [runStream, hop, htaken, hin, takeVecs]

/-- Settles O10: a local word executes over its COUNT vectors (`runAmulLocal_ok`), and a stream word finds nothing to take
(`runStream_amul_empty`). -/
theorem arrayMultiply : Obligations.ArrayMultiply := by
  unfold Obligations.ArrayMultiply
  intro i c w s a hw hop m hacc hclash
  have hu : unitOf w ≠ 0 := unitOf_array (by omega)
  have hrun := runEntry_amul (i := 0) (e := wordEntry a c w) hop ((clash_dispatched hacc.1.1).trans hclash)
  refine ⟨fun hsrc hgood htrap => ?rows, fun hsrc hin => ?stream⟩
  case rows =>
    refine exec_executes hw m hacc hu (.inl (by omega)) (hrun.trans (if_pos hsrc)) ?_
    rw [viewOf_dispatched hacc.1.1, foundEngine_eq hacc.1.1]
    exact runAmulLocal_ok hgood htrap
  case stream =>
    refine exec_waits hw m hacc hu ((hrun.trans (if_neg (by show wf w 16 1 ≠ 1; omega))).trans ?_)
    refine runStream_amul_empty hop rfl ?_
    rw [foundEngine_eq hacc.1.1]
    exact hin

end Sys2Proof.ArrayWords

namespace Sys2Proof.IssueFaults

open Sys2Proof Sys2Proof.Machine Sys2Proof.UnitWords

/-! ### The record of a program fault (R128, R129) -/

/-- What a program fault records at its running core. -/
theorem recordFault_fault {s : State} {n : Nat} (cause unit pc : Nat) (w : W128) (data : Nat) (h : (s.core n).mode = .running) :
    ((recordFault s n cause unit pc w data).core n).fault
      = { cause := cause, unit := unit, multi := false, ctx := (s.core n).ctx, valid := true, pc := pc, word := w, data := BitVec.ofNat 64 data } := by
  unfold recordFault State.modCore
  rw [core_setCore]
  simp [h]

/-- The record of a program fault changes no other core. -/
theorem recordFault_other (s : State) {n m : Nat} (cause unit pc : Nat) (w : W128) (data : Nat) (h : m ≠ n) :
    (recordFault s n cause unit pc w data).core m = s.core m :=
  tget_tput_other ({} : Core) s.cores _ h

/-- A program fault of context 0, or of a context that is torn down already, is recorded and tears nothing down. -/
theorem programFault_recorded {s : State} {n : Nat} (cause unit pc : Nat) (w : W128) (data : Nat)
    (h : (s.ctx (s.core n).ctx).faulted = true ∨ (s.core n).ctx = 0) :
    programFault s n cause unit pc w data = recordFault s n cause unit pc w data := by
  have hctx : ∀ k, (recordFault s n cause unit pc w data).ctx k = s.ctx k := fun _ => rfl
  unfold programFault tearDown
  rw [hctx]
  refine if_pos ?_
  rcases h with h | h
  · exact .inr (.inl h)
  · exact .inl h

/-! ### Faults at fetch and at issue (Table 6-9, R126, R442) -/

/-- With nothing fetched nothing is dispatched. -/
theorem dispatchOne_empty {s : State} {n : Nat} (h : (s.core n).run.prog = []) : dispatchOne s n = none := by
  simp [dispatchOne, h]

/-- A word at a core that its fetch stops, or that is stopped already, does what its fetch does. -/
theorem issueWord_fetch_stops {a t : State} {n : Nat} {w : W128} (hf : fetchWord a n w = t) (ht : (t.core n).mode ≠ .running) :
    issueWord a n w = t := by
  unfold issueWord
  rw [hf]
  exact pump_stopped _ ht

/-- A word whose dispatch, the first thing that happens after the fetch, stops its core. -/
theorem issueWord_dispatch_stops {a t : State} {n : Nat} {w : W128} (hx : executeOne (fetchWord a n w) n = none)
    (hd : dispatchOne (fetchWord a n w) n = some t) (ht : (t.core n).mode ≠ .running) : issueWord a n w = t := by
  obtain ⟨k, hk⟩ : ∃ k, pumpFuel ((fetchWord a n w).core n).run = k + 1 := ⟨_, rfl⟩
  unfold issueWord
  simp only [hk, pumpCore, hx, hd]
  exact pump_stopped k ht

/-- A stopped core fetches nothing. -/
theorem fetchWord_stopped {a : State} {n : Nat} (w : W128) (h : (a.core n).mode ≠ .running) : fetchWord a n w = a := by
  simp [fetchWord, h]

/-- R126: a fetch address outside the program's memory. -/
theorem fetchWord_outside {a : State} {n : Nat} (w : W128) (hm : (a.core n).mode = .running) (he : (a.core n).run.ended = false)
    (hp : (a.core n).run.prog = []) (hf : fetchOk a n (a.core n).run.progPc = false) :
    fetchWord a n w = programFault a n 0x0A 0 (a.core n).run.progPc 0 (a.core n).run.progPc := by
  simp [fetchWord, hm, he, hp, hf]

/-- R442: a poisoned word. -/
theorem fetchWord_poisoned {a : State} {n : Nat} (w : W128) (hm : (a.core n).mode = .running) (he : (a.core n).run.ended = false)
    (hp : (a.core n).run.prog = []) (hf : fetchOk a n (a.core n).run.progPc = true) (hb : isPoisoned a (a.core n).run.progPc 16 = true) :
    fetchWord a n w = unitUncorrRec (noteBad a (a.core n).run.progPc 16) n (a.core n).run.progPc := by
  simp [fetchWord, hm, he, hp, hf, hb]

/-- R118: the fetch of a word by a core that waits for one. -/
theorem fetchWord_waiting {a : State} {n : Nat} (w : W128) (h : Waiting a n) :
    fetchWord a n w = (noteRead a (a.core n).run.progPc 16).modRun n fun r =>
      { r with prog := [((a.core n).run.progPc, w)], progPc := (a.core n).run.progPc + 16 } := by
  obtain ⟨hmode, hended, hprog, -, hhi, -, -, hfetch, hpoison⟩ := h
  have he : fetchWord a n w = (noteRead a (a.core n).run.progPc 16).modRun n fun r =>
      { r with prog := r.prog ++ [(r.progPc, w)], progPc := r.progPc + 16 } := by
    simp [fetchWord, hmode, hended, hprog, hhi, hfetch, hpoison]
  rw [he]
  exact modRun_congr _ _ (by simp [hprog])

/-- The core that has fetched the word it waited for. -/
theorem fetchWord_core {a : State} {n : Nat} (w : W128) (h : Waiting a n) :
    (fetchWord a n w).core n = { a.core n with run := { (a.core n).run with
      prog := [((a.core n).run.progPc, w)], progPc := (a.core n).run.progPc + 16 } } := by
  have hn : ((noteRead a (a.core n).run.progPc 16).core n).mode ≠ .idle := by
    rw [core_noteRead, h.1]
    decide
  rw [fetchWord_waiting w h, core_modRun _ _ _ hn, core_noteRead]

/-- R117, Table 6-9: a core that waited for a word dispatches it into a program fault where a check at issue refuses it. -/
theorem dispatchOne_refused {a : State} {n : Nat} {w : W128} {cause data : Nat} (h : Waiting a n) (hg : wOp w ≠ 0x11)
    (hf : issueFault (a.core n).run w = some (cause, data)) :
    dispatchOne (fetchWord a n w) n = some (programFault (fetchWord a n w) n cause (if cause = 9 ∨ cause = 0x0B then 0 else unitOf w)
      (a.core n).run.progPc w data) := by
  have hc := fetchWord_core w h
  obtain ⟨hmode, hended, -, hpos, -, hloops, hq, -, -⟩ := h
  have hissue : issueFault ((fetchWord a n w).core n).run w = some (cause, data) := by rw [hc]; exact hf
  have hroom : queueRoom ((fetchWord a n w).core n).run (unitOf w) = true := by
    simp [queueRoom, hc, hq, queueCap_pos]
  have hword : ((fetchWord a n w).core n).run.prog[((fetchWord a n w).core n).run.pos]? = some ((a.core n).run.progPc, w) := by
    simp [hc, hpos]
  have hstride : strideWord ((fetchWord a n w).core n).run.loops ((fetchWord a n w).core n).run.pos w = some w := by
    simp [hc, hloops]
  have hgo : ¬(((fetchWord a n w).core n).mode ≠ .running ∨ ((fetchWord a n w).core n).run.ended = true) := by
    simp [hc, hmode, hended]
  unfold dispatchOne
  simp only [hgo, if_false, hword, hstride, hg, hroom, hissue, Bool.not_true, Bool.and_false, Bool.false_eq_true]

/-- R128: a word that a check at issue refuses, at a core that its fault stops. -/
theorem issueWord_refused {a : State} {n : Nat} {w : W128} {cause data : Nat} (h : Waiting a n) (hg : wOp w ≠ 0x11)
    (hf : issueFault (a.core n).run w = some (cause, data))
    (ht : ((programFault (fetchWord a n w) n cause (if cause = 9 ∨ cause = 0x0B then 0 else unitOf w) (a.core n).run.progPc w data).core n).mode
      ≠ .running) :
    issueWord a n w
      = programFault (fetchWord a n w) n cause (if cause = 9 ∨ cause = 0x0B then 0 else unitOf w) (a.core n).run.progPc w data := by
  refine issueWord_dispatch_stops (executeOne_empty ?_) (dispatchOne_refused h hg hf) ht
  rw [fetchWord_core w h]
  obtain ⟨-, -, -, -, -, -, hq, -, -⟩ := h
  exact hq

/-! ### A trapped flag (R52) -/

/-- The queue of one entry counts at most one fault. -/
theorem faultsFrom_singleton (s : State) (n : Nat) (held : List Nat) (e : QWord) : faultsFrom s n held 0 [] [e] ≤ 1 := by
  simp only [faultsFrom]
  split
  · unfold b2n
    split <;> simp
  · simp

/-- R128: a core with one queued word and nothing to dispatch records no fault with MULTI. -/
theorem markMulti_alone {s : State} {n : Nat} {e : QWord} (held : List Nat) (s' : State) (hq : (s.core n).run.q = [e])
    (hd : dispatchOne s n = none) : markMulti s n held s' = s' := by
  have hone := faultsFrom_singleton s n held e
  have hlt : ¬2 ≤ faultsFrom s n held 0 [] [e] := by omega
  simp [markMulti, hq, hd, b2n, hlt]

/-- A running core with nothing fetched executes its one queued word. -/
theorem pump_step_alone {s s' : State} {n : Nat} {e : QWord} (k : Nat) (h : (s.core n).mode = .running) (hp : (s.core n).run.prog = [])
    (hq : (s.core n).run.q = [e]) (hg : e.gate = none) (hd : e.done = false) (hk : e.kick = none)
    (hm : mayRun (heldRows s n) [] e = true) (hr : runEntry s n 0 e = some s') : pumpCore n (k + 1) s = pumpCore n k s' := by
  have hpass : passGate (s.core n).run = none := by simp [passGate, hq, hg]
  have hx : executeOne s n = some s' := by
    simp [executeOne, h, hpass, hq, runFrom, hg, hd, hk, hm, hr, markMulti_alone _ _ hq (dispatchOne_empty hp)]
  rw [pumpCore, hx]

/-- A program row whose word is executed by its unit, whatever that does. -/
theorem exec_steps {i : Instr} {c : CoreId} {w : W128} {s a s' : State} (hw : wordOf i = some (c, w)) (m : Meets s a) (h : Accepts a c w)
    (hu : unitOf w ≠ 0) (hop : wOp w ≠ 0x03) (hr : runEntry (dispatched a c w) c 0 (wordEntry a c w) = some s') :
    exec i s = .next (pumpCore c 70 s') := by
  obtain ⟨hprog, hq⟩ := dispatched_queues w h.1
  have hmode : ((dispatched a c w).core c).mode = .running := by
    rw [dispatched_core w h.1.1]
    exact h.1.1
  rw [exec_dispatches hw m h hu, pump_step_alone 70 hmode hprog hq rfl rfl rfl (mayRun_alone hop) hr]

/-- Table 5-8: the groups of the elementwise words with a register result. -/
def laneGroups : List VGroup := [.arith, .integer, .cvt, .root, .trans]

/-- Table 5-8: the operation codes of the elementwise words lie in 0x40 to 0x7F. -/
theorem range_of_laneGroups {o : Nat} (h : vGroup o ∈ laneGroups) : 0x40 ≤ o ∧ o < 0x80 := by
  by_contra hout
  have hnone : vGroup o = .none := by simp (disch := omega) only [vGroup, if_neg]
  rw [hnone] at h
  exact absurd h (by decide)

/-- Table 6-1: the words of 0x40 to 0x7F belong to the vector unit. -/
theorem unitOf_vector {w : W128} (hlo : 0x40 ≤ wOp w) (hhi : wOp w < 0x80) : unitOf w = 7 := by
  simp (disch := omega) only [unitOf, if_neg, if_pos]

/-- R104: a word of the elementwise groups is one of the lanes' own. -/
theorem runVector_lanes (v : View) (e : Engine) {w : W128} (seed : W64) (h : vGroup (wOp w) ∈ laneGroups) :
    runVector v e w seed = runVecLanes (e.count 0x02C0 1) w := by
  simp only [laneGroups, List.mem_cons, List.not_mem_nil, or_false] at h
  rcases h with h | h | h | h | h
  all_goals simp only [runVector, h]

/-- The flags that an elementwise word raises: those of its active lanes (R51). -/
def laneFlags (e : Engine) (w : W128) : BitVec 7 :=
  (activeLanes e w).foldl (fun f l => f ||| (vecLane (wOp w) (vlane e (wf w 13 5) l) (operandB e w l) (vlane e (wf w 23 5) l)).2) 0

/-- R52: an elementwise word that raises a trapped flag leaves the engine as it was. -/
theorem runVecLanes_trapped {e : Engine} {w : W128} (h : laneFlags e w &&& e.trap ≠ 0) :
    runVecLanes e w = .fault e 0x02 (BitVec.ofNat 64 (laneFlags e w).toNat) := by
  have hfl : laneFlags e w = ((activeLanes e w).map fun l =>
      (l, vecLane (wOp w) (vlane e (wf w 13 5) l) (operandB e w l) (vlane e (wf w 23 5) l))).foldl (fun f o => f ||| o.2.2) 0 := by
    rw [laneFlags, List.foldl_map]
  rw [hfl] at h ⊢
  simp only [runVecLanes, finish, bne_iff_ne.mpr h, if_true]

/-- What the vector unit does with a trapped elementwise word, at a core that has dispatched it. -/
theorem runEntry_trapped {a : State} {n : Nat} {w : W128} (h : (a.core n).mode = .running) (hg : vGroup (wOp w) ∈ laneGroups)
    (htrap : laneFlags ((foundEngine a n w).count 0x02C0 1) w &&& ((foundEngine a n w).count 0x02C0 1).trap ≠ 0) :
    runEntry (dispatched a n w) n 0 (wordEntry a n w)
      = some (programFault ((dispatched a n w).modEng n fun _ => (foundEngine a n w).count 0x02C0 1) n 0x02 7 (a.core n).run.progPc w
          (laneFlags ((foundEngine a n w).count 0x02C0 1) w).toNat) := by
  obtain ⟨hlo, hhi⟩ := range_of_laneGroups hg
  have hdata (fl : BitVec 7) : (BitVec.ofNat 64 fl.toNat).toNat = fl.toNat := by
    rw [BitVec.toNat_ofNat, Nat.mod_eq_of_lt (by omega)]
  have hrun : runEntry (dispatched a n w) n 0 (wordEntry a n w) = some (applyOut (dispatched a n w) n 0 (wordEntry a n w)
      (runVector (viewOf a n) (foundEngine a n w) w (wordEntry a n w).seed)) := by
    rw [runEntry_vector hlo, viewOf_dispatched h, foundEngine_eq h]
    rfl
  have hunit : (wordEntry a n w).unit = 7 := unitOf_vector hlo hhi
  rw [hrun, runVector_lanes _ _ _ hg, runVecLanes_trapped htrap]
  simp only [applyOut, hunit, hdata]
  rfl

/-- Settles O15: the faults at fetch and at issue stop the pump (`issueWord_fetch_stops`, `issueWord_refused`), the record is `recordFault`'s,
and a trapped word is the core's only queued word, so its fault is the one that its unit raises (`runEntry_trapped`). -/
theorem programFaults : Obligations.ProgramFaults := by
  unfold Obligations.ProgramFaults
  refine ⟨fun i c w s a hw m => ?atIssue, fun s n cause unit pc data w h => ?record, fun i c w s a hw m hacc hg => ?trapped⟩
  case atIssue =>
    rw [exec_word hw m]
    refine ⟨fun cause data h hop hf => ?refused, fun hm he hp hf => ?outside, fun pc hm he hp hpc hf hb => ?poisoned, fun hm => ?stopped⟩
    case refused =>
      intro pc t
      have hfetch : t = programFault (fetchWord a c w) c cause (if cause = 9 ∨ cause = 0x0B then 0 else unitOf w) pc w data := by
        rw [fetchWord_waiting w h]
      rw [hfetch]
      exact fun ht => congrArg _ (issueWord_refused h hop hf ht)
    case outside => exact fun ht => congrArg _ (issueWord_fetch_stops (fetchWord_outside w hm he hp hf) ht)
    case poisoned =>
      subst hpc
      exact fun ht => congrArg _ (issueWord_fetch_stops (fetchWord_poisoned w hm he hp hf hb) ht)
    case stopped => exact congrArg _ (issueWord_fetch_stops (fetchWord_stopped w hm) hm)
  case record =>
    exact ⟨recordFault_fault cause unit pc w data h, fun k hk => recordFault_other s cause unit pc w data hk
      , programFault_recorded cause unit pc w data⟩
  case trapped =>
    intro e fl htrap
    obtain ⟨hlo, hhi⟩ := range_of_laneGroups hg
    have hunit := unitOf_vector hlo hhi
    exact exec_steps hw m hacc (by omega) (by omega) (runEntry_trapped hacc.1.1 hg htrap)

end Sys2Proof.IssueFaults

namespace Sys2Proof.UnitWordFrame

open Sys2Proof Sys2Proof.Machine

/-! ### What no word of an engine touches (R116, R140) -/

/-- The parts of the block that stand outside the cores and their memory are the same in both states. -/
structure SameSurroundings (s t : State) : Prop where
  ctxs : t.ctxs = s.ctxs
  rakes : t.rakes = s.rakes
  trays : t.trays = s.trays
  pegs : t.pegs = s.pegs
  cxl : t.cxl = s.cxl
  salt : t.salt = s.salt
  hostMem : t.hostMem = s.hostMem
  faults : t.faults = s.faults
  pending : t.pending = s.pending
  units : t.units = s.units

theorem SameSurroundings.refl (s : State) : SameSurroundings s s := ⟨rfl, rfl, rfl, rfl, rfl, rfl, rfl, rfl, rfl, rfl⟩

theorem SameSurroundings.trans {s t u : State} (h : SameSurroundings s t) (k : SameSurroundings t u) : SameSurroundings s u :=
  ⟨k.ctxs.trans h.ctxs, k.rakes.trans h.rakes, k.trays.trans h.trays, k.pegs.trans h.pegs, k.cxl.trans h.cxl, k.salt.trans h.salt
    , k.hostMem.trans h.hostMem, k.faults.trans h.faults, k.pending.trans h.pending, k.units.trans h.units⟩

/-- The correction of a row (R144). -/
theorem sameSurroundings_correctRow (s : State) (k : Nat) : SameSurroundings s (correctRow s k) :=
  ⟨rfl, rfl, rfl, rfl, rfl, rfl, rfl, rfl, rfl, rfl⟩

/-- A write of local memory. -/
theorem sameSurroundings_writeMem (s : State) (a : Nat) (l : List Byte) : SameSurroundings s (writeMem s a l) := by
  unfold writeMem
  simp only [Bool.false_eq_true, if_false]
  split
  · exact ⟨rfl, rfl, rfl, rfl, rfl, rfl, rfl, rfl, rfl, rfl⟩
  · split <;> exact ⟨rfl, rfl, rfl, rfl, rfl, rfl, rfl, rfl, rfl, rfl⟩

/-! ### Corrected reads (R144, R147) -/

/-- What holds before the corrections of a word's reads, and every correction of one of its rows keeps, holds after them. -/
theorem softReads_induction {P : State → Prop} {s : State} {n : Nat} {w : W128} (h : P s)
    (hk : ∀ t, P t → ∀ r ∈ readRows w, P (correctRow t (rowKey n ((s.core n).run.rowBase + r)))) : P (softReads s n w) := by
  refine List.foldlRecOn _ _ h fun t ht k hmem => ?_
  obtain ⟨r, hr, rfl⟩ := List.mem_map.mp hmem
  split
  · exact hk t ht r hr
  · exact ht

/-- A corrected row is one of its own core's. -/
theorem correctRow_other {s : State} {n m r : Nat} (hr : r < 49152) (h : m ≠ n) : (correctRow s (rowKey n r)).core m = s.core m := by
  have hn : rowKey n r / 49152 = n := by
    unfold rowKey
    omega
  exact tget_tput_other ({} : Core) s.cores _ (by rwa [hn])

/-- The corrections of a word's reads, of rows that lie in the scratchpad, leave every other core. -/
theorem softReads_other {s : State} {n m : Nat} {w : W128} (hrows : ∀ r ∈ readRows w, (s.core n).run.rowBase + r < 49152) (h : m ≠ n) :
    (softReads s n w).core m = s.core m :=
  softReads_induction (P := fun t => t.core m = s.core m) rfl fun _ ht r hr => (correctRow_other (hrows r hr) h).trans ht

/-- The correction of a row leaves a busy core's context and fault record. -/
theorem correctRow_ctx_fault {s : State} {n : Nat} (k : Nat) (h : (s.core n).mode ≠ .idle) :
    ((correctRow s k).core n).ctx = (s.core n).ctx ∧ ((correctRow s k).core n).fault = (s.core n).fault := by
  by_cases e : n = k / 49152
  · subst e
    unfold correctRow State.modCore
    rw [core_setCore s _ (by exact h)]
    exact ⟨rfl, rfl⟩
  · have hc : (correctRow s k).core n = s.core n := tget_tput_other ({} : Core) s.cores _ e
    rw [hc]
    exact ⟨rfl, rfl⟩

/-- The corrections of a word's reads leave a busy core's context and fault record. -/
theorem softReads_ctx_fault {s : State} {n : Nat} (w : W128) (h : (s.core n).mode ≠ .idle) :
    ((softReads s n w).core n).ctx = (s.core n).ctx ∧ ((softReads s n w).core n).fault = (s.core n).fault := by
  obtain ⟨-, hctx, hfault⟩ : ((softReads s n w).core n).mode = (s.core n).mode ∧ ((softReads s n w).core n).ctx = (s.core n).ctx
      ∧ ((softReads s n w).core n).fault = (s.core n).fault := by
    refine softReads_induction (P := fun t => (t.core n).mode = (s.core n).mode ∧ (t.core n).ctx = (s.core n).ctx
      ∧ (t.core n).fault = (s.core n).fault) ⟨rfl, rfl, rfl⟩ ?_
    rintro t ⟨hm, hc, hf⟩ r -
    have hbusy : (t.core n).mode ≠ .idle := by rwa [hm]
    obtain ⟨hc', hf'⟩ := correctRow_ctx_fault (rowKey n ((s.core n).run.rowBase + r)) hbusy
    exact ⟨(correctRow_core _ hbusy).2.trans hm, hc'.trans hc, hf'.trans hf⟩
  exact ⟨hctx, hfault⟩

/-- The corrections of a word's reads change no byte of memory. -/
theorem softReads_mem (s : State) (n : Nat) (w : W128) : (softReads s n w).mem = s.mem :=
  softReads_induction (P := fun t => t.mem = s.mem) rfl fun _ ht _ _ => ht

/-- The corrections of a word's reads touch nothing but cores. -/
theorem sameSurroundings_softReads (s : State) (n : Nat) (w : W128) : SameSurroundings s (softReads s n w) :=
  softReads_induction (P := SameSurroundings s) (.refl s) fun _ ht _ _ => ht.trans (sameSurroundings_correctRow _ _)

/-! ### What a word writes (R140) -/

/-- A byte outside every piece that a word writes reads as before. -/
theorem writes_mem_other (base j : Nat) (wr : List (Nat × List Byte)) (s : State)
    (h : ∀ x ∈ wr, j < base + x.1 ∨ base + x.1 + x.2.length ≤ j) :
    tget 0 (wr.foldl (fun s x => writeMem s (base + x.1) x.2) s).mem j = tget 0 s.mem j := by
  refine List.foldlRecOn (motive := fun t : State => tget 0 t.mem j = tget 0 s.mem j) wr _ rfl fun t ht x hx => ?_
  rw [writeMem_mem, Memory.write_other _ _ _ (h x hx)]
  exact ht

/-- The pieces that a word writes touch nothing but memory. -/
theorem sameSurroundings_writes (base : Nat) (wr : List (Nat × List Byte)) (s : State) :
    SameSurroundings s (wr.foldl (fun s x => writeMem s (base + x.1) x.2) s) :=
  List.foldlRecOn wr _ (.refl s) fun _ ht _ _ => ht.trans (sameSurroundings_writeMem _ _ _)

/-! ### The executed word -/

section

variable {a : State} {n : Nat} {w : W128} {g : Engine} {wr : List (Nat × List Byte)}

/-- The core that has dispatched a word is busy. -/
theorem dispatched_busy (w : W128) (h : (a.core n).mode = .running) : ((dispatched a n w).core n).mode ≠ .idle := by
  rw [dispatched_core w h, h]
  decide

/-- The writes of an executed word come last, over what it leaves without them. -/
theorem executed_writes (a : State) (n : Nat) (w : W128) (g : Engine) (wr : List (Nat × List Byte)) :
    executed a n w g wr
      = wr.foldl (fun s x => writeMem s (rowAddr n (a.core n).run.rowBase + x.1) x.2) (executed a n w g []) := rfl

/-- The writes of an executed word change no core. -/
theorem executed_core_writes (g : Engine) (wr : List (Nat × List Byte)) (m : Nat) :
    (executed a n w g wr).core m = (executed a n w g []).core m := by
  rw [executed_writes]
  exact core_writes _ (fun _ x => rowAddr n (a.core n).run.rowBase + x.1) wr m

/-- The core of an executed word: its run is that of the dispatch but for the engine state and the queue. -/
theorem executed_core (g : Engine) (wr : List (Nat × List Byte)) (h : (a.core n).mode = .running) :
    (executed a n w g wr).core n = { (softReads (dispatched a n w) n w).core n with run :=
      { queued a n w { (a.core n).run with progPc := (a.core n).run.progPc + 16 } with
        eng := g, q := [{ wordEntry a n w with done := true }] } } := by
  obtain ⟨hrun, hmode⟩ := softReads_core w (dispatched_busy w h)
  have hbusy : ((softReads (dispatched a n w) n w).core n).mode ≠ .idle := hmode ▸ dispatched_busy w h
  rw [dispatched_core w h] at hrun
  have hcore := core_modRun _ n (fun r => { r with eng := g, q := [{ wordEntry a n w with done := true }] }) hbusy
  rw [hrun] at hcore
  exact (executed_core_writes g wr n).trans hcore

/-- An executed word leaves its core running, with its context and its fault record. -/
theorem executed_core_rest (g : Engine) (wr : List (Nat × List Byte)) (h : (a.core n).mode = .running) :
    ((executed a n w g wr).core n).mode = .running ∧ ((executed a n w g wr).core n).ctx = (a.core n).ctx
      ∧ ((executed a n w g wr).core n).fault = (a.core n).fault := by
  obtain ⟨-, hmode⟩ := softReads_core w (dispatched_busy w h)
  obtain ⟨hctx, hfault⟩ := softReads_ctx_fault w (dispatched_busy w h)
  rw [dispatched_core w h] at hmode hctx hfault
  rw [executed_core g wr h]
  exact ⟨hmode.trans h, hctx, hfault⟩

/-- An executed word, whose rows lie in the scratchpad, leaves every other core. -/
theorem executed_other {m : Nat} (g : Engine) (wr : List (Nat × List Byte)) (h : (a.core n).mode = .running)
    (hrows : ∀ r ∈ readRows w, (a.core n).run.rowBase + r < 49152) (hm : m ≠ n) : (executed a n w g wr).core m = a.core m := by
  have hbase : ((dispatched a n w).core n).run.rowBase = (a.core n).run.rowBase := by
    rw [dispatched_core w h]
    rfl
  calc (executed a n w g wr).core m = (executed a n w g []).core m := executed_core_writes g wr m
    _ = (softReads (dispatched a n w) n w).core m := tget_tput_other ({} : Core) _ _ hm
    _ = (dispatched a n w).core m := softReads_other (by rwa [hbase]) hm
    _ = a.core m := tget_tput_other ({} : Core) _ _ hm

/-- An executed word changes no byte outside the pieces that it wrote. -/
theorem executed_mem_other {j : Nat} (g : Engine)
    (h : ∀ x ∈ wr, j < rowAddr n (a.core n).run.rowBase + x.1 ∨ rowAddr n (a.core n).run.rowBase + x.1 + x.2.length ≤ j) :
    tget 0 (executed a n w g wr).mem j = tget 0 a.mem j := by
  have hread : (executed a n w g []).mem = a.mem := softReads_mem (dispatched a n w) n w
  rw [executed_writes, writes_mem_other _ j wr _ h, hread]

/-- An executed word changes nothing but cores and memory. -/
theorem sameSurroundings_executed (a : State) (n : Nat) (w : W128) (g : Engine) (wr : List (Nat × List Byte)) :
    SameSurroundings a (executed a n w g wr) := by
  obtain ⟨hctxs, hrakes, htrays, hpegs, hcxl, hsalt, hhost, hfaults, hpending, hunits⟩ := sameSurroundings_softReads (dispatched a n w) n w
  have hread : SameSurroundings a (executed a n w g []) :=
    ⟨hctxs, hrakes, htrays, hpegs, hcxl, hsalt, hhost, hfaults, hpending, hunits⟩
  rw [executed_writes]
  exact hread.trans (sameSurroundings_writes _ wr _)

end

/-- Settles O14: of its own core a word changes the run as `executed_core` says, of memory what it wrote (`executed_mem_other`), and its
corrected rows are its own core's (`executed_other`). -/
theorem wordFrame : Obligations.WordFrame := by
  unfold Obligations.WordFrame
  intro a n w g wr h hrows t
  obtain ⟨hmode, hctx, hfault⟩ := executed_core_rest (w := w) g wr h
  have hcore := executed_core (w := w) g wr h
  have hsame := sameSurroundings_executed a n w g wr
  refine ⟨fun m hm => executed_other g wr h hrows hm, hmode, hctx, hfault, ?_, ?_, ?_, ?_, ?_, ?_, ?_, fun j hj => executed_mem_other g hj
    , hsame.ctxs, hsame.rakes, hsame.trays, hsame.pegs, hsame.cxl, hsame.salt, hsame.hostMem, hsame.faults, hsame.pending, hsame.units⟩
  all_goals rw [hcore]
  all_goals rfl

end Sys2Proof.UnitWordFrame

namespace Sys2Proof.FurrowUnitWords

open Sys2Proof Sys2Proof.Machine Sys2Proof.UnitWords

/-! ### What the furrow's words find (R92, R98, R116) -/

/-- Table 6-1: the words of 0x20 to 0x2F belong to one of the furrow's units. -/
theorem unitOf_furrow {w : W128} (hlo : 0x20 ≤ wOp w) (hhi : wOp w < 0x30) : unitOf w ≠ 0 := by
  unfold unitOf
  simp (disch := omega) only [if_neg, if_pos hhi]
  split <;> [decide; (split <;> decide)]

/-- The dispatch of a word changes no accumulator of the furrow, no vector register and no flag. -/
theorem foundEngine_frame (a : State) (n : Nat) (w : W128) :
    (foundEngine a n w).facc = (a.core n).run.eng.facc ∧ (foundEngine a n w).vreg = (a.core n).run.eng.vreg
      ∧ (foundEngine a n w).flags = (a.core n).run.eng.flags := by
  simp only [foundEngine, Engine.count, queued]
  split
  · split <;> exact ⟨rfl, rfl, rfl⟩
  · split
    · split <;> exact ⟨rfl, rfl, rfl⟩
    · exact ⟨rfl, rfl, rfl⟩

/-- R98: the dispatch of FRES sets RVEC. -/
theorem foundEngine_rvec (a : State) (n : Nat) {w : W128} (h : wOp w = 0x21) : (foundEngine a n w).rvec = wf w 48 5 := by
  have hastat : ¬wOp w = 0x01 := by omega
  simp only [foundEngine, Engine.count, queued, if_neg hastat, if_pos h]
  split <;> rfl

/-- FDRAIN's entry holds RVEC as the dispatch found it (R98, R101). -/
theorem wordEntry_rvec (a : State) (n : Nat) {w : W128} (h : wOp w = 0x23) : (wordEntry a n w).rvec = (a.core n).run.eng.rvec := if_pos h

/-- The resident buffer just loaded. -/
theorem rbuf_setRbuf (e : Engine) (b : Nat) (x : SBuf) : (e.setRbuf b x).rbuf b = x := by
  unfold Engine.setRbuf Engine.rbuf
  split <;> rfl

/-- The load of a resident buffer leaves RVEC, the accumulators and the flags. -/
theorem setRbuf_frame (e : Engine) (b : Nat) (x : SBuf) :
    (e.setRbuf b x).rvec = e.rvec ∧ (e.setRbuf b x).facc = e.facc ∧ (e.setRbuf b x).flags = e.flags := by
  unfold Engine.setRbuf
  split <;> exact ⟨rfl, rfl, rfl⟩

/-! ### FRES, FMUL and FDRAIN (R96 to R98) -/

/-- The resident buffer that FRES loads (R96). -/
def fresBuf (v : View) (w : W128) : SBuf :=
  let d := wf w 10 5
  let n := wf w 48 5
  let depth := depthOf (classOf (fdCode d))
  let elem := v.bytes (wf w 16 16) 0 (n * vecElemBytes d)
  let scale := if fdScaled d then v.bytes (wf w 32 16) 0 (n * vecScaleBytes d) else []
  { full := true, fmt := d, tokens := n, blocks := wf w 53 4, dead := [], elem := elem, scale := scale
    cols := (List.range n).map fun t => decPlane d scale (t * depth) (((unpack (fdCode d) elem).drop (t * depth)).take (32 * wf w 53 4)) }

/-- FRES of rows that read without error. -/
theorem runFres_ok {v : View} (e : Engine) {w : W128} (h : v.badOf (readRows w) = []) :
    runFres v e w = .ok (e.setRbuf (wf w 8 1) (fresBuf v w)) [] := by
  unfold runFres fresBuf
  rw [h]

/-- FMUL over the COUNT vectors of a local source, all of which read without error, with no trapped flag. -/
theorem runFmulLocal_ok {v : View} {e : Engine} {w : W128}
    (hgood : localGood v w (wf w 48 16) (wf w 64 16) (wf w 27 11) = (wf w 27 11, []))
    (htrap : (fmulApply e w (localVectors v w (wf w 48 16) (wf w 64 16) (wf w 27 11))).2 &&& e.trap = 0) :
    runFmulLocal v e w = .ok (flagged (fmulApply e w (localVectors v w (wf w 48 16) (wf w 64 16) (wf w 27 11))).1
      (fmulApply e w (localVectors v w (wf w 48 16) (wf w 64 16) (wf w 27 11))).2 0) [] := by
  simp only [runFmulLocal, hgood, finish_ok htrap, List.isEmpty_nil, if_true]

/-- An FMUL word that has taken no vector waits at the empty queue of its source (R62, R94). -/
theorem runStream_fmul_empty {s : State} {n i : Nat} {e : QWord} (hop : wOp e.word = 0x22) (htaken : e.taken = [])
    (hin : (if wf e.word 15 2 = 1 then (s.core n).run.eng.direct else (s.core n).run.eng.intake) = []) : runStream s n i e = none := by
  simp [runStream, hop, htaken, hin, takeVecs]

/-- FDRAIN of entries that read without error, with no trap enabled, leaves the accumulators and the vector registers. -/
theorem runFdrain_ok {v : View} {e : Engine} {w : W128} (seed : W64) (rvec : Nat) (h : v.badOf (readRows w) = []) (ht : e.trap = 0)
    (ha : accBad e.facc (wf w 8 10) (wf w 18 11) = false) :
    ∃ g wr, runFdrain v e w seed rvec = .ok g wr ∧ g.facc = e.facc ∧ g.vreg = e.vreg := by
  unfold runFdrain
  rw [h]
  simp only [ha, Bool.false_eq_true, if_false]
  exact ⟨_, _, finish_ok (by simp [ht]), rfl, rfl⟩

/-- Settles O11: each word's unit executes it at once, and what the unit gives is `runFres_ok`, `runFmulLocal_ok` and `runFdrain_ok`; an
FMUL of a stream finds nothing to take (`runStream_fmul_empty`). -/
theorem furrowWords : Obligations.FurrowWords := by
  unfold Obligations.FurrowWords
  intro c f s a m
  refine ⟨fun w hw hacc hbad => ?fres, fun w hw hacc hclash => ?fmul, fun w hw hacc hbad htrap hent => ?fdrain⟩
  case fres =>
    have hop : wOp w = 0x21 := hw ▸ wOp_mkWord 0x21 f
    have hrow : wordOf (.fres c f) = some (c, w) := hw ▸ rfl
    obtain ⟨hfacc, -, hflags⟩ := foundEngine_frame a c w
    obtain ⟨hrvec, hfacc', hflags'⟩ := setRbuf_frame (foundEngine a c w) (wf w 8 1) (fresBuf (viewOf a c) w)
    refine ⟨_, runFres_ok _ hbad, ?_, hrvec.trans (foundEngine_rvec a c hop), ?_⟩
    · refine exec_executes hrow m hacc (unitOf_furrow (by omega) (by omega)) (.inl (by omega)) (runEntry_fres hop) ?_
      rw [viewOf_dispatched hacc.1.1, foundEngine_eq hacc.1.1]
      exact runFres_ok _ hbad
    · rw [rbuf_setRbuf]
      exact ⟨rfl, rfl, rfl, rfl, hfacc'.trans hfacc, hflags'.trans hflags⟩
  case fmul =>
    have hop : wOp w = 0x22 := hw ▸ wOp_mkWord 0x22 f
    have hrow : wordOf (.fmul c f) = some (c, w) := hw ▸ rfl
    have hu : unitOf w ≠ 0 := unitOf_furrow (by omega) (by omega)
    have hrun := runEntry_fmul (i := 0) (e := wordEntry a c w) hop ((clash_dispatched hacc.1.1).trans hclash)
    have hwaits (hsrc : wf w 15 2 ≠ 2)
        (hin : (if wf w 15 2 = 1 then (foundEngine a c w).direct else (foundEngine a c w).intake) = []) :
        exec (.fmul c f) s = .next (dispatched a c w) := by
      refine exec_waits hrow m hacc hu ((hrun.trans (if_neg hsrc)).trans (runStream_fmul_empty hop rfl ?_))
      rw [foundEngine_eq hacc.1.1]
      exact hin
    refine ⟨fun hsrc hgood htrap => ?rows, fun hsrc hin => hwaits (by omega) ?multicast, fun hsrc hin => hwaits (by omega) ?direct⟩
    case rows =>
      refine exec_executes hrow m hacc hu (.inl (by omega)) (hrun.trans (if_pos hsrc)) ?_
      rw [viewOf_dispatched hacc.1.1, foundEngine_eq hacc.1.1]
      exact runFmulLocal_ok hgood htrap
    case multicast => rwa [if_neg (by omega)]
    case direct => rwa [if_pos hsrc]
  case fdrain =>
    have hop : wOp w = 0x23 := hw ▸ wOp_mkWord 0x23 f
    have hrow : wordOf (.fdrain c f) = some (c, w) := hw ▸ rfl
    obtain ⟨hfacc, hvreg, -⟩ := foundEngine_frame a c w
    rw [← hfacc] at hent
    obtain ⟨g, wr, hrun, hgacc, hgvreg⟩ := runFdrain_ok (wordEntry a c w).seed (a.core c).run.eng.rvec hbad htrap hent
    refine ⟨g, wr, hrun, ?_, hgacc.trans hfacc, hgvreg.trans hvreg⟩
    refine exec_executes hrow m hacc (unitOf_furrow (by omega) (by omega)) (.inl (by omega)) (runEntry_fdrain hop) ?_
    rw [viewOf_dispatched hacc.1.1, foundEngine_eq hacc.1.1, wordEntry_rvec a c hop]
    exact hrun

end Sys2Proof.FurrowUnitWords

namespace Sys2Proof.VectorWords

open Sys2Proof Sys2Proof.Machine Sys2Proof.UnitWords Sys2Proof.IssueFaults

/-! ### A word of the vector unit at a waiting core (R102) -/

/-- Table 5-8: every group's operation codes lie in 0x40 to 0x7F. -/
theorem range_of_vGroup {o : Nat} (h : vGroup o ≠ .none) : 0x40 ≤ o ∧ o < 0x80 := by
  by_contra hout
  exact h (by simp (disch := omega) only [vGroup, if_neg])

/-- A program row of the vector unit executes as its word does on the engine that the dispatch leaves. -/
theorem exec_vector {i : Instr} {c : CoreId} {w : W128} {s a : State} {g : Engine} {wr : List (Nat × List Byte)}
    (hw : wordOf i = some (c, w)) (m : Meets s a) (h : Accepts a c w) (hg : vGroup (wOp w) ≠ .none)
    (hr : runVector (viewOf a c) (foundEngine a c w) w (wordEntry a c w).seed = .ok g wr) : exec i s = .next (executed a c w g wr) := by
  obtain ⟨hlo, hhi⟩ := range_of_vGroup hg
  have hunit : unitOf w = 7 := unitOf_vector hlo hhi
  refine exec_executes hw m h (by omega) (.inl (by omega)) (runEntry_vector hlo) ?_
  rw [viewOf_dispatched h.1.1, foundEngine_eq h.1.1]
  exact hr

/-! ### The registers that an instruction's flags and lanes leave -/

@[simp] theorem flagged_mreg (e : Engine) (fl : BitVec 7) (k : Nat) : (flagged e fl k).mreg = e.mreg := rfl
@[simp] theorem flagged_acc (e : Engine) (fl : BitVec 7) (k : Nat) : (flagged e fl k).acc = e.acc := rfl
@[simp] theorem putLanes_mreg (e : Engine) (r : Nat) (l : List (Nat × W32)) : (putLanes e r l).mreg = e.mreg := rfl
@[simp] theorem putLanes_acc (e : Engine) (r : Nat) (l : List (Nat × W32)) : (putLanes e r l).acc = e.acc := rfl

/-! ### Which words are whose (Table 5-8) -/

section

variable {v : View} {e : Engine} {w : W128} {seed : W64}

theorem runVector_cmp (h : vGroup (wOp w) = .cmp) : runVector v e w seed = runVcmp (e.count 0x02C0 1) w := by simp only [runVector, h]

theorem runVector_sel (h : vGroup (wOp w) = .sel) : runVector v e w seed = runVsel (e.count 0x02C0 1) w := by simp only [runVector, h]

theorem runVector_red (h : vGroup (wOp w) = .red) : runVector v e w seed = runVred v (e.count 0x02C0 1) w := by simp only [runVector, h]

theorem runVector_ld (h : vGroup (wOp w) = .ld) : runVector v e w seed = runVld v (e.count 0x02C0 1) w := by simp only [runVector, h]

theorem runVector_st (h : vGroup (wOp w) = .st) : runVector v e w seed = runVst v (e.count 0x02C0 1) w seed := by simp only [runVector, h]

theorem runVector_gath (h : vGroup (wOp w) = .gath) : runVector v e w seed = runVgather v (e.count 0x02C0 1) w := by simp only [runVector, h]

end

/-! ### Elementwise words, VSEL and comparisons (R103 to R105) -/

/-- What the active lanes of an elementwise word give: the lane, its value and its flags (R104). -/
def laneOuts (e : Engine) (w : W128) : List (Nat × W32 × BitVec 7) :=
  (activeLanes e w).map fun l => (l, vecLane (wOp w) (vlane e (wf w 13 5) l) (operandB e w l) (vlane e (wf w 23 5) l))

/-- An elementwise word that raises no trapped flag (R51, R104). -/
theorem runVecLanes_ok {e : Engine} {w : W128} (h : (laneOuts e w).foldl (fun f o => f ||| o.2.2) 0 &&& e.trap = 0) :
    runVecLanes e w = .ok (flagged (putLanes e (wf w 8 5) ((laneOuts e w).map fun o => (o.1, o.2.1)))
      ((laneOuts e w).foldl (fun f o => f ||| o.2.2) 0)
      (if wOp w = 0x59 then ((laneOuts e w).filter fun o => o.2.2 &&& fCONVSAT != 0).length else 0)) [] :=
  finish_ok h

/-- VSEL raises no flag (Table 5-7). -/
theorem runVsel_ok (e : Engine) (w : W128) :
    runVsel e w = .ok (flagged (putLanes e (wf w 8 5) ((List.range 512).map fun l =>
      (l, if mbit e (wf w 28 3) l then vlane e (wf w 13 5) l else operandB e w l))) 0 0) [] :=
  finish_ok BitVec.zero_and

/-- Whether a lane of a comparison has a NaN operand. -/
def cmpNan (e : Engine) (w : W128) (l : Nat) : Bool := fvNan (ofF32 (vlane e (wf w 13 5) l)) || fvNan (ofF32 (operandB e w l))

/-- The result of a comparison in a lane (R104, R105): a NaN compares false. -/
def cmpHolds (e : Engine) (w : W128) (l : Nat) : Bool :=
  let lt := gtF (ofF32 (operandB e w l)) (ofF32 (vlane e (wf w 13 5) l))
  let eq := eqF (ofF32 (vlane e (wf w 13 5) l)) (ofF32 (operandB e w l))
  !cmpNan e w l && if wOp w = 0x48 then eq else if wOp w = 0x49 then lt && !eq else lt || eq

/-- The flags of a comparison's active lanes (R51, R105). -/
def cmpFlags (e : Engine) (w : W128) : BitVec 7 := (activeLanes e w).foldl (fun f l => f ||| if cmpNan e w l then fNANIN else 0) 0

/-- A comparison that raises no trapped flag. -/
theorem runVcmp_ok {e : Engine} {w : W128} (h : cmpFlags e w &&& e.trap = 0) :
    runVcmp e w = .ok (flagged { e with mreg := (activeLanes e w).foldl (fun m l => tput false m (wf w 8 3 * 512 + l) (cmpHolds e w l)) e.mreg }
      (cmpFlags e w) 0) [] := by
  rw [← finish_ok h]
  unfold runVcmp cmpFlags cmpHolds cmpNan
  by_cases heq : wOp w = 0x48
  · simp [heq, List.foldl_map]
  by_cases hlt : wOp w = 0x49
  · simp [hlt, List.foldl_map]
  · simp [heq, hlt, List.foldl_map]

/-! ### Reductions, loads, stores and gathers (R106 to R108) -/

/-- The results of a reduction's groups with their flags (R106). -/
def redGroups (v : View) (e : Engine) (w : W128) : List (W32 × BitVec 7) :=
  (List.range (512 / 2 ^ wf w 32 4)).map fun k => groupResult (wOp w) (wf w 32 4) ((Config.freeValue (v.free + k)).setWidth 32)
    ((countFrom (k * 2 ^ wf w 32 4) (2 ^ wf w 32 4)).map fun l => (laneActive e w l, vlane e (wf w 13 5) l))

/-- A reduction that raises no trapped flag: an active lane takes its group's result, or the result of the group of its own number. -/
theorem runVred_ok {v : View} {e : Engine} {w : W128} (h : (redGroups v e w).foldl (fun f r => f ||| r.2) 0 &&& e.trap = 0) :
    runVred v e w = .ok (flagged (putLanes e (wf w 8 5) ((activeLanes e w).map fun l =>
        (l, ((redGroups v e w).getD (if wf w 36 1 = 1 then l / 2 ^ wf w 32 4 else l) (0, 0)).1)))
      ((redGroups v e w).foldl (fun f r => f ||| r.2) 0) 0) [] := by
  rw [← finish_ok h]
  unfold runVred
  by_cases hrep : wf w 36 1 = 1
  · simp only [hrep, if_true, redGroups]
  · simp only [hrep, if_false, redGroups]

/-- VLD of rows that read without error, with no trap enabled, writes a vector register. -/
theorem runVld_ok {v : View} {e : Engine} {w : W128} (h : v.badOf (readRows w) = []) (ht : e.trap = 0) :
    ∃ g, runVld v e w = .ok g [] ∧ g.mreg = e.mreg ∧ g.acc = e.acc := by
  unfold runVld
  rw [h]
  exact ⟨_, finish_ok (by simp [ht]), by rw [flagged_mreg, putLanes_mreg], by rw [flagged_acc, putLanes_acc]⟩

/-- VST with no poisoned row and no trap enabled leaves the registers, and writes the element plane first. -/
theorem runVst_ok {v : View} {e : Engine} {w : W128} (seed : W64) (h : v.bad = []) (ht : e.trap = 0) :
    ∃ g wr, runVst v e w seed = .ok g wr ∧ g.vreg = e.vreg ∧ g.mreg = e.mreg
      ∧ wr.head?.map (·.1) = some (wf w 48 16 * 512 + wf w 85 2 * vecPlane (fdCode (convOf (wf w 32 16)).tfmt)) := by
  have hgood : ∀ rows, v.badOf rows = [] := by simp [View.badOf, View.isBad, h]
  unfold runVst
  simp only [hgood]
  exact ⟨_, _, finish_ok (by simp [ht]), rfl, rfl, rfl⟩

/-- The index of a lane in VGATHER's table. -/
def gatherIdx (e : Engine) (w : W128) (l : Nat) : Int := (vlane e (wf w 13 5) l).toInt

/-- The relative row of the word that VGATHER reads for a lane. -/
def gatherRow (e : Engine) (w : W128) (l : Nat) : Nat := wf w 48 16 + (gatherIdx e w l).toNat / 128

/-- VGATHER whose active lanes all lie in the table, the scratchpad and the window, and read without error. -/
theorem runVgather_ok {v : View} {e : Engine} {w : W128}
    (htable : ∀ l ∈ activeLanes e w, 0 ≤ gatherIdx e w l ∧ gatherIdx e w l < (wf w 64 16 * 128 : Nat))
    (hrows : ∀ l ∈ activeLanes e w, v.base + gatherRow e w l < 49152 ∧ gatherRow e w l < v.count ∧ v.isBad (gatherRow e w l) = false) :
    runVgather v e w = .ok (flagged (putLanes e (wf w 8 5) ((activeLanes e w).map fun l =>
      (l, BitVec.ofNat 32 (leNat (v.bytes (wf w 48 16) (4 * (gatherIdx e w l).toNat) 4))))) 0 0) [] := by
  have hout : (activeLanes e w).filter (fun l => gatherIdx e w l < 0 || gatherIdx e w l ≥ (wf w 64 16 * 128 : Nat)) = [] := by
    simp only [List.filter_eq_nil_iff, Bool.or_eq_true, decide_eq_true_eq]
    intro l hl
    have := htable l hl
    omega
  have hfar : ((activeLanes e w).map (gatherRow e w)).any (fun r => 49152 ≤ v.base + r) = false := by
    simp only [List.any_map, List.any_eq_false, Function.comp_apply, decide_eq_true_eq]
    intro l hl
    obtain ⟨hscratchpad, -⟩ := hrows l hl
    omega
  have hwindow : ((activeLanes e w).map (gatherRow e w)).filter (fun r => v.count ≤ r) = [] := by
    simp only [List.filter_eq_nil_iff, List.mem_map, decide_eq_true_eq]
    rintro - ⟨l, hl, rfl⟩
    obtain ⟨-, hcount, -⟩ := hrows l hl
    omega
  have hbad : v.badOf ((activeLanes e w).map (gatherRow e w)) = [] := by
    simp only [View.badOf, List.filter_eq_nil_iff, List.mem_map]
    rintro - ⟨l, hl, rfl⟩
    obtain ⟨-, -, hgood⟩ := hrows l hl
    simp [hgood]
  have hidx (l : Nat) : (vlane e (wf w 13 5) l).toInt = gatherIdx e w l := rfl
  have hrow (l : Nat) : wf w 48 16 + (gatherIdx e w l).toNat / 128 = gatherRow e w l := rfl
  unfold runVgather
  simp only [hidx, hrow, hout, hfar, hwindow, hbad, Bool.false_eq_true, if_false]
  exact finish_ok BitVec.zero_and

/-! ### Settled statements -/

/-- Settles O12: each word's row executes as its group's own function does (`exec_vector`), which without a trapped flag gives what
`runVecLanes_ok`, `runVsel_ok` and `runVcmp_ok` say. -/
theorem vectorLanes : Obligations.VectorLanes := by
  unfold Obligations.VectorLanes
  refine ⟨fun i c w s a hw m hacc hg => ?lanes, fun i c w s a hw m hacc => ⟨fun hop => ?sel, fun hg => ?cmp⟩⟩
  case lanes =>
    intro e outs fl sat htrap
    have hne : vGroup (wOp w) ≠ .none := fun h => absurd (h ▸ hg) (by decide)
    exact exec_vector hw m hacc hne ((runVector_lanes _ _ _ hg).trans (runVecLanes_ok htrap))
  case sel =>
    have hg : vGroup (wOp w) = .sel := by rw [hop]; rfl
    exact exec_vector hw m hacc (by simp [hg]) (by rw [runVector_sel hg]; exact runVsel_ok _ w)
  case cmp =>
    intro isNan lt eq fl htrap
    exact exec_vector hw m hacc (by simp [hg]) (by rw [runVector_cmp hg]; exact runVcmp_ok htrap)

/-- Settles O13: a reduction, a load, a store and a gather give what `runVred_ok`, `runVld_ok`, `runVst_ok` and `runVgather_ok` say. -/
theorem vectorReduceMemory : Obligations.VectorReduceMemory := by
  unfold Obligations.VectorReduceMemory
  intro i c w s a hw m hacc e v
  refine ⟨fun hg => ?red, fun hg hbad htrap => ?ld, fun hg hbad htrap => ?st, fun hg => ?gath⟩
  case red =>
    intro n groups fl htrap
    exact exec_vector hw m hacc (by simp [hg]) (by rw [runVector_red hg]; exact runVred_ok htrap)
  case ld =>
    obtain ⟨g, hrun, hmreg, hacc'⟩ := runVld_ok hbad htrap
    exact ⟨g, hrun, exec_vector hw m hacc (by simp [hg]) (by rw [runVector_ld hg]; exact hrun), hmreg, hacc'⟩
  case st =>
    obtain ⟨g, wr, hrun, hregs⟩ := runVst_ok (v := v) (wordEntry a c w).seed hbad htrap
    exact ⟨g, wr, hrun, exec_vector hw m hacc (by simp [hg]) (by rw [runVector_st hg]; exact hrun), hregs⟩
  case gath =>
    intro idx h
    refine exec_vector hw m hacc (by simp [hg]) ?_
    rw [runVector_gath hg]
    refine runVgather_ok (fun l hl => ?_) (fun l hl => ?_)
    · obtain ⟨hlo, hhi, -⟩ := h l hl
      exact ⟨hlo, hhi⟩
    · obtain ⟨-, -, hrow⟩ := h l hl
      exact hrow

end Sys2Proof.VectorWords

namespace Sys2Proof.ControlWords

open Sys2Proof Sys2Proof.Machine Sys2Proof.UnitWords Sys2Proof.IssueFaults

/-! ### The dispatch of an issue-unit word at a waiting core (R117, R118) -/

/-- The issue unit's own words belong to no unit (R118). -/
theorem unitOf_control {w : W128} (hlo : 0x10 ≤ wOp w) (hhi : wOp w < 0x20) : unitOf w = 0 := by
  simp (disch := omega) only [unitOf, if_neg, if_pos hhi]

/-- Table 6-9: an issue-unit word has no fault but a control fault. -/
theorem issueFault_control {r : Run} {w : W128} (hlo : 0x10 ≤ wOp w) (hhi : wOp w < 0x20) (h : controlBad r w = false) :
    issueFault r w = none := by
  simp only [issueFault, h]
  split
  iterate 7 next => omega
  next => simp (disch := omega) only [if_neg, Bool.false_eq_true, if_false]

/-- Whether an issue-unit word is faulty depends on the loops and the position only, which a fetch leaves. -/
theorem controlBad_congr {r r' : Run} (w : W128) (hl : r'.loops = r.loops) (hp : r'.pos = r.pos) : controlBad r' w = controlBad r w := by
  simp only [controlBad, hl, hp]

/-- What a waiting core is after it has fetched and dispatched an issue-unit word. -/
def controlled (a : State) (n : Nat) (w : W128) : State :=
  passed a n fun r => dispatchControl { r with prog := [((a.core n).run.progPc, w)] } w (a.core n).run.progPc

section

variable {a : State} {n : Nat} {w : W128}

/-- R117: a core that waited for an issue-unit word dispatches it, where it is not faulty. -/
theorem dispatchOne_control (h : Waiting a n) (hlo : 0x10 ≤ wOp w) (hhi : wOp w < 0x20) (hbad : controlBad (a.core n).run w = false) :
    dispatchOne (fetchWord a n w) n = some (controlled a n w) := by
  have hc := fetchWord_core w h
  have hfetch := fetchWord_waiting w h
  have hu := unitOf_control hlo hhi
  obtain ⟨hmode, hended, hprog, hpos, -, hloops, hq, -, -⟩ := h
  have hbad' : controlBad ((fetchWord a n w).core n).run w = false :=
    (controlBad_congr w (by rw [hc]) (by rw [hc])).trans hbad
  have hroom (u : Nat) : queueRoom ((fetchWord a n w).core n).run u = true := by
    simp [queueRoom, hc, hq, queueCap_pos]
  have hword : ((fetchWord a n w).core n).run.prog[((fetchWord a n w).core n).run.pos]? = some ((a.core n).run.progPc, w) := by
    simp [hc, hpos]
  have hstride : strideWord ((fetchWord a n w).core n).run.loops ((fetchWord a n w).core n).run.pos w = some w := by
    simp [hc, hloops]
  have hgo : ¬(((fetchWord a n w).core n).mode ≠ .running ∨ ((fetchWord a n w).core n).run.ended = true) := by
    simp [hc, hmode, hended]
  have hbusy : ((noteRead a (a.core n).run.progPc 16).core n).mode ≠ .idle := by
    rw [core_noteRead, hmode]
    decide
  unfold dispatchOne
  simp only [hgo, if_false, hword, hstride, hroom, issueFault_control hlo hhi hbad', hu, if_true, Bool.not_true, Bool.and_false,
    Bool.false_eq_true]
  rw [hfetch]
  unfold coreCount State.modEng
  rw [modRun_modRun _ _ _ _ hbusy, modRun_modRun _ _ _ _ hbusy]
  rfl

/-- The issue unit of a core that waits for a word fetches it, dispatches it, and goes on from there. -/
theorem issueWord_control (h : Waiting a n) (hlo : 0x10 ≤ wOp w) (hhi : wOp w < 0x20) (hbad : controlBad (a.core n).run w = false) :
    issueWord a n w = pumpCore n 71 (controlled a n w) := by
  have hd := dispatchOne_control h hlo hhi hbad
  have hc := fetchWord_core w h
  obtain ⟨-, -, -, -, -, -, hq, -, -⟩ := h
  have hfuel : pumpFuel ((fetchWord a n w).core n).run = 71 + 1 := by simp [pumpFuel, hc, hq]
  have hx : executeOne (fetchWord a n w) n = none := executeOne_empty (by rw [hc]; exact hq)
  unfold issueWord
  simp only [hfuel, pumpCore, hx, hd]

/-- A fetch by a waiting core moves its fetch address on. -/
def movedOn (r : Run) : Run := { r with progPc := r.progPc + 16 }

/-- Two effects that agree on the run of the core that has fetched are the same effect. -/
theorem passed_congr {f g : Run → Run} (h : f (movedOn (a.core n).run) = g (movedOn (a.core n).run)) : passed a n f = passed a n g := by
  refine modRun_congr _ _ ?_
  simp only [core_noteRead]
  exact congrArg (fun r : Run => { r with eng := r.eng.count 0x18 1 }) h

/-- The core that has fetched and dispatched a word with effect `f`. -/
theorem passed_core (f : Run → Run) (h : (a.core n).mode = .running) :
    (passed a n f).core n = { a.core n with run :=
      { f (movedOn (a.core n).run) with eng := (f (movedOn (a.core n).run)).eng.count 0x18 1 } } :=
  core_modRun _ _ _ (by simp [h])

/-- A run with nothing fetched, outside every loop. -/
def Drained (r : Run) : Prop := r.prog = [] ∧ r.pos = 0 ∧ r.hi = 0 ∧ r.loops = []

theorem drained_of_waiting (h : Waiting a n) : Drained (a.core n).run := by
  obtain ⟨-, -, hprog, hpos, hhi, hloops, -, -, -⟩ := h
  exact ⟨hprog, hpos, hhi, hloops⟩

/-- R118: outside every loop a word that the issue unit has dealt with leaves the fetch queue as it was before the fetch. -/
theorem pass_fetched {r : Run} (x : Nat × W128) (h : Drained r) : Run.pass { r with prog := [x] } = r := by
  obtain ⟨hprog, hpos, hhi, hloops⟩ := h
  rw [pass_outside (r := { r with prog := [x] }) hpos hloops]
  cases r
  simp_all

/-- Where the fetched words are all dispatched nothing is dispatched. -/
theorem dispatchOne_exhausted {s : State} (h : (s.core n).run.prog[(s.core n).run.pos]? = none) : dispatchOne s n = none := by
  simp [dispatchOne, h]

/-- A core that can neither execute nor dispatch is at rest. -/
theorem pump_idle {s : State} (k : Nat) (hx : executeOne s n = none) (hd : dispatchOne s n = none) : pumpCore n k s = s := by
  cases k with
  | zero => rfl
  | succ k => simp only [pumpCore, hx, hd]

/-- R119: a satisfied GATE that stands alone leaves its queue. -/
theorem executeOne_gate_alone {s : State} {e : QWord} (h : (s.core n).mode = .running) (hq : (s.core n).run.q = [e]) (hg : e.gate = some []) :
    executeOne s n = some (s.modRun n fun r => { r with q := [] }) := by
  have hpass : passGate (s.core n).run = some { (s.core n).run with q := [] } := by simp [passGate, hq, hg]
  simp only [executeOne, h, hpass, ne_eq, not_true_eq_false, if_false]
  exact congrArg some (modRun_congr s n rfl)

end

/-- A program row of an issue-unit word that is not faulty: the word's effect on the run, and the core goes on. -/
theorem exec_control {i : Instr} {c : CoreId} {w : W128} {s a : State} (f : Run → Run) (hw : wordOf i = some (c, w)) (m : Meets s a)
    (h : Waiting a c) (hlo : 0x10 ≤ wOp w) (hhi : wOp w < 0x20) (hbad : controlBad (a.core c).run w = false)
    (hf : dispatchControl { movedOn (a.core c).run with prog := [((a.core c).run.progPc, w)] } w (a.core c).run.progPc
      = f (movedOn (a.core c).run)) :
    exec i s = .next (pumpCore c 71 (passed a c f)) := by
  rw [exec_word hw m, issueWord_control h hlo hhi hbad]
  exact congrArg (fun t => Host.Outcome.next (pumpCore c 71 t)) (passed_congr hf)

/-- The same where the word leaves nothing queued and nothing to dispatch. -/
theorem exec_control_rests {i : Instr} {c : CoreId} {w : W128} {s a : State} (f : Run → Run) (hw : wordOf i = some (c, w)) (m : Meets s a)
    (h : Waiting a c) (hlo : 0x10 ≤ wOp w) (hhi : wOp w < 0x20) (hbad : controlBad (a.core c).run w = false)
    (hf : dispatchControl { movedOn (a.core c).run with prog := [((a.core c).run.progPc, w)] } w (a.core c).run.progPc
      = f (movedOn (a.core c).run))
    (hq : (f (movedOn (a.core c).run)).q = [])
    (hend : (f (movedOn (a.core c).run)).prog[(f (movedOn (a.core c).run)).pos]? = none) :
    exec i s = .next (passed a c f) := by
  have hc := passed_core f h.1
  rw [exec_control f hw m h hlo hhi hbad hf]
  refine congrArg _ (pump_idle 71 (executeOne_empty ?_) (dispatchOne_exhausted ?_))
  · rw [hc]
    exact hq
  · rw [hc]
    exact hend

/-- R118: NOP without operand bits is never faulty. -/
theorem controlBad_nop (r : Run) : controlBad r (mkWord 0x10 0) = false := rfl

/-- R118: END without operand bits is faulty in a loop only. -/
theorem controlBad_endW {r : Run} (h : r.loops = []) : controlBad r (mkWord 0x14 0) = false := by
  have hbad : controlBad r (mkWord 0x14 0) = !r.loops.isEmpty := rfl
  rw [hbad, h]
  rfl

/-- R118: END drops what is fetched: nothing, at a core that waited for it. -/
theorem dispatch_endW {r : Run} (x : Nat × W128) (pc : Nat) (h : Drained r) :
    dispatchControl { r with prog := [x] } (mkWord 0x14 0) pc = { r with ended := true } := by
  have hstep : dispatchControl { r with prog := [x] } (mkWord 0x14 0) pc
      = { Run.pass { r with prog := [x] } with ended := true, prog := [], pos := 0, hi := 0 } := rfl
  rw [hstep, pass_fetched x h]
  obtain ⟨hprog, hpos, hhi, -⟩ := h
  cases r
  simp_all

/-- R119: the entry that a GATE makes in its target's queue, where it waits for `left`. -/
def gateEntry (w : W128) (pc : Nat) (left : List (Nat × Nat)) : QWord := { unit := wf w 8 4, word := w, pc := pc, gate := some left }

/-- R119: a GATE enters the queue of its target, satisfied or not. -/
theorem dispatch_gate {r : Run} {w : W128} (x : Nat × W128) (pc : Nat) (hop : wOp w = 0x11) (h : Drained r) (hq : r.q = []) :
    dispatchControl { r with prog := [x] } w pc = { r with q := [gateEntry w pc (gateLeft r (gateNeeds r w))] } := by
  simp only [dispatchControl, hop]
  rw [show ({ r with prog := [x] } : Run).q = [] from hq]
  exact pass_fetched (r := { r with q := [gateEntry w pc (gateLeft r (gateNeeds r w))] }) x h

/-- What a waiting core does with a GATE row before anything else moves. -/
theorem exec_gate_enters {c : CoreId} {f : BitVec 120} {w : W128} {s a : State} (hwd : w = mkWord 0x11 f) (m : Meets s a) (h : Waiting a c)
    (hbad : controlBad (a.core c).run w = false) :
    exec (.gate c f) s = .next (pumpCore c 71 (passed a c fun r => { r with
      q := [gateEntry w (a.core c).run.progPc (gateLeft (a.core c).run (gateNeeds (a.core c).run w))] })) := by
  have hop : wOp w = 0x11 := hwd ▸ wOp_mkWord 0x11 f
  have hdrained := drained_of_waiting h
  refine exec_control _ (hwd ▸ rfl) m h (by omega) (by omega) hbad ?_
  obtain ⟨-, -, -, -, -, -, hq, -, -⟩ := h
  exact dispatch_gate (r := movedOn (a.core c).run) _ _ hop hdrained hq

/-- R119: a GATE whose counts stand leaves its queue at once, and leaves the run as a NOP does. -/
theorem gate_met_leaves {a : State} {n : Nat} {e : QWord} (h : Waiting a n) (hg : e.gate = some []) :
    pumpCore n 71 (passed a n fun r => { r with q := [e] }) = passed a n id := by
  obtain ⟨hmode, -, hprog, -, -, -, hq, -, -⟩ := h
  have hc := passed_core (fun r => { r with q := [e] }) hmode
  have hx := executeOne_gate_alone (n := n) (s := passed a n fun r => { r with q := [e] }) (by rw [hc]; exact hmode) (by rw [hc]) hg
  have hleft : (passed a n fun r => { r with q := [e] }).modRun n (fun r => { r with q := [] }) = passed a n id := by
    unfold passed
    rw [modRun_modRun _ _ _ _ (by simp [hmode])]
    refine modRun_congr _ _ ?_
    rw [core_noteRead, ← hq]
    rfl
  have hc' := passed_core id hmode
  rw [show (71 : Nat) = 70 + 1 from rfl, pumpCore, hx]
  simp only [hleft]
  exact pump_empty 70 (by rw [hc']; exact hprog) (by rw [hc']; exact hq)

/-- R119: a GATE whose counts do not stand waits in its queue. -/
theorem gate_unmet_waits {a : State} {n : Nat} {e : QWord} {g : List (Nat × Nat)} (h : Waiting a n) (hg : e.gate = some g)
    (hmet : gateMet (a.core n).run g = false) :
    pumpCore n 71 (passed a n fun r => { r with q := [e] }) = passed a n fun r => { r with q := [e] } := by
  obtain ⟨hmode, -, hprog, -, -, -, -, -, -⟩ := h
  have hc := passed_core (fun r => { r with q := [e] }) hmode
  refine pump_rest 71 (by rw [hc]; exact hprog) (by rw [hc]) ?_ (.inr (.inr (by simp [hg])))
  rw [hg, ne_eq, Option.some.injEq]
  rintro rfl
  cases hmet

/-- Settles O16: a waiting core dispatches each word by `dispatchControl` (`exec_control`); only a GATE stands in a queue then, and a
satisfied one leaves it at once (`gate_met_leaves`). -/
theorem controlWords : Obligations.ControlWords := by
  unfold Obligations.ControlWords
  intro c f s a m h
  have hdrained := drained_of_waiting h
  obtain ⟨-, -, hprog, hpos, hhi, hloops, hq, -, -⟩ := id h
  refine ⟨fun w hwd => ?nop, fun w hwd hrsv => ?seed, fun w hwd hbad => ?loop, fun w hwd hbad => ?gate, ?endW⟩
  case nop =>
    subst hwd
    exact exec_control_rests id rfl m h (by decide) (by decide) (controlBad_nop _) (pass_fetched _ hdrained) hq (by simp [movedOn, hprog])
  case seed =>
    have hop : wOp w = 0x13 := hwd ▸ wOp_mkWord 0x13 f
    have hrow : wordOf (.seed c f) = some (c, w) := hwd ▸ rfl
    refine exec_control_rests _ hrow m h (by omega) (by omega) (by simp [controlBad, hop, hrsv]) ?_ hq (by simp [movedOn, hprog])
    simp only [dispatchControl, hop]
    exact pass_fetched (r := seedPut (movedOn (a.core c).run) w) _ hdrained
  case loop =>
    have hop : wOp w = 0x12 := hwd ▸ wOp_mkWord 0x12 f
    have hrow : wordOf (.loop c f) = some (c, w) := hwd ▸ rfl
    refine exec_control_rests _ hrow m h (by omega) (by omega) hbad ?_ hq (by simp)
    simp only [dispatchControl, loopOf, hop, movedOn, hpos, hhi, hloops]
    rfl
  case gate =>
    have hleft : gateLeft (a.core c).run (gateNeeds (a.core c).run w)
        = if gateMet (a.core c).run (gateNeeds (a.core c).run w) then [] else gateNeeds (a.core c).run w := rfl
    rw [exec_gate_enters hwd m h hbad, hleft]
    refine ⟨fun hmet => ?met, fun hmet => ?waits⟩
    case met => exact congrArg _ (gate_met_leaves h (by rw [if_pos hmet]; rfl))
    case waits =>
      rw [hmet]
      exact congrArg _ (gate_unmet_waits h rfl hmet)
  case endW =>
    refine exec_control_rests _ rfl m h (by decide) (by decide) (controlBad_endW hloops) (dispatch_endW _ _ hdrained) hq ?_
    simp [movedOn, hprog]

end Sys2Proof.ControlWords

namespace Sys2Proof.CoreCompletion

open Sys2Proof Sys2Proof.Machine

/-! ### The beats of a unit's waits (R28, R74, R111) -/

/-- A count of a busy core's counters leaves its mode and its queues. -/
theorem coreCount_core {s : State} {n : Nat} (off k : Nat) (h : (s.core n).mode ≠ .idle) :
    ((coreCount s n off k).core n).mode = (s.core n).mode ∧ ((coreCount s n off k).core n).run.q = (s.core n).run.q := by
  unfold coreCount State.modEng
  rw [core_modRun s n _ h]
  exact ⟨rfl, rfl⟩

/-- What every count of a core's counters keeps, the charge of waits keeps. -/
theorem chargeWaits_induction {P : State → Prop} {s : State} {n u : Nat} {waits : List (List Nat × Nat)} (h : P s)
    (hk : ∀ t off k, P t → P (coreCount t n off k)) : P (chargeWaits s n u waits) :=
  List.foldlRecOn waits _ h fun _ ht w _ => List.foldlRecOn (chargedTo u w.1) _ ht fun t ht off _ => hk t off w.2 ht

/-- The charge of waits to a busy core leaves its queues. -/
theorem chargeWaits_q {s : State} {n : Nat} (u : Nat) (waits : List (List Nat × Nat)) (h : (s.core n).mode ≠ .idle) :
    ((chargeWaits s n u waits).core n).run.q = (s.core n).run.q := by
  obtain ⟨-, hq⟩ := chargeWaits_induction (u := u) (waits := waits)
    (P := fun t => (t.core n).mode = (s.core n).mode ∧ (t.core n).run.q = (s.core n).run.q) ⟨rfl, rfl⟩ fun t off k ⟨hmode, hq⟩ => by
      obtain ⟨hmode', hq'⟩ := coreCount_core off k (hmode ▸ h)
      exact ⟨hmode'.trans hmode, hq'.trans hq⟩
  exact hq

/-- A beat is charged to the first cause of its engine's order, and to the issue unit's waits. -/
theorem chargedTo_cause {u off idle : Nat} {causes l : List Nat} (ho : beatOrder u = (l, [idle])) (h : l.find? causes.contains = some off) :
    chargedTo u causes = off :: waitCounters.filter causes.contains := by
  simp only [chargedTo, ho, h, List.singleton_append]

/-- A beat without a cause of its engine is charged to the engine's idle counter, and to the issue unit's waits. -/
theorem chargedTo_idle {u idle : Nat} {causes l : List Nat} (ho : beatOrder u = (l, [idle])) (h : l.find? causes.contains = none) :
    chargedTo u causes = idle :: waitCounters.filter causes.contains := by
  simp only [chargedTo, ho, h, List.singleton_append]

/-! ### The queue as its words complete (R116) -/

section

variable {u : Nat} {e : QWord} {l : List QWord}

/-- Whether a word is its unit's does not depend on its having completed. -/
theorem ofUnit_fin (u : Nat) (e : QWord) (b : Bool) : QWord.ofUnit u { e with fin := b } = QWord.ofUnit u e := rfl

/-- A word of the unit at the head of the queue is the one that is taken out. -/
theorem delFirst_head (t : List QWord) (hu : e.ofUnit u = true) : delFirst (QWord.ofUnit u) (e :: t) = t := if_pos hu

/-- An executed word of the unit at the head of the queue completes. -/
theorem markFin_zero_head (t : List QWord) (hu : e.ofUnit u = true) (hdone : e.done = true) :
    markFin u 0 (e :: t) = { e with fin := true } :: t := by
  simp [markFin, hu, hdone]

/-- The oldest word of a unit, once it is executed and has completed. -/
theorem find?_markFin_zero (h : l.find? (QWord.ofUnit u) = some e) (hdone : e.done = true) :
    (markFin u 0 l).find? (QWord.ofUnit u) = some { e with fin := true } := by
  induction l with
  | nil => cases h
  | cons x t ih =>
    by_cases hx : x.ofUnit u = true
    · rw [List.find?_cons_of_pos hx, Option.some.injEq] at h
      subst h
      rw [markFin_zero_head t hx hdone, List.find?_cons_of_pos ((ofUnit_fin u x true).trans hx)]
    · rw [List.find?_cons_of_neg hx] at h
      simp [markFin, hx, ih h]

/-- The words behind the oldest of a unit do not see it complete. -/
theorem delFirst_markFin_zero (u : Nat) (l : List QWord) : delFirst (QWord.ofUnit u) (markFin u 0 l) = delFirst (QWord.ofUnit u) l := by
  induction l with
  | nil => rfl
  | cons x t ih =>
    by_cases hx : x.ofUnit u = true
    · cases hd : x.done with
      | true => rw [markFin_zero_head t hx hd, delFirst_head t hx, delFirst_head t ((ofUnit_fin u x true).trans hx)]
      | false => simp [markFin, hx, hd]
    · simp [markFin, delFirst, hx, ih]

/-- A word that is not executed does not complete. -/
theorem markFin_zero_of_not_done (h : l.find? (QWord.ofUnit u) = some e) (hdone : e.done = false) : markFin u 0 l = l := by
  induction l with
  | nil => rfl
  | cons x t ih =>
    by_cases hx : x.ofUnit u = true
    · rw [List.find?_cons_of_pos hx, Option.some.injEq] at h
      subst h
      simp [markFin, hx, hdone]
    · rw [List.find?_cons_of_neg hx] at h
      simp [markFin, hx, ih h]

/-- A word that completes behind others of its unit leaves the oldest as it was. -/
theorem find?_markFin_succ (u k : Nat) (l : List QWord) : (markFin u (k + 1) l).find? (QWord.ofUnit u) = l.find? (QWord.ofUnit u) := by
  induction l with
  | nil => rfl
  | cons x t ih =>
    by_cases hx : x.ofUnit u = true
    · simp [markFin, hx]
    · simp [markFin, hx, ih]

/-- R116: nothing retires behind an oldest word that has not completed. -/
theorem retire_stops {r : Run} (fuel : Nat) (h : ∀ x, r.q.find? (QWord.ofUnit u) = some x → x.fin = false) : retire u fuel r = r := by
  cases fuel with
  | zero => rfl
  | succ fuel =>
    rw [retire]
    cases hx : r.q.find? (QWord.ofUnit u) with
    | none => rfl
    | some x => simp [h x hx]

/-- R116: a completed oldest word retires and DONE advances; the word behind it stops the retirement. -/
theorem retire_one {r : Run} (fuel : Nat) (h : r.q.find? (QWord.ofUnit u) = some e) (hfin : e.fin = true)
    (hnext : ∀ x, (delFirst (QWord.ofUnit u) r.q).find? (QWord.ofUnit u) = some x → x.fin = false) :
    retire u (fuel + 1) r = { r with q := delFirst (QWord.ofUnit u) r.q, done := tput 0 r.done u (tget 0 r.done u + 1) } := by
  rw [retire, h]
  simp only [hfin, if_true]
  exact retire_stops fuel hnext

end

/-! ### ENGINE_WORD_COMPLETE (R116) -/

section

variable {s : State} {n u : Nat} {e : QWord}

/-- A completion at a running or stopping core, whose busy state the charges of the waits keep. -/
theorem wordComplete_busy {u k : Nat} {waits : List (List Nat × Nat)} (h : (s.core n).mode = .running ∨ (s.core n).mode = .stopping) :
    wordComplete s n u k waits = goOn (completeWord (chargeWaits s n u waits) n u k) n := by
  unfold wordComplete
  rw [if_neg]
  rintro ⟨hr, hs⟩
  exact h.elim hr hs

/-- R116: the oldest word of a unit completes. -/
theorem completeWord_oldest (h : (s.core n).run.q.find? (QWord.ofUnit u) = some e) (hdone : e.done = true)
    (hnext : ∀ x, (delFirst (QWord.ofUnit u) (s.core n).run.q).find? (QWord.ofUnit u) = some x → x.fin = false) :
    completeWord s n u 0 = s.modRun n fun r => { r with
      q := delFirst (QWord.ofUnit u) r.q, done := tput 0 r.done u (tget 0 r.done u + 1) } := by
  unfold completeWord
  rw [if_neg (by simp)]
  refine modRun_congr _ _ ?_
  rw [← delFirst_markFin_zero] at hnext
  rw [retire_one _ (find?_markFin_zero h hdone) rfl hnext]
  simp only [delFirst_markFin_zero]

/-- R116: with no executed word in front nothing completes. -/
theorem completeWord_not_done (h : (s.core n).run.q.find? (QWord.ofUnit u) = some e) (hfin : e.fin = false) (hdone : e.done = false) :
    completeWord s n u 0 = s.modRun n fun r => r := by
  unfold completeWord
  rw [if_neg (by simp)]
  refine modRun_congr _ _ ?_
  rw [markFin_zero_of_not_done h hdone]
  exact retire_stops _ fun x hx => by rwa [← Option.some.inj (h.symm.trans hx)]

/-- R116: a word that completes behind another one only bears its mark. -/
theorem completeWord_behind {k : Nat} (h : (s.core n).run.q.find? (QWord.ofUnit u) = some e) (hfin : e.fin = false) (hk : 0 < k)
    (ho : overlaps u = true) : completeWord s n u k = s.modRun n fun r => { r with q := markFin u k r.q } := by
  obtain ⟨k, rfl⟩ := Nat.exists_eq_succ_of_ne_zero hk.ne'
  unfold completeWord
  rw [if_neg (by simp [ho])]
  refine modRun_congr _ _ (retire_stops _ fun x hx => ?_)
  rw [find?_markFin_succ, h, Option.some.injEq] at hx
  rwa [← hx]

/-- R116: only the vector unit and the movers complete words out of order. -/
theorem completeWord_in_order {k : Nat} (hk : 0 < k) (ho : overlaps u = false) : completeWord s n u k = s :=
  if_pos ⟨hk.ne', by simp [ho]⟩

end

/-! ### The end of a program (R118, R437) -/

/-- R118: END is dispatched, every queue is empty and every ring is settled. -/
theorem programDone_of {s : State} {n : Nat} (hmode : (s.core n).mode = .running) (hended : (s.core n).run.ended = true)
    (hq : (s.core n).run.q = []) (hrings : ([0, 1].all fun m => (s.mover n m).rings.all ringSettled) = true) : programDone s n = true := by
  unfold programDone
  rw [hmode, hended, hq, hrings]
  rfl

/-- Settles O19: a completion charges its waits, which leaves the queues (`chargeWaits_q`), and then is one of the four cases of
`completeWord`; the other rows are their operations. -/
theorem coreProgress : Obligations.CoreProgress := by
  unfold Obligations.CoreProgress
  intro c s a m
  refine ⟨?complete, fun u causes l idle ho => ⟨fun off => chargedTo_cause ho, chargedTo_idle ho⟩, ?gates, ?ends, fun rate => ?rate⟩
  case complete =>
    intro u k waits e hmode hfirst hfin b
    have hbusy : (a.core c).mode ≠ .idle := by rcases hmode with h | h <;> rw [h] <;> decide
    have hb : (b.core c).run.q = (a.core c).run.q := chargeWaits_q u.val waits hbusy
    have hexec (k : Nat) : exec (.engineWordComplete c u k waits) s = .next (goOn (completeWord b c u k) c) := by
      rw [exec_engineWordComplete, run_meets m, wordComplete_busy hmode]
    rw [← hb] at hfirst ⊢
    refine ⟨fun hdone hnext => ?_, fun hdone => ?_, fun hk ho => ?_, fun hk ho => ?_⟩
    · rw [hexec, completeWord_oldest hfirst hdone hnext]
    · rw [hexec, completeWord_not_done hfirst hfin hdone]
    · rw [hexec, completeWord_in_order hk ho]
    · rw [hexec, completeWord_behind hfirst hfin hk ho]
  case gates =>
    rw [exec_gateRelease, run_meets m]
    rfl
  case ends =>
    intro hmode hended hq hrings
    rw [exec_programComplete, run_meets m, if_pos (programDone_of hmode hended hq hrings)]
  case rate =>
    rw [exec_rateSample, run_meets m]
    rfl

end Sys2Proof.CoreCompletion

namespace Sys2Proof.Preemption

open Sys2Proof Sys2Proof.Machine

/-! ### SAVE_COMPLETE (R131, R133, R134) -/

/-- The saved state of a core that is being saved (R133). -/
def savedOf (a : State) (n : Nat) : Saved :=
  { ctx := (a.core n).ctx, core := n, inReserve := !(a.core n).saveTarget, plotsz := a.plotsz, at0 := (a.core n).pointAt
    unit := ((unitOn a n).map WUnit.id).getD 0, run := (a.core n).run }

/-- The block as a save finds it: the unit of the core, where there is one, is charged. -/
def chargedOn (a : State) (n : Nat) : State :=
  match unitOn a n with
  | some u => chargeUnit a u
  | none => a

/-- The core once it is saved: it is free, and its reserve or its context's save area holds its state. -/
def freedCore (now : Nat) (c : Core) : Core :=
  let clean (m : Mover) : Mover := { m with rings := [{}, {}, {}, {}] }
  { c with
    mode := .idle, saveNs := now - c.pointAt, resFull := c.resFull || !c.saveTarget, resCtx := if c.saveTarget then c.resCtx else c.ctx
    run := { c.run.stop with mov0 := clean c.run.mov0, mov1 := clean c.run.mov1 } }

section

variable {a : State} {n : Nat}

/-- The charge of a unit: of contexts it changes only the unit's own, and nothing of that context's cores and slots. -/
theorem chargeUnit_parts (s : State) (u : WUnit) : ∃ f g h, chargeUnit s u = ((s.modCtx u.ctx f).modTrellis g).modUnit u.id h
    ∧ ∀ x : Ctx, (f x).cores = x.cores ∧ (f x).slots = x.slots :=
  ⟨_, _, _, rfl, fun _ => ⟨rfl, rfl⟩⟩

/-- The charge of a unit changes no byte, no saved state, no core and not the order of moves. -/
theorem chargeUnit_frame (s : State) (u : WUnit) :
    (chargeUnit s u).mem = s.mem ∧ (chargeUnit s u).saved = s.saved ∧ (chargeUnit s u).moveQ = s.moveQ ∧ (chargeUnit s u).cores = s.cores := by
  obtain ⟨f, g, h, heq, -⟩ := chargeUnit_parts s u
  rw [heq]
  simp [State.modUnit]

/-- Where the table of contexts is canonical, the charge of a unit leaves every context's cores and slots. -/
theorem chargeUnit_slots {s : State} (u : WUnit) (hwf : tabWf {} s.ctxs = true) (k : Nat) :
    ((chargeUnit s u).ctx k).cores = (s.ctx k).cores ∧ ((chargeUnit s u).ctx k).slots = (s.ctx k).slots := by
  obtain ⟨f, g, h, heq, hf⟩ := chargeUnit_parts s u
  have hcharge : (chargeUnit s u).ctx k = (s.modCtx u.ctx f).ctx k := by rw [heq]; simp [State.ctx, State.modUnit]
  rw [hcharge]
  by_cases hk : k = u.ctx
  · have hctx : (s.modCtx u.ctx f).ctx k = f (s.ctx k) := by
      rw [hk]
      exact tget_tput_same ({} : Ctx) u.ctx _ hwf
    rw [hctx]
    exact hf (s.ctx k)
  · have hctx : (s.modCtx u.ctx f).ctx k = s.ctx k := tget_tput_other ({} : Ctx) s.ctxs _ hk
    rw [hctx]
    exact ⟨rfl, rfl⟩

/-- A saved core is not the table's default: its reserve or its target tells of the save. -/
theorem freedCore_ne (now : Nat) (c : Core) : freedCore now c ≠ {} := by
  intro h
  have hfull : (c.resFull || !c.saveTarget) = false := congrArg Core.resFull h
  have htarget : c.saveTarget = false := congrArg Core.saveTarget h
  simp [htarget] at hfull

/-- The charge of the saved core's unit changes no byte, no saved state, no core and not the order of moves. -/
theorem chargedOn_frame (a : State) (n : Nat) :
    (chargedOn a n).mem = a.mem ∧ (chargedOn a n).saved = a.saved ∧ (chargedOn a n).moveQ = a.moveQ ∧ (chargedOn a n).cores = a.cores := by
  unfold chargedOn
  split
  next u _ =>
    obtain ⟨hmem, hsaved, hmoveQ, hcores⟩ := chargeUnit_frame a u
    exact ⟨hmem, hsaved, hmoveQ, hcores⟩
  next => exact ⟨rfl, rfl, rfl, rfl⟩

/-- Where the table of contexts is canonical, the charge of the saved core's unit leaves every save slot in its place (R135). -/
theorem slotAt_chargedOn (hwf : tabWf {} a.ctxs = true) (v : Saved) : slotAt (chargedOn a n) v = slotAt a v := by
  unfold chargedOn
  split
  next u _ =>
    obtain ⟨hcores, hslots⟩ := chargeUnit_slots u hwf v.ctx
    simp only [slotAt, hcores, hslots]
  next => rfl

/-- The bytes that a save leaves depend on memory and on the place of the slot. -/
theorem writeSlot_mem_congr {s t : State} {v : Saved} (hmem : s.mem = t.mem) (hslot : slotAt s v = slotAt t v) :
    (writeSlot s v).mem = (writeSlot t v).mem := by
  simp only [writeSlot, writeSparse, hmem, hslot]

/-- A unit that is ready again is one of the units only. -/
theorem unitSaved_frame (s : State) (n : Nat) :
    (unitSaved s n).mem = s.mem ∧ (unitSaved s n).saved = s.saved ∧ (unitSaved s n).moveQ = s.moveQ ∧ (unitSaved s n).cores = s.cores := by
  unfold unitSaved
  split
  next => exact ⟨rfl, rfl, rfl, rfl⟩
  next => split <;> simp [State.modUnit]

/-- The block in which the state of a saved core stands in its slot (R133). -/
def slotWritten (a : State) (n : Nat) : State :=
  leaveMove (writeSlot { chargedOn a n with saved := (chargedOn a n).saved ++ [savedOf a n] } (savedOf a n)) n

/-- SAVE_COMPLETE of a core whose state moves and is good (R131, R133, R136). -/
theorem saveComplete_eq (hmode : (a.core n).mode = .saving) (hmoves : moves a n = true) (hgood : runBad (a.core n).run = false) :
    saveComplete a n = unitSaved ((slotWritten a n).modCore n (freedCore a.now)) n := by
  have hdef : saveComplete a n = if (a.core n).mode ≠ .saving ∨ !moves a n then a else if runBad (a.core n).run then moveFault a n 0
      else unitSaved ((slotWritten a n).modCore n (freedCore a.now)) n := rfl
  rw [hdef, if_neg (by simp [hmode, hmoves]), if_neg (by simp [hgood])]

/-- What a save leaves of memory: the slot, where it lies once the core's unit is charged. -/
theorem saveComplete_mem (hmode : (a.core n).mode = .saving) (hmoves : moves a n = true) (hgood : runBad (a.core n).run = false) :
    (saveComplete a n).mem = (writeSlot (chargedOn a n) (savedOf a n)).mem := by
  obtain ⟨hmem, -⟩ := unitSaved_frame ((slotWritten a n).modCore n (freedCore a.now)) n
  rw [saveComplete_eq hmode hmoves hgood, hmem]
  simp only [State.modCore_frame, slotWritten, leaveMove]
  exact writeSlot_mem_congr rfl rfl

/-- The save clause of O25 holds where the table of contexts is canonical, as every table is that writes have made of the empty one. -/
theorem saveComplete_of_tabWf (hwf : tabWf {} a.ctxs = true) (hmode : (a.core n).mode = .saving) (hmoves : moves a n = true)
    (hgood : runBad (a.core n).run = false) :
    ((saveComplete a n).core n).mode = .idle ∧ (saveComplete a n).saved = a.saved ++ [savedOf a n]
      ∧ (saveComplete a n).mem = (writeSlot a (savedOf a n)).mem ∧ (saveComplete a n).moveQ = a.moveQ.filter (· != n) := by
  obtain ⟨hmem, hsaved, hmoveQ, -⟩ := chargedOn_frame a n
  obtain ⟨-, hsaved', hmoveQ', hcores'⟩ := unitSaved_frame ((slotWritten a n).modCore n (freedCore a.now)) n
  have hcore : ((slotWritten a n).modCore n (freedCore a.now)).core n = freedCore a.now ((slotWritten a n).core n) :=
    tget_tput_ne ({} : Core) _ n (freedCore_ne _ _)
  have hbytes := (saveComplete_mem hmode hmoves hgood).trans (writeSlot_mem_congr hmem (slotAt_chargedOn hwf (savedOf a n)))
  refine ⟨?idle, ?saved, hbytes, ?moveQ⟩
  all_goals rw [saveComplete_eq hmode hmoves hgood]
  case idle =>
    rw [State.core, hcores', ← State.core, hcore]
    rfl
  case saved =>
    rw [hsaved', ← hsaved]
    simp [slotWritten, leaveMove, writeSlot, writeSparse]
  case moveQ =>
    rw [hmoveQ', ← hmoveQ]
    simp [slotWritten, leaveMove, writeSlot, writeSparse]

end

/-! ### The bytes of a save slot (R134, Table 6-14) -/

/-- A byte outside every piece written reads as before. -/
theorem pieces_other (base j : Nat) (l : List (Nat × List Byte)) (m : Tab Byte)
    (h : ∀ e ∈ l, j < base + e.1 ∨ base + e.1 + e.2.length ≤ j) :
    tget 0 (l.foldl (fun m e => Memory.write m (base + e.1) e.2) m) j = tget 0 m j :=
  List.foldlRecOn (motive := fun x => tget 0 x j = tget 0 m j) l _ rfl fun _ hx e he => (Memory.write_other _ _ _ (h e he)).trans hx

/-- In a memory that held nothing, the bytes below a slot read as zero after its write. -/
theorem writeSlot_below {s : State} {v : Saved} {j : Nat} (hmem : s.mem = []) (hj : j < slotAt s v) :
    tget 0 (writeSlot s v).mem j = 0 := by
  simp only [writeSlot, writeSparse, hmem, List.filter_nil]
  exact pieces_other (slotAt s v) j (slotPieces v) [] fun e _ => .inl (by omega)

/-- The pieces of a slot behind the header's first eight bytes. -/
theorem slotPieces_tail (v : Saved) : ∀ e ∈ (slotPieces v).tail, 8 ≤ e.1 := by
  have hheader : ∀ e ∈ (headerPieces v).tail, 8 ≤ e.1 := by simp [headerPieces]
  have hregion (o : Nat) (ho : 8 ≤ o) (l : List (Nat × List Byte)) : ∀ e ∈ l.map fun e => (o + e.1, e.2), 8 ≤ e.1 := by
    intro e he
    obtain ⟨x, -, rfl⟩ := List.mem_map.mp he
    exact Nat.le_add_right_of_le ho
  have htail : (slotPieces v).tail = (headerPieces v).tail ++ (arrayPieces v.run).map (fun e => (0x1000 + e.1, e.2))
      ++ (furrowPieces v.run).map (fun e => (0x227800 + e.1, e.2)) ++ (moverPieces v.run).map fun e => (0x24A400 + e.1, e.2) := rfl
  intro e he
  rw [htail, List.mem_append, List.mem_append, List.mem_append] at he
  rcases he with ((he | he) | he) | he
  · exact hheader e he
  · exact hregion 0x1000 (by decide) _ e he
  · exact hregion 0x227800 (by decide) _ e he
  · exact hregion 0x24A400 (by decide) _ e he

/-- The first word of a slot (Table 6-14) has 1 in its lowest byte. -/
theorem slotPieces_head (v : Saved) : ∃ rest, slotPieces v = (0, 1 :: rest) :: (slotPieces v).tail := by
  have hbyte : BitVec.ofNat 8 (1 + v.ctx * 2 ^ 16 + v.core * 2 ^ 28 + v.plotsz * 2 ^ 35 + v.core / (4 * 2 ^ v.plotsz) * 2 ^ 38) = 1 := by
    apply BitVec.eq_of_toNat_eq
    rw [BitVec.toNat_ofNat]
    generalize v.core / (4 * 2 ^ v.plotsz) = plot
    show _ % 256 = 1
    omega
  rw [← hbyte]
  exact ⟨_, rfl⟩

/-- The first byte of a slot tells that it holds a state. -/
theorem writeSlot_first (s : State) (v : Saved) : tget 0 (writeSlot s v).mem (slotAt s v) = 1 := by
  obtain ⟨rest, hpieces⟩ := slotPieces_head v
  simp only [writeSlot, writeSparse]
  rw [hpieces, List.foldl_cons, pieces_other (slotAt s v) _ _ _ fun e he => .inl (by have := slotPieces_tail v e he; omega)]
  simp only [Nat.add_zero, Memory.write]
  rw [Memory.write_other _ _ _ (.inl (by omega))]
  exact tget_tput_ne 0 _ _ (by decide)

/-! ### A table of contexts that lists a context twice -/

/-- The counterexample to O25: a part that is on, whose table of contexts lists context 1 four times, three times at the default and last
with a save area; the unit of core 3, which is being saved to LPDDR5X, is the context's. -/
def listedAgain : State :=
  { State.reset with
    start := { State.reset.start with pwrok := true }
    cores := [(3, { mode := .saving, ctx := 1, saveTarget := true })]
    units := [{ id := 7, ctx := 1, st := 5, cores := [3] }]
    ctxs := [(1, {}), (1, {}), (1, {}), (1, { cores := [3], slots := [0x1000] })] }

/-- What the part's own progress, which charges the unit twice, leaves of it. -/
theorem listedAgain_advance :
    powered listedAgain = true ∧ ((advance listedAgain).core 3).mode = .saving ∧ moves (advance listedAgain) 3 = true
      ∧ runBad ((advance listedAgain).core 3).run = false := by decide +kernel

/-- As the save begins, the context shows no save area; once the unit is charged, the save area shows, and the slot lies elsewhere. -/
theorem listedAgain_slot :
    slotAt (advance listedAgain) (savedOf (advance listedAgain) 3) = 0
      ∧ slotAt (chargedOn (advance listedAgain) 3) (savedOf (advance listedAgain) 3) = 0x1000
      ∧ (advance listedAgain).mem = [] := by decide +kernel

/-- Refutes O25: it lets the table of contexts be any list, and where that list names a context twice the charge of the core's unit, which
takes a default entry away, brings another save area to light, so the state goes to another slot than the statement says. The
counterexample is `listedAgain`. With a canonical table the clause holds (`saveComplete_of_tabWf`). -/
theorem not_preemption : ¬ Obligations.Preemption := by
  unfold Obligations.Preemption
  intro h
  obtain ⟨hon, hmode, hmoves, hgood⟩ := listedAgain_advance
  have m : Meets listedAgain (advance listedAgain) := ⟨hon, rfl⟩
  obtain ⟨-, hsave, -⟩ := h 3 listedAgain (advance listedAgain) m
  obtain ⟨hsaves, -⟩ := hsave hmode hmoves
  obtain ⟨t, hexec, -, -, hmem, -⟩ := hsaves hgood
  rw [exec_saveComplete, run_meets m] at hexec
  injection hexec with ht
  rw [← ht] at hmem
  obtain ⟨hsaid, hthere, hempty⟩ := listedAgain_slot
  obtain ⟨hkept, -⟩ := chargedOn_frame (advance listedAgain) 3
  have hzero : tget 0 (saveComplete (advance listedAgain) 3).mem 0 = 0 := by
    rw [saveComplete_mem hmode hmoves hgood]
    exact writeSlot_below (hkept.trans hempty) (by rw [hthere]; decide)
  have hone : tget 0 (writeSlot (advance listedAgain) (savedOf (advance listedAgain) 3)).mem 0 = 1 := by
    have hfirst := writeSlot_first (advance listedAgain) (savedOf (advance listedAgain) 3)
    rwa [hsaid] at hfirst
  have hbyte := congrArg (fun x => tget 0 x 0) hmem
  exact absurd (hzero.symm.trans (hbyte.trans hone)) (by decide)

end Sys2Proof.Preemption

namespace Sys2Proof.LocalMemory

open Sys2Proof Sys2Proof.Machine

/-! ### The pieces of a span (R144, R152) -/

/-- The numbers counted from `start`. -/
theorem mem_countFrom {start n k : Nat} : k ∈ countFrom start n ↔ start ≤ k ∧ k < start + n := by
  simp only [countFrom, List.mem_map, List.mem_range]
  constructor
  · rintro ⟨i, hi, rfl⟩
    omega
  · rintro ⟨hlo, hhi⟩
    exact ⟨k - start, by omega, by omega⟩

/-- A piece belongs to a span when the two have a byte in common. -/
theorem mem_spanLines {unit a n k : Nat} (hunit : 0 < unit) : k ∈ spanLines unit a n ↔ 0 < n ∧ a < (k + 1) * unit ∧ k * unit < a + n := by
  unfold spanLines
  split
  case isTrue h => simp [h]
  case isFalse h =>
    have hlo : a / unit ≤ k ↔ a < (k + 1) * unit := by rw [← Nat.div_lt_iff_lt_mul hunit, Nat.lt_succ_iff]
    have hhi : k ≤ (a + n - 1) / unit ↔ k * unit ≤ a + n - 1 := Nat.le_div_iff_mul_le hunit
    have hle : a / unit ≤ (a + n - 1) / unit := Nat.div_le_div_right (by omega)
    rw [mem_countFrom, ← hlo]
    omega

/-- A whole piece of a span is one of its pieces, and the span holds every byte of it. -/
theorem mem_wholeLines {unit a n k : Nat} : k ∈ wholeLines unit a n ↔ k ∈ spanLines unit a n ∧ a ≤ k * unit ∧ (k + 1) * unit ≤ a + n := by
  simp [wholeLines]

/-- An aligned 64 B is one piece. -/
theorem spanLines_line {y : Nat} (hy : y % 64 = 0) : spanLines 64 y 64 = [y / 64] := by
  have hcount : (y + 64 - 1) / 64 - y / 64 + 1 = 1 := by omega
  rw [spanLines, if_neg (by decide), hcount]
  rfl

/-! ### Lists of marks -/

/-- What an ascending list holds after an insertion. -/
@[simp] theorem mem_ninsert {l : List Nat} {a k : Nat} : k ∈ ninsert l a ↔ k = a ∨ k ∈ l := by
  induction l with
  | nil => simp [ninsert]
  | cons b t ih =>
    rw [ninsert]
    split
    · simp
    · split
      case isTrue h => simp [h]
      case isFalse => simp [ih, or_left_comm]

/-- What an ascending list holds after the insertion of several numbers. -/
theorem mem_foldl_ninsert {ks l : List Nat} {k : Nat} : k ∈ ks.foldl ninsert l ↔ k ∈ ks ∨ k ∈ l := by
  induction ks generalizing l with
  | nil => simp
  | cons a t ih => simp [ih, or_left_comm, or_assoc]

section

variable {s : State} {x : Nat} {l : List Byte} {bad : Bool}

/-! ### The bytes of a write (R152) -/

/-- What was written is read back. -/
theorem readMem_writeMem_same (hwf : Memory.wf s.mem = true) : readMem (writeMem s x l bad) x l.length = l := by
  refine List.ext_getElem (by simp [readMem, bytesAt, countFrom]) fun i hi hl => ?_
  simpa [readMem, bytesAt, countFrom] using Memory.write_same x l hwf hl

/-- Bytes outside a write read as before. -/
theorem readMem_writeMem_other {y n : Nat} (h : y + n ≤ x ∨ x + l.length ≤ y) : readMem (writeMem s x l bad) y n = readMem s y n := by
  simp only [readMem, bytesAt, writeMem_mem]
  refine List.map_congr_left fun j hj => Memory.write_other _ _ _ ?_
  rw [mem_countFrom] at hj
  omega

/-! ### The counters of a write (R156, Table 15-3) -/

/-- A write counts its bytes of LPDDR5X. -/
theorem writeMem_obytes : (writeMem s x l bad).obytes = s.obytes + lpCount x l.length := by
  unfold writeMem
  simp only
  repeat' split
  all_goals rfl

/-- A write counts the rows that it touches. -/
theorem writeMem_rowAcc : (writeMem s x l bad).rowAcc = s.rowAcc + rowCountOf x l.length := by
  unfold writeMem
  simp only
  repeat' split
  all_goals rfl

/-! ### The marks of a write (R144, R152) -/

/-- The poison marks after a write of LPDDR5X: without poison the whole 64 B lose theirs, with poison each 64 B touched gets one. -/
theorem writeMem_poison (hlp : inLp x l.length = true) : (writeMem s x l bad).poison =
    if bad then (spanLines 64 x l.length).foldl ninsert s.poison else s.poison.filter fun k => !(wholeLines 64 x l.length).contains k := by
  cases bad <;> simp [writeMem, hlp]

/-- The 64 B with a correctable error after a write of LPDDR5X without poison. -/
theorem writeMem_soft64 (hlp : inLp x l.length = true) :
    (writeMem s x l false).soft64 = s.soft64.filter fun k => !(wholeLines 64 x l.length).contains k := by
  simp [writeMem, hlp]

/-- The marks of rows after a write of the scratchpads without poison. -/
theorem writeMem_rows (hap : inAperture x l.length = true) (hlp : inLp x l.length = false) :
    let kept (k : Nat) := !(wholeLines 512 (x - 0x010000000000) l.length).contains k
    (writeMem s x l false).softRows = s.softRows.filter kept ∧ (writeMem s x l false).badRows = s.badRows.filter kept := by
  simp [writeMem, hap, hlp]

/-- An aligned 64 B of LPDDR5X is poisoned when its mark is there. -/
theorem isPoisoned_line {y : Nat} (hlp : inLp y 64 = true) (hy : y % 64 = 0) : isPoisoned s y 64 = true ↔ y / 64 ∈ s.poison := by
  simp [isPoisoned, hlp, spanLines_line hy]

/-- An aligned 64 B that a span of LPDDR5X touches lies in LPDDR5X. -/
theorem inLp_of_touched {y n : Nat} (hlp : inLp x n = true) (hy : y % 64 = 0) (htouch : y < x + n) : inLp y 64 = true := by
  simp only [inLp, decide_eq_true_eq] at hlp ⊢
  omega

variable {y : Nat} (hlp : inLp x l.length = true) (hy : y % 64 = 0)
include hlp hy

/-- A 64 B outside a write keeps its mark. -/
theorem isPoisoned_writeMem_other (hline : inLp y 64 = true) (hout : y + 64 ≤ x ∨ x + l.length ≤ y) :
    isPoisoned (writeMem s x l bad) y 64 = isPoisoned s y 64 := by
  have hspan : y / 64 ∉ spanLines 64 x l.length := by
    rw [mem_spanLines (by decide)]
    omega
  have hwhole : y / 64 ∉ wholeLines 64 x l.length := fun h => hspan (mem_wholeLines.mp h).1
  rw [Bool.eq_iff_iff, isPoisoned_line hline hy, isPoisoned_line hline hy, writeMem_poison hlp]
  cases bad with
  | false => simp [hwhole]
  | true => simp [mem_foldl_ninsert, hspan]

/-- A 64 B that is written whole without poison is poisoned no more. -/
theorem isPoisoned_writeMem_whole (hlo : x ≤ y) (hhi : y + 64 ≤ x + l.length) : isPoisoned (writeMem s x l false) y 64 = false := by
  have hline : inLp y 64 = true := inLp_of_touched hlp hy (by omega)
  have hwhole : y / 64 ∈ wholeLines 64 x l.length := by
    rw [mem_wholeLines, mem_spanLines (by decide)]
    omega
  rw [Bool.eq_false_iff, ne_eq, isPoisoned_line hline hy, writeMem_poison hlp]
  simp [hwhole]

/-- A 64 B that a write with poison touches is poisoned. -/
theorem isPoisoned_writeMem_touched (hlo : x < y + 64) (hhi : y < x + l.length) (hlen : 0 < l.length) :
    isPoisoned (writeMem s x l true) y 64 = true := by
  have hspan : y / 64 ∈ spanLines 64 x l.length := by
    rw [mem_spanLines (by decide)]
    omega
  rw [isPoisoned_line (inLp_of_touched hlp hy hhi) hy, writeMem_poison hlp, if_pos rfl, mem_foldl_ninsert]
  exact .inl hspan

end

/-- Settles O50: the bytes of a write by the laws of the memory table, its marks by the pieces that its span touches and covers. -/
theorem localMemory : Obligations.LocalMemory := by
  unfold Obligations.LocalMemory
  intro s x l bad
  refine ⟨fun hwf => ⟨writeMem_wf x l bad hwf, readMem_writeMem_same hwf⟩, fun y n hout => readMem_writeMem_other hout, writeMem_obytes,
    writeMem_rowAcc, fun k hk hlp => ?_, fun k hap hlp hk => ?_, fun hlp => ⟨?_, ?_, ?_⟩⟩
  · simp [writeMem_soft64 hlp, hk]
  · obtain ⟨hsoft, hbad⟩ := writeMem_rows (s := s) hap hlp
    simp [hsoft, hbad, hk]
  · exact fun y hline hy hout => isPoisoned_writeMem_other hlp hy hline hout
  · exact fun y hy hlo hhi => isPoisoned_writeMem_whole hlp hy hlo hhi
  · exact fun y hy hlo hhi hlen => isPoisoned_writeMem_touched hlp hy hlo hhi hlen

end Sys2Proof.LocalMemory

namespace Sys2Proof.MemoryErrors

open Sys2Proof Sys2Proof.Machine

/-! ### WEEDING (R145, R147) -/

/-- Weeding of a core's bank has found an uncorrectable row (R145, R147, Table 18-7): the row is marked and reported, and the core, whose
count of corrected words then stands at `count`, keeps it in SP_UE_LAST. -/
def weedLost (a : State) (n bank : Nat) (forced : Bool) (count : Nat) : State :=
  let row := (weedNext a.spSplit (a.core n) bank).1
  let k := (weedNext a.spSplit (a.core n) bank).2
  rowLost
    { a.setCore n { k with
        weedForced := k.weedForced + b2n forced, spCe := count, spUe := satAdd 0xFFFFFFFFFFFFFFFF k.spUe 1, ueRow := row, ueControl := false, ueWeed := true
        ueValid := true } with
      badRows := ninsert a.badRows (rowKey n row), rowAcc := a.rowAcc + 1 } n row

/-- What weeding makes of a row without an uncorrectable word: a corrected one, which the command or the row's own mark shows, is counted,
signalled and mended. -/
theorem weed_correctable (a : State) (n bank : Nat) (ce forced : Bool) :
    let row := (weedNext a.spSplit (a.core n) bank).1
    let k := (weedNext a.spSplit (a.core n) bank).2
    let soft := ce || a.softRows.contains (rowKey n row)
    let t := { a.setCore n { k with weedForced := k.weedForced + b2n forced, spCe := satAdd 0xFFFFFFFFFFFFFFFF k.spCe (b2n soft) } with
      softRows := a.softRows.filter (· != rowKey n row), rowAcc := a.rowAcc + 1 }
    weed a n bank ce false forced = if soft then t.modCxl fun x => { x with correctable := true } else t := by
  simp [weed]

/-- What weeding makes of an uncorrectable row. It adds nothing to the count of corrected words, but writes that count back through the
counter's stop at its top. -/
theorem weed_uncorrectable (a : State) (n bank : Nat) (ce forced : Bool) :
    weed a n bank ce true forced
      = weedLost a n bank forced (min 0xFFFFFFFFFFFFFFFF (weedNext a.spSplit (a.core n) bank).2.spCe) := by
  simp [weed, weedLost, satAdd, b2n]

/-- The choice of the row that weeding reads next counts no correction. -/
@[simp] theorem weedNext_spCe (split : Bool) (c : Core) (bank : Nat) : (weedNext split c bank).2.spCe = c.spCe := by
  unfold weedNext
  split
  · rfl
  · simp only [apply_ite Core.spCe, ite_self]

/-- The clause of O51 on an uncorrectable row holds where the count of corrected words fits its counter, as it does after every count. -/
theorem weed_uncorrectable_of_count_le (a : State) (n bank : Nat) (ce forced : Bool) (hcount : (a.core n).spCe ≤ 0xFFFFFFFFFFFFFFFF) :
    weed a n bank ce true forced = weedLost a n bank forced (weedNext a.spSplit (a.core n) bank).2.spCe := by
  rw [weed_uncorrectable, weedNext_spCe, Nat.min_eq_right hcount]

/-- A row below the peg records (Table 18-7) has no owner, so its loss is reported as the core's. -/
theorem rowLost_below_pegs (s : State) (n : Nat) {row : Nat} (hrow : row < 43776) :
    rowLost s n row = reportUncorr s { source := 1, index := n, addr := rowAddr n row } := by
  have hpegs : ¬43776 ≤ row := by omega
  simp [rowLost, hpegs]

/-! ### PATROL (R152, R155) -/

section

variable {a : State} {ch line : Nat} {ce ue : Bool}

/-- Patrol of a channel does not read a line of another one, nor one outside LPDDR5X. -/
theorem patrol_elsewhere (h : inLp (line * 64) 64 = false ∨ chanOf a (line * 64) ≠ ch) : patrol a ch line ce ue = a := by
  rcases h with h | h <;> simp [patrol, h]

variable (hlp : inLp (line * 64) 64 = true) (hch : chanOf a (line * 64) = ch)
include hlp hch

/-- A good 64 B counts as a read. -/
theorem patrol_good (hsoft : line ∉ a.soft64) : patrol a ch line false false = noteRead a (line * 64) 64 := by
  simp [patrol, hlp, hch, hsoft]

/-- A corrected 64 B is counted and signalled. -/
theorem patrol_corrected (hsoft : ce = true ∨ line ∈ a.soft64) : patrol a ch line ce false =
    (countChan { noteRead a (line * 64) 64 with soft64 := a.soft64.filter (· != line) } ch 1 0).modCxl fun x => { x with correctable := true } := by
  rcases hsoft with h | h <;> simp [patrol, hlp, hch, h]

/-- An uncorrectable 64 B outside the journal is marked and reported, and entries spilled there are lost. -/
theorem patrol_uncorrectable (hj : inJournal (line * 64) = false) : patrol a ch line ce true =
    let t := countChan (noteRead a (line * 64) 64) ch 0 1
    spillLost (reportUncorr { t with poison := ninsert t.poison line } { source := 4, index := ch, addr := line * 64 }) (line * 64) := by
  simp [patrol, hlp, hch, hj]

/-- An uncorrectable 64 B of the journal is repaired and reported. -/
theorem patrol_journal (hj : inJournal (line * 64) = true) : patrol a ch line ce true =
    reportUncorr ((countChan (noteRead a (line * 64) 64) ch 0 1).modFaults fun f => { f with jrepair := f.jrepair + 1 })
      { source := 6, index := ch, addr := line * 64 } := by
  simp [patrol, hlp, hch, hj]

end

/-! ### A count above the counter's top -/

/-- The counterexample to O51: a part that is on, whose core 0 has a count of corrected words one above the top of its counter. -/
def overCounted : State :=
  { State.reset with start := { State.reset.start with pwrok := true }, cores := [(0, { spCe := 0x10000000000000000 })] }

theorem overCounted_meets : Meets overCounted overCounted := by
  unfold Meets
  decide +kernel

/-- The report of the row changes no count, so the core keeps the count that weeding wrote. -/
theorem overCounted_counts :
    ((weedLost overCounted 0 0 false 0xFFFFFFFFFFFFFFFF).core 0).spCe = 0xFFFFFFFFFFFFFFFF
      ∧ ((weedLost overCounted 0 0 false 0x10000000000000000).core 0).spCe = 0x10000000000000000 := by decide +kernel

/-- Refutes O51: it lets a core's count of corrected words be any number, and where that number is above the counter's top, the WEEDING of
an uncorrectable row brings it down to the top, while the statement keeps it. The counterexample is `overCounted`. With a count that fits
its counter the clause holds (`weed_uncorrectable_of_count_le`). -/
theorem not_memoryErrors : ¬ Obligations.MemoryErrors := by
  unfold Obligations.MemoryErrors
  intro h
  obtain ⟨hweed, -, -⟩ := h overCounted overCounted overCounted_meets
  obtain ⟨-, hlost⟩ := hweed 0 0 false true false
  have hstated : exec (.weeding 0 0 false true false) overCounted
      = .next (weedLost overCounted 0 0 false (weedNext overCounted.spSplit (overCounted.core 0) 0).2.spCe) := hlost rfl
  have hmodel : exec (.weeding 0 0 false true false) overCounted
      = .next (weedLost overCounted 0 0 false (min 0xFFFFFFFFFFFFFFFF (weedNext overCounted.spSplit (overCounted.core 0) 0).2.spCe)) := by
    rw [exec_weeding, run_meets overCounted_meets]
    exact congrArg _ (weed_uncorrectable overCounted 0 0 false false)
  have hcount : (overCounted.core 0).spCe = 0x10000000000000000 := rfl
  rw [hmodel, weedNext_spCe, hcount] at hstated
  injection hstated with hstates
  obtain ⟨htop, habove⟩ := overCounted_counts
  have hcounts := congrArg (fun t => (t.core 0).spCe) hstates
  exact absurd (htop.symm.trans (hcounts.trans habove)) (by decide)

end Sys2Proof.MemoryErrors

namespace Sys2Proof.TrayOpening

open Sys2Proof Sys2Proof.Machine

/-! ### A tray that has just been written -/

/-- A tray that holds a packet is read back as it was set: it is not the table's default. -/
theorem tray_setTray_of_packets (s : State) (n : Nat) {t : Tray} (h : t.packets ≠ []) : (s.setTray n t).tray n = t :=
  tget_tput_ne ({} : Tray) s.trays n fun ht => h (congrArg Tray.packets ht)

/-- PADDR (R167): a tray whose last packet is the one just opened shows that packet's first ring word. -/
theorem paddr_setTray (s : State) (n : Nat) {t : Tray} {l : List Packet} {p : Packet} (h : t.packets = l ++ [p]) :
    let u := (s.setTray n t).tray n
    ((u.packets.getLast?.map fun q => u.wordAddr q.pos).getD 0) = t.wordAddr p.pos := by
  intro u
  have hu : u = t := tray_setTray_of_packets s n (by simp [h])
  simp [hu, h]

/-- A tray accepts a packet as its last one. -/
theorem accept_packets (t : Tray) (p : Packet) : (t.accept p).packets = t.packets ++ [p] := by
  unfold Tray.accept
  split <;> rfl

/-- The ring of a tray stays in its place as a packet is accepted. -/
theorem accept_wordAddr (t : Tray) (p : Packet) (w : Nat) : (t.accept p).wordAddr w = t.wordAddr w := by
  unfold Tray.accept
  split <;> rfl

/-! ### What OPEN makes of the tray's answer (R168) -/

/-- The block as the tray of an OPEN finds it: no answer is shown yet. -/
def silent (s : State) : State := { s with readOut := [] }

theorem silent_readOut (s : State) : (silent s).readOut = [] := rfl

section

variable {s s1 : State} {n : Nat} {e : TrayEntry} {node : Nat} {own : Bool}

/-- An OPEN that is refused shows the status. -/
theorem openPkt_refused {st : Nat} (h : trayOpen (silent s) n e node own .none = (s1, .refused st)) (hout : s1.readOut = []) :
    openPkt s n e node own = { flushAcks s1 with readOut := openAnswer st false 0 0 } := by
  rw [silent] at h
  simp only [openPkt, h, hout, List.append_nil]

/-- An OPEN of a committed PSEQ shows that packet's SEQ. -/
theorem openPkt_dup {seq : Nat} (h : trayOpen (silent s) n e node own .none = (s1, .dup seq)) (hout : s1.readOut = []) :
    openPkt s n e node own = { flushAcks s1 with readOut := openAnswer stOK true seq 0 } := by
  rw [silent] at h
  simp only [openPkt, h, hout, List.append_nil]

/-- An OPEN whose packet is lost shows no PADDR. -/
theorem openPkt_discarded (h : trayOpen (silent s) n e node own .none = (s1, .discarded)) (hout : s1.readOut = []) :
    openPkt s n e node own = { flushAcks s1 with readOut := openAnswer stOK false 0 0 } := by
  rw [silent] at h
  simp only [openPkt, h, hout, List.append_nil]

/-- An OPEN that opens a packet shows its PADDR, and after it the answer of a COMMIT that the OPEN replaces. -/
theorem openPkt_opened {t : Tray} {l : List Packet} {p : Packet}
    (h : trayOpen (silent s) n e node own .none = (s1.setTray n t, .opened)) (hp : t.packets = l ++ [p]) :
    openPkt s n e node own =
      { flushAcks (s1.setTray n t) with readOut := openAnswer stOK false 0 (t.wordAddr p.pos) ++ s1.readOut } := by
  rw [silent] at h
  simp only [openPkt, h, paddr_setTray s1 n hp]
  rfl

end

/-! ### The tray's answer to an OPEN (R167, step 2) -/

/-- R170: the open packet of an entry's PSEQ, where a tray of version 2 has one, is taken back, and its producer told. -/
def cleared (s : State) (n : Nat) (e : TrayEntry) : State :=
  match (if (s.tray n).fmtver = 2 then (s.tray n).packets.find? (isOpen e.slot e.pseq) else none) with
  | some p => answerPkt (rewind s n p) p stCANCELLED
  | none => s

/-- With no open packet of the PSEQ nothing is taken back. -/
theorem cleared_of_none {s : State} {n : Nat} {e : TrayEntry}
    (h : (s.tray n).fmtver = 2 → (s.tray n).packets.find? (isOpen e.slot e.pseq) = none) : cleared s n e = s := by
  unfold cleared
  split
  next p hp =>
    split at hp
    · rw [h ‹_›] at hp
      cases hp
    · cases hp
  next => rfl

/-- The open packet of the PSEQ is rewound and its COMMIT cancelled. -/
theorem cleared_of_some {s : State} {n : Nat} {e : TrayEntry} {p : Packet} (hver : (s.tray n).fmtver = 2)
    (h : (s.tray n).packets.find? (isOpen e.slot e.pseq) = some p) : cleared s n e = answerPkt (rewind s n p) p stCANCELLED := by
  simp only [cleared, if_pos hver, h]

/-- The slot whose credit an entry takes: the one that it names, and in version 1 the implicit one (R185). -/
def slotOf (t : Tray) (e : TrayEntry) : Nat := if t.fmtver = 2 then e.slot else 0

/-- The credit of a slot and the free ring words of a tray suffice for an entry (R178, log 91). -/
def HasRoom (t : Tray) (k : Nat) (e : TrayEntry) : Prop :=
  1 ≤ (t.slot k).pktAvail ∧ e.length + 1 ≤ (t.slot k).wordAvail ∧ t.words + (e.length + 1) ≤ t.ringWords

/-- A work tray that has taken an entry, whose PSEQ no longer stands among the expired ones. -/
def taken (s : State) (t : Tray) (e : TrayEntry) (node : Nat) : Tray :=
  { t.accept (newPacket s t e node .none) with expired := if t.fmtver = 2 then t.expired.filter (· != (e.slot, e.pseq)) else t.expired }

section

variable {s : State} {n : Nat} {e : TrayEntry} {node : Nat} {own : Bool}

/-- A check of Table 8-3 refuses. -/
theorem trayOpen_refused (h : openCheck s (s.tray n) e node own ≠ stOK) :
    trayOpen s n e node own .none = (s, .refused (openCheck s (s.tray n) e node own)) := by
  simp only [trayOpen, if_pos h]

variable (hok : openCheck s (s.tray n) e node own = stOK)

section

variable (hkind : (s.tray n).kind ≠ 1)

include hok hkind

/-- A log or telemetry tray that has made room takes the packet (R180). -/
theorem trayOpen_log_opened {t : Tray} (ht : logMakeRoom (e.length + 1) s.now (s.tray n).packets.length (s.tray n) = t)
    (hwords : t.words + (e.length + 1) ≤ t.ringWords) (hpackets : t.packets.length < t.maxpkt) :
    trayOpen s n e node own .none = (s.setTray n (t.accept (newPacket s t e node .none)), .opened) := by
  simp only [trayOpen, if_neg (not_not.mpr hok), if_pos hkind, ht, if_pos (And.intro hwords hpackets)]

/-- A log or telemetry tray that cannot make room loses the packet (R180). -/
theorem trayOpen_log_discarded {t : Tray} (ht : logMakeRoom (e.length + 1) s.now (s.tray n).packets.length (s.tray n) = t)
    (h : t.maxpkt ≤ t.packets.length ∨ t.ringWords < t.words + (e.length + 1)) :
    trayOpen s n e node own .none = (s.setTray n { t with lost := t.lost + 1 }, .discarded) := by
  have hfull : ¬(t.words + (e.length + 1) ≤ t.ringWords ∧ t.packets.length < t.maxpkt) := by omega
  simp only [trayOpen, if_neg (not_not.mpr hok), if_pos hkind, ht, if_neg hfull]

end

variable (hkind : (s.tray n).kind = 1)

include hok hkind

/-- R433: a full journal pauses the acceptance of work packets. -/
theorem trayOpen_jfull (hj : jfull s = true) : trayOpen s n e node own .none =
    (if s.faults.jpaused then s else s.modFaults fun f => { f with jfull := f.jfull + 1, jpaused := true }, .refused stNOCREDIT) := by
  simp only [trayOpen, if_neg (not_not.mpr hok), if_neg (not_not.mpr hkind), if_pos hj]

variable (hj : jfull s = false)

include hj

/-- R170: the tray knows a PSEQ that has committed. -/
theorem trayOpen_dup (hver : (s.tray n).fmtver = 2) (hdup : pseqClass ((s.tray n).slot e.slot) e.pseq = .dup) :
    trayOpen s n e node own .none =
      (s, .dup ((((s.tray n).packets.find? fun p => p.slot == e.slot && p.pseq == e.pseq && p.seq != 0).map Packet.seq).getD 0)) := by
  simp [trayOpen, hok, hkind, hj, hver, hdup]

section

variable (hfresh : (s.tray n).fmtver = 2 → pseqClass ((s.tray n).slot (slotOf (s.tray n) e)) e.pseq = .fresh) {c : State}
  (hc : cleared s n e = c)

include hfresh hc

/-- A work tray takes an entry of a fresh PSEQ, or refuses it for want of credit or ring words, once an open packet of that PSEQ is gone. -/
theorem trayOpen_fresh :
    let x := (c.tray n).slot (slotOf (s.tray n) e)
    trayOpen s n e node own .none =
      if x.pktAvail < 1 ∨ x.wordAvail < e.length + 1 ∨ (c.tray n).ringWords < (c.tray n).words + (e.length + 1) then
        (c.setTray n { c.tray n with nocredit := (c.tray n).nocredit + 1 }, .refused stNOCREDIT)
      else (c.setTray n (taken c (c.tray n) e node), .opened) := by
  have hnotdup : ¬(decide ((s.tray n).fmtver = 2) && pseqClass ((s.tray n).slot (slotOf (s.tray n) e)) e.pseq == .dup) = true := by
    by_cases hver : (s.tray n).fmtver = 2
    · simp [hfresh hver]
    · simp [hver]
  rw [slotOf] at hnotdup
  subst hc
  simp only [trayOpen, if_neg (not_not.mpr hok), if_neg (not_not.mpr hkind), hj, Bool.false_eq_true, if_false, if_neg hnotdup]
  rfl

/-- A work tray with room takes the entry. -/
theorem trayOpen_taken (hroom : HasRoom (c.tray n) (slotOf (s.tray n) e) e) :
    trayOpen s n e node own .none = (c.setTray n (taken c (c.tray n) e node), .opened) := by
  obtain ⟨hpkt, hword, hring⟩ := hroom
  rw [trayOpen_fresh hok hkind hj hfresh hc, if_neg (by omega)]

/-- A work tray without room refuses the entry and counts it (R178). -/
theorem trayOpen_noCredit (hroom : ¬HasRoom (c.tray n) (slotOf (s.tray n) e) e) :
    trayOpen s n e node own .none = (c.setTray n { c.tray n with nocredit := (c.tray n).nocredit + 1 }, .refused stNOCREDIT) := by
  rw [HasRoom] at hroom
  rw [trayOpen_fresh hok hkind hj hfresh hc, if_pos (by omega)]

end

end

/-- The packet that a work tray has taken is its last one. -/
theorem taken_packets (s : State) (t : Tray) (e : TrayEntry) (node : Nat) :
    (taken s t e node).packets = t.packets ++ [newPacket s t e node .none] := accept_packets t _

/-- The ring of a work tray stays in its place as it takes a packet. -/
theorem taken_wordAddr (s : State) (t : Tray) (e : TrayEntry) (node w : Nat) : (taken s t e node).wordAddr w = t.wordAddr w :=
  accept_wordAddr t (newPacket s t e node .none) w

/-- An OPEN that a work tray takes, once an open packet of its PSEQ is gone. -/
theorem openPkt_taken {s c : State} {n : Nat} {e : TrayEntry} {node : Nat} {own : Bool}
    (h : trayOpen (silent s) n e node own .none = (c.setTray n (taken c (c.tray n) e node), .opened)) :
    openPkt s n e node own = { flushAcks (c.setTray n (taken c (c.tray n) e node)) with
      readOut := openAnswer stOK false 0 ((c.tray n).wordAddr (c.tray n).nextWord) ++ c.readOut } := by
  have hopened := openPkt_opened h (taken_packets c (c.tray n) e node)
  rwa [taken_wordAddr] at hopened

/-! ### O26 -/

/-- Settles O26: the tray's answer in each case is a lemma about `trayOpen`, and what OPEN shows of it one about `openPkt`. -/
theorem trayOpens : Obligations.TrayOpens := by
  unfold Obligations.TrayOpens
  refine ⟨fun n e node own s a m => ?opens, fun n e node own s a m => ?stays⟩
  all_goals rw [exec_openPkt, run_meets m]
  case opens =>
    intro t b k room takes hok
    refine ⟨fun hkind hj hfresh => ⟨fun hnone hroom => congrArg _ ?fresh, fun p hver hopen => ?again⟩, fun hkind => ⟨?logged, ?lost⟩⟩
    case fresh =>
      have hopened := openPkt_taken (trayOpen_taken (s := silent a) hok hkind hj hfresh (cleared_of_none hnone) hroom)
      rwa [silent_readOut, List.append_nil] at hopened
    case again =>
      intro s1 hroom
      exact congrArg _ (openPkt_taken (trayOpen_taken (s := silent a) hok hkind hj hfresh (cleared_of_some hver hopen) hroom))
    case logged =>
      intro hwords hpackets
      have hopened := openPkt_opened (trayOpen_log_opened (s := silent a) hok (ne_of_gt hkind) rfl hwords hpackets) (accept_packets _ _)
      rw [silent_readOut, List.append_nil] at hopened
      exact congrArg _ hopened
    case lost =>
      intro hfull
      exact congrArg _ (openPkt_discarded (trayOpen_log_discarded (s := silent a) hok (ne_of_gt hkind) rfl hfull) rfl)
  case stays =>
    intro t b told
    refine ⟨fun hok => congrArg _ ?refused, fun hok hkind hj => congrArg _ ?journal, fun hok hkind hver hj hdup => congrArg _ ?dup,
      fun hok hkind hver hj hfresh hnone hfull => congrArg _ ?credit⟩
    case refused => exact openPkt_refused (trayOpen_refused (s := silent a) hok) rfl
    case journal => exact openPkt_refused (trayOpen_jfull (s := silent a) hok hkind hj) (by split <;> rfl)
    case dup => exact openPkt_dup (trayOpen_dup (s := silent a) hok hkind hj hver hdup) rfl
    case credit =>
      have hslot : slotOf t e = e.slot := if_pos hver
      have hroom : ¬HasRoom t (slotOf t e) e := by
        rw [hslot, HasRoom]
        omega
      exact openPkt_refused (trayOpen_noCredit (s := silent a) hok hkind hj (fun _ => hslot ▸ hfresh) (cleared_of_none fun _ => hnone) hroom) rfl

end Sys2Proof.TrayOpening

namespace Sys2Proof.TrayCommitting

open Sys2Proof Sys2Proof.Machine

/-! ### COMMIT (R167 to R169) -/

section

variable {s : State} {n slot pseq : Nat} {words : List Byte} {poison fabric : Bool} {p : Packet}

/-- A COMMIT that names no open packet (R168). -/
theorem commitPkt_none (h : (s.tray n).openOf slot pseq = none) :
    let r := lateCommit (s.tray n) slot pseq
    commitPkt s n slot pseq words poison fabric = { (s.modTray n fun t => { t with
      expired := delFirst (· == (if t.fmtver = 2 then (slot, pseq) else (0, 0))) t.expired }) with readOut := ackBytes r.1 r.2.1 r.2.2 } := by
  simp only [commitPkt, h]

/-- A COMMIT of a packet that has passed its check. -/
theorem commitPkt_again (h : (s.tray n).openOf slot pseq = some p) (hp : p.commitOk = true) :
    commitPkt s n slot pseq words poison fabric = s := by
  simp only [commitPkt, h, hp, if_true]

/-- An answer that no message waits for changes nothing. -/
theorem answer_none (s : State) (st : Nat) (dup : Bool) (seq : Nat) : answer s .none st dup seq = s := rfl

variable (h : (s.tray n).openOf slot pseq = some p) (hp : p.commitOk = false)

include h hp

/-- A COMMIT with a good payload. -/
theorem commitPkt_good (hst : commitStatus p (fixLen words (64 * p.nwords)) poison fabric = stOK) :
    commitPkt s n slot pseq words poison fabric =
      flushAcks (trayCommit s n p (fixLen words (64 * p.nwords)) poison fabric) := by
  simp [commitPkt, h, hp, hst]

/-- A COMMIT with a bad payload, of a packet whose OPEN no message waits for. -/
theorem commitPkt_bad (hst : commitStatus p (fixLen words (64 * p.nwords)) poison fabric ≠ stOK) (hreply : p.reply = .none) :
    commitPkt s n slot pseq words poison fabric = { flushAcks (rewind s n p) with
      readOut := ackBytes (commitStatus p (fixLen words (64 * p.nwords)) poison fabric) false 0 } := by
  simp [commitPkt, h, hp, hst, hreply, trayCommit, answer_none]

end

/-- A good payload stands in the packet's ring words, and the packet waits for its commit point. -/
theorem trayCommit_good {s : State} {n : Nat} {p : Packet} {words : List Byte} {poison fabric : Bool}
    (hst : commitStatus p words poison fabric = stOK) :
    trayCommit s n p words poison fabric = (writeRing s (s.tray n) p.pos (chunks 64 p.nwords words)).setTray n { s.tray n with
      packets := modFirst (fun q => q == p) (fun q => { q with commitOk := true, order := (s.tray n).nextOrder }) (s.tray n).packets
      nextOrder := (s.tray n).nextOrder + 1 } := by
  simp only [trayCommit, if_pos hst]

/-! ### The reasons of R169, in their order -/

theorem commitStatus_poisoned (p : Packet) (w : List Byte) (fabric : Bool) : commitStatus p w true fabric = stUNCORR := rfl

theorem commitStatus_lost (p : Packet) (w : List Byte) : commitStatus p w false true = stLINK := rfl

theorem commitStatus_bad_digest {p : Packet} {w : List Byte} (h : (crc32c w).toNat ≠ p.crc) : commitStatus p w false false = stDIGEST := if_pos h

theorem commitStatus_good {p : Packet} {w : List Byte} (h : (crc32c w).toNat = p.crc) : commitStatus p w false false = stOK :=
  if_neg (not_not.mpr h)

/-! ### COMMIT_POINT (R167, R170) -/

/-- The journal's COMMIT entry of a packet of a work tray (R431). -/
def journaled (s : State) (n : Nat) (p : Packet) : State :=
  let t := s.tray n
  if t.kind = 1 then
    jAppend s { type := 0x11, ctx := t.ctx, tray := n, seq := t.nextSeq, idx := p.pseq
                result := t.wordAddr p.pos + p.length * 2 ^ 48 + p.slot * 2 ^ 56 }
  else s

/-- A tray in which a packet has become READY with the next SEQ; in version 2 the slot's LAST of a work tray moves. -/
def readied (t : Tray) (p : Packet) : Tray :=
  let u : Tray := { t with
    packets := modFirst (fun q => q == p) (fun q => { q with st := .ready, seq := t.nextSeq, order := t.nextOrder, reply := .none }) t.packets
    nextSeq := seqNext t.nextSeq, nextOrder := t.nextOrder + 1, commits := t.commits + 1 }
  if t.kind = 1 && t.fmtver = 2 then u.modSlot p.slot (fun x => { x with last := p.pseq, committed := true }) else u

section

variable {s : State} {n : Nat}

/-- With no packet due nothing changes. -/
theorem commitPoint_none (h : (s.tray n).nextCommit = none) : commitPoint s n = s := by
  simp only [commitPoint, h]

/-- The commit point of a packet whose COMMIT no message waits for: the journal first, then the tray. -/
theorem commitNext_some {p : Packet} (h : (s.tray n).nextCommit = some p) (hreply : p.reply = .none) :
    commitNext s n = (journaled s n p).setTray n (readied (s.tray n) p) := by
  simp only [commitNext, h, hreply, answer_none]
  rfl

/-- The packet whose turn it is becomes READY, and its SEQ is shown. -/
theorem commitPoint_some {p : Packet} (h : (s.tray n).nextCommit = some p) (hreply : p.reply = .none) :
    commitPoint s n = { flushAcks (commitNext s n) with readOut := ackBytes stOK false (s.tray n).nextSeq } := by
  simp only [commitPoint, h, if_pos hreply]

end

/-! ### O27 -/

/-- Settles O27: each case of COMMIT is a lemma about `commitPkt`, and COMMIT_POINT commits as `commitNext` does. -/
theorem trayCommits : Obligations.TrayCommits := by
  unfold Obligations.TrayCommits
  refine ⟨fun n slot pseq words poison fabric s a m => ?commit, fun n s a m => ?point⟩
  case commit =>
    rw [exec_commit, run_meets m]
    refine ⟨fun hnone => congrArg _ (commitPkt_none hnone), fun p hopen hp => congrArg _ (commitPkt_again hopen hp), fun p hopen hp => ?payload⟩
    intro w st
    refine ⟨fun hst => congrArg _ ?good, fun hst hreply => congrArg _ (commitPkt_bad hopen hp hst hreply), ?poisoned, ?lost, ?digest⟩
    case good => rw [commitPkt_good hopen hp hst, trayCommit_good hst]
    case poisoned =>
      rintro rfl
      exact commitStatus_poisoned p w fabric
    case lost =>
      rintro rfl rfl
      exact commitStatus_lost p w
    case digest =>
      rintro rfl rfl
      exact ⟨commitStatus_bad_digest, commitStatus_good⟩
  case point =>
    rw [exec_commitPoint, run_meets m]
    refine ⟨fun hnone => congrArg _ (commitPoint_none hnone), fun p hdue hreply => ?due⟩
    intro b u
    rw [commitPoint_some hdue hreply, commitNext_some hdue hreply]
    rfl

end Sys2Proof.TrayCommitting

namespace Sys2Proof.TrayReading

open Sys2Proof Sys2Proof.Machine

/-! ### The head of a tray (R174, R184) -/

/-- A packet whose entry is good: no uncorrectable word lies in it, on die or in the spill area. -/
def Readable (p : Packet) : Prop := p.bad = false ∧ (p.ecc && p.spill.isNone) = false

section

variable {s : State} {n : Nat}

/-- A tray without a READY packet has none to pass over. -/
theorem dropBadHeads_none (fuel : Nat) (h : (s.tray n).head = none) : dropBadHeads n fuel s = s := by
  cases fuel with
  | zero => rfl
  | succ fuel => simp only [dropBadHeads, h]

/-- A good head is not passed over. -/
theorem dropBadHeads_good {p : Packet} (fuel : Nat) (h : (s.tray n).head = some p) (hp : Readable p) : dropBadHeads n fuel s = s := by
  obtain ⟨hbad, hecc⟩ := hp
  cases fuel with
  | zero => rfl
  | succ fuel => simp [dropBadHeads, h, hbad, hecc]

/-- R184: a bad head is passed over; it retires FAULTED from a work tray, and is lost from another. -/
theorem dropBadHeads_bad {p : Packet} (fuel : Nat) (h : (s.tray n).head = some p) (hp : p.bad = true ∨ p.ecc = true ∧ p.spill = none) :
    let b := if p.ecc && p.spill.isNone then trayError s else s
    dropBadHeads n (fuel + 1) s = dropBadHeads n fuel (if (s.tray n).kind = 1 then retirePkt b n p dFAULTED stUNCORR
      else reclaimTray (b.setTray n { (s.tray n).drop (fun q => q == p) with lost := (s.tray n).lost + 1 }) n) := by
  have hnotgood : ¬(!p.bad && !(p.ecc && p.spill.isNone)) = true := by
    rcases hp with hbad | ⟨hecc, hspill⟩
    · simp [hbad]
    · simp [hecc, hspill]
  simp only [dropBadHeads, h, if_neg hnotgood]
  split <;> rfl

/-- CLAIM's part of a tray with a good head. -/
theorem claimHead_good {p : Packet} (who : Nat) (core : Option Nat) (h : (s.tray n).head = some p) (hp : Readable p) :
    let q := { p with st := .claimed, claimer := who, byCore := core, spill := none }
    claimHead s n who core = ((jAppend s { type := 0x12, ctx := (s.tray n).ctx, tray := n, seq := p.seq, idx := p.pseq }).setTray n
      { s.tray n with packets := modFirst (fun x => x == p) (fun _ => q) (s.tray n).packets }, some q) := by
  simp only [claimHead, dropBadHeads_good _ h hp, h]

/-- CLAIM finds no READY packet. -/
theorem claimHead_none (who : Nat) (core : Option Nat) (h : (s.tray n).head = none) : claimHead s n who core = (s, none) := by
  simp only [claimHead, dropBadHeads_none _ h, h]

/-- READ's part of a tray with a good head. -/
theorem readHead_good {p : Packet} (h : (s.tray n).head = some p) (hp : Readable p) :
    readHead s n = (s.setTray n { s.tray n with
      packets := modFirst (fun x => x == p) (fun x => { x with st := .held, heldAt := s.now, spill := none }) (s.tray n).packets }, some p) := by
  simp only [readHead, dropBadHeads_good _ h hp, h]

/-- READ finds no READY packet. -/
theorem readHead_none (h : (s.tray n).head = none) : readHead s n = (s, none) := by
  simp only [readHead, dropBadHeads_none _ h, h]

end

/-! ### A core program's CLAIM or READ (R175 to R177) -/

section

variable {s : State} {n k : Nat}

/-- A program's CLAIM of a work tray is `progRead`'s. -/
theorem claimRow_core (hkind : (s.tray n).kind = 1) : claimRow s n (some k) = progRead s n k := if_neg (not_not.mpr hkind)

/-- A program's READ of a log or telemetry tray is `progRead`'s. -/
theorem readRow_core (hkind : 2 ≤ (s.tray n).kind) : readRow s n (some k) = progRead s n k := if_neg (not_lt.mpr hkind)

variable (hmode : (s.core k).mode = .running) (hctx : (s.core k).ctx = (s.tray n).ctx)

include hmode hctx

/-- A program takes the head of its tray, or the idle packet where the tray does not hold readers back. -/
theorem progRead_takes (h : (s.tray n).head ≠ none ∨ (s.tray n).readmode = false) : progRead s n k = progTake s n k := by
  have hnowait : ¬((s.tray n).head.isNone && (s.tray n).readmode) = true := by
    rcases h with hhead | hidle
    · simp [hhead]
    · simp [hidle]
  simp only [progRead, hmode, hctx, ne_eq, not_true_eq_false, or_self, if_false, if_neg hnowait]

/-- R177: a program waits behind at most three others. -/
theorem progRead_waits (hhead : (s.tray n).head = none) (hread : (s.tray n).readmode = true) (hroom : (s.tray n).waiters.length < 4) :
    progRead s n k = s.setTray n { s.tray n with waiters := (s.tray n).waiters ++ [.prog k] } := by
  simp [progRead, hmode, hctx, hhead, hread, hroom]

end

section

variable {s : State} {n k : Nat} {p : Packet}

/-- The idle packet (R176) is the answer where no packet is READY. -/
theorem progTake_idle (h : (s.tray n).head = none) :
    progTake s n k = { s with readOut := idleEntry s (s.tray n) ++ idleWord s (s.tray n) } := by
  by_cases hkind : (s.tray n).kind = 1
  · simp only [progTake, if_pos hkind, claimHead_none _ _ h]
  · simp only [progTake, if_neg hkind, readHead_none h]

/-- CLAIM's answer, from what `claimHead` takes. -/
theorem progTake_claimed {s1 : State} (hkind : (s.tray n).kind = 1) (h : claimHead s n (s.core k).ctx (some k) = (s1, some p)) :
    progTake s n k = { s1 with readOut := headOut s1 (s1.tray n) p } := by
  simp only [progTake, if_pos hkind, h]

/-- READ's answer, from what `readHead` takes. -/
theorem progTake_read {s1 : State} (hkind : 2 ≤ (s.tray n).kind) (h : readHead s n = (s1, some p)) :
    progTake s n k = { s1 with readOut := headOut s1 (s1.tray n) p } := by
  simp only [progTake, if_neg (show (s.tray n).kind ≠ 1 by omega), h]

end

/-! ### After the read (R175, R209) -/

section

variable {s : State} {n seq : Nat} {p : Packet}

/-- UNCLAIM of a packet that no unit holds. -/
theorem unclaimRow_claimed (h : (s.tray n).find .claimed seq = some p) (hunit : inUnit s n seq = false) :
    unclaimRow s n seq = (jAppend s { type := 0x13, ctx := (s.tray n).ctx, tray := n, seq := seq, idx := p.pseq }).modTray n fun t =>
      { t with packets := modFirst (fun q => q == p) (fun q => { q with st := .ready, started := false, byCore := none }) t.packets } := by
  simp only [unclaimRow, hunit, Bool.false_eq_true, if_false, unclaimPkt, h]

/-- RETIRE of a packet that no unit holds. -/
theorem retireRow_claimed (h : (s.tray n).find .claimed seq = some p) (hunit : inUnit s n seq = false) :
    retireRow s n seq = retirePkt s n p dDONE stOK := by
  simp only [retireRow, h, hunit, Bool.false_eq_true, if_false]

/-- A context that runs no sweep names no telemetry tray. -/
theorem teleCtx_none {c : Nat} (kind : Nat) (fields : List Nat) (h : (s.ctx c).sweep = none) : teleCtx s c kind fields = s := by
  simp only [teleCtx, h]

/-- Where the context runs no sweep, a packet settles by the journal alone. -/
theorem retirePkt_journaled (p : Packet) (disp status : Nat) (h : (s.ctx (s.tray n).ctx).sweep = none) :
    retirePkt s n p disp status = reclaimTray ((jAppend s { type := 0x14, disp := disp, status := status, ctx := (s.tray n).ctx, tray := n
                                                            seq := p.seq, idx := p.pseq }).setTray n
      ((s.tray n).drop fun q => q.seq == p.seq && q.seq != 0 && (q.st == .ready || q.st == .claimed))) n := by
  have hsettle : psettle s n p disp status =
      jAppend s { type := 0x14, disp := disp, status := status, ctx := (s.tray n).ctx, tray := n, seq := p.seq, idx := p.pseq } :=
    teleCtx_none _ _ h
  simp only [retirePkt, hsettle]
  rfl

/-- READ_HOLD_EXPIRY comes 20 µs after the read. -/
theorem readHoldExpiry_held (h : (s.tray n).find .held seq = some p) :
    readHoldExpiry s n seq = endHold { s with now := max s.now (p.heldAt + 20000) } n seq := by
  simp only [readHoldExpiry, h]
  rfl

end

/-! ### O28 -/

/-- Settles O28: a program's read is `progRead`'s of a head that `dropBadHeads` leaves, and each row after the read has its own lemma. -/
theorem trayReading : Obligations.TrayReading := by
  unfold Obligations.TrayReading
  refine ⟨fun n k s a m hmode hctx => ?reads, fun n fuel p a hhead hbad => dropBadHeads_bad fuel hhead hbad, fun n seq s a m => ?after⟩
  case reads =>
    rw [exec_claim, exec_read, run_meets m, run_meets m]
    intro t
    have hclaim (hkind : t.kind = 1) : claimRow a n (some k.val) = progRead a n k := claimRow_core hkind
    have hread (hkind : 2 ≤ t.kind) : readRow a n (some k.val) = progRead a n k := readRow_core hkind
    refine ⟨fun hkind p hhead hbad hecc => ?claim, fun hkind p hhead hbad hecc => ?read, fun hhead hidle => ?idle,
      fun hhead hwaits hroom => ?wait⟩
    case claim =>
      intro q b
      have hhead' : t.head ≠ none := by simp [hhead]
      have htaken := progTake_claimed (k := k) hkind (claimHead_good (a.core k).ctx (some k.val) hhead ⟨hbad, hecc⟩)
      rw [hctx] at htaken
      exact congrArg _ ((hclaim hkind).trans ((progRead_takes hmode hctx (.inl hhead')).trans htaken))
    case read =>
      intro b
      have hhead' : t.head ≠ none := by simp [hhead]
      exact congrArg _ ((hread hkind).trans ((progRead_takes hmode hctx (.inl hhead')).trans
        (progTake_read hkind (readHead_good hhead ⟨hbad, hecc⟩))))
    case idle =>
      have htaken := (progRead_takes hmode hctx (.inr hidle)).trans (progTake_idle hhead)
      exact ⟨fun hkind => congrArg _ ((hclaim hkind).trans htaken), fun hkind => congrArg _ ((hread hkind).trans htaken)⟩
    case wait =>
      have hstands := progRead_waits hmode hctx hhead hwaits hroom
      exact ⟨fun hkind => congrArg _ ((hclaim hkind).trans hstands), fun hkind => congrArg _ ((hread hkind).trans hstands)⟩
  case after =>
    rw [exec_unclaim, exec_retire, exec_payloadCopied, exec_readHoldExpiry, run_meets m, run_meets m, run_meets m, run_meets m]
    intro t
    refine ⟨fun p hp hunit => ⟨congrArg _ (unclaimRow_claimed hp hunit), fun hsweep => congrArg _ ?retire⟩, rfl,
      fun p hp => congrArg _ (readHoldExpiry_held hp), rfl⟩
    case retire => rw [retireRow_claimed hp hunit, retirePkt_journaled p dDONE stOK hsweep]

end Sys2Proof.TrayReading

namespace Sys2Proof.TrayTimes

open Sys2Proof Sys2Proof.Machine

/-! ### OPEN_TIMEOUT (R171) -/

/-- An open packet whose commit point is not due is taken back, and its time has passed. -/
theorem openTimeout_open {s : State} {n slot pseq : Nat} {p : Packet} (h : (s.tray n).openOf slot pseq = some p)
    (hdue : (s.tray n).eligible p = false) : openTimeout s n slot pseq = flushAcks
      (answerPkt (rewind { s with now := max s.now (p.openedAt + (s.tray n).timeout * 1000) } n p) p stCANCELLED) := by
  simp only [openTimeout, h, hdue, Bool.false_eq_true, if_false]
  rfl

/-! ### CREDIT_UPDATE (R179) -/

/-- The time of an update: at once where one is due, and else 10 µs after the first credit returned. -/
def updateTime (s : State) (x : Slot) : State :=
  if creditDue s x then s else { s with now := max s.now (x.retAt.getD s.now + 10000) }

/-- A slot that has told its producers of the credit that returned. -/
def told (x : Slot) : Slot := { x with retPkts := 0, retWords := 0, retAt := none, retNodes := [] }

/-- The block in which a slot has no credit left to tell of. -/
def updated (s : State) (n k : Nat) : State :=
  (updateTime s ((s.tray n).slot k)).setTray n ((s.tray n).modSlot k told)

section

variable {s : State} {n k : Nat}

/-- The part keeps its own node over an update. -/
theorem updated_salt (s : State) (n k : Nat) : (updated s n k).salt = s.salt := by
  simp only [updated, updateTime, State.setTray_frame]
  split <;> rfl

/-- A slot with credit to return tells each of its producers in turn: in version 2 its own, in version 1 those of the packets (log 28). -/
theorem creditUpdate_returns (hkind : (s.tray n).kind = 1) (hret : 0 < ((s.tray n).slot k).retPkts) :
    creditUpdate s n k = (if (s.tray n).fmtver = 2 then [((s.tray n).slot k).node] else ((s.tray n).slot k).retNodes).foldl
      (fun s' node => tellCredit s' n k ((s.tray n).slot k) node) (updated s n k) := by
  have hreturns : ¬((s.tray n).kind ≠ 1 ∨ ((s.tray n).slot k).retPkts = 0) := by omega
  simp only [creditUpdate, if_neg hreturns]
  rfl

/-- In version 2 a slot has one producer. -/
theorem creditUpdate_v2 (hkind : (s.tray n).kind = 1) (hret : 0 < ((s.tray n).slot k).retPkts) (hver : (s.tray n).fmtver = 2) :
    creditUpdate s n k = tellCredit (updated s n k) n k ((s.tray n).slot k) ((s.tray n).slot k).node := by
  rw [creditUpdate_returns hkind hret, if_pos hver]
  rfl

/-- A host producer reads its credit in the tray's registers. -/
theorem tellCredit_host (s : State) (n k : Nat) (x : Slot) : tellCredit s n k x 0xFFFE = s := if_pos rfl

/-- A producer of this chip is told at once. -/
theorem tellCredit_own {node : Nat} (x : Slot) (hhost : node ≠ 0xFFFE) (hnode : node = s.salt.node) :
    tellCredit s n k x node = creditWake s node n k := by
  rw [tellCredit, if_neg hhost, if_pos hnode]

/-- A producer at another part is told by a CREDIT message. -/
theorem tellCredit_remote {node : Nat} (x : Slot) (hhost : node ≠ 0xFFFE) (hnode : node ≠ s.salt.node) :
    tellCredit s n k x node = sendRsp s { mtype := 7, dst := node, src := s.salt.node, addr := n, slot := k
                                          arg := x.pktAvail % 2 ^ 17 + x.wordAvail % 2 ^ 28 * 2 ^ 17 } := by
  rw [tellCredit, if_neg hhost, if_neg hnode]

end

/-! ### A packet taken back (R169, R171) -/

/-- FREE entries leave both memories and the contexts. -/
theorem reclaimTray_frame (s : State) (n : Nat) :
    (reclaimTray s n).mem = s.mem ∧ (reclaimTray s n).ctxs = s.ctxs ∧ (reclaimTray s n).hostMem = s.hostMem :=
  List.foldlRecOn (motive := fun t : State => t.mem = s.mem ∧ t.ctxs = s.ctxs ∧ t.hostMem = s.hostMem) _ _ ⟨rfl, rfl, rfl⟩
    fun _ ht _ _ => ht

/-- Taking a packet back leaves both memories and the contexts. -/
theorem rewind_frame (s : State) (n : Nat) (p : Packet) :
    (rewind s n p).mem = s.mem ∧ (rewind s n p).ctxs = s.ctxs ∧ (rewind s n p).hostMem = s.hostMem :=
  reclaimTray_frame _ n

/-- A work tray returns a packet and its words to the packet's slot. -/
theorem giveBack_credit {t : Tray} (now : Nat) (p : Packet) (hkind : t.kind = 1) :
    ((t.giveBack now p).slot p.slot).pktAvail = (t.slot p.slot).pktAvail + 1
      ∧ ((t.giveBack now p).slot p.slot).wordAvail = (t.slot p.slot).wordAvail + p.nwords := by
  simp only [Tray.giveBack, hkind, ne_eq, not_true_eq_false, if_false]
  simp [Tray.modSlot, Tray.slot]

/-! ### O29 -/

/-- Settles O29: an update's producers are told one by one, each as `tellCredit`'s cases say, and a rewind appends to the journal alone. -/
theorem trayTimes : Obligations.TrayTimes := by
  unfold Obligations.TrayTimes
  refine ⟨fun n slot pseq s a m => ?times, fun s n p => ?rewound⟩
  case times =>
    rw [exec_openTimeout, exec_creditUpdate, run_meets m, run_meets m]
    refine ⟨fun p hopen hdue => congrArg _ (openTimeout_open hopen hdue), fun hkind hret => ?credit⟩
    intro a1 b
    have hsalt : a.salt.node = (updated a n slot).salt.node := by rw [updated_salt]
    refine ⟨fun hver hhost => congrArg _ ?host, fun hver hhost hnode => congrArg _ ?own, fun hver => congrArg _ ?producers,
      fun hver hhost hnode => congrArg _ ?remote⟩
    case host =>
      rw [creditUpdate_v2 hkind hret hver, hhost, tellCredit_host]
      rfl
    case own =>
      rw [creditUpdate_v2 hkind hret hver, tellCredit_own _ hhost (hnode.trans hsalt)]
      rfl
    case producers =>
      rw [creditUpdate_returns hkind hret, if_neg hver]
      rfl
    case remote =>
      rw [hsalt] at hnode ⊢
      rw [creditUpdate_v2 hkind hret hver, tellCredit_remote _ hhost hnode]
      rfl
  case rewound =>
    obtain ⟨hmem, hctxs, hhost⟩ := rewind_frame s n p
    exact ⟨hmem, hctxs, hhost, giveBack_credit s.now p⟩

end Sys2Proof.TrayTimes

namespace Sys2Proof.StageSchedule

open Sys2Proof Sys2Proof.Machine

/-! ### STEP_FENCE (R195) -/

section

variable {s : State} {c : Nat}

/-- The context's last step has its heads: its fence is closed, and no rake phase of the context runs. -/
structure FenceReady (s : State) (c : Nat) : Prop where
  closed : (s.ctx c).fenceClosed = true
  phase : s.rphase.active = false ∨ s.rphase.ctx ≠ c

/-- No rake phase of the context then holds the fence. -/
theorem FenceReady.noPhase (h : FenceReady s c) : (s.rphase.active && s.rphase.ctx == c) = false := by
  rcases h.phase with hoff | hother
  · simp [hoff]
  · simp [hother]

/-- With no sweep, the fence opens onto no step. -/
theorem stepFence_noSweep (h : FenceReady s c) (hsweep : (s.ctx c).sweep = none) : stepFence s c =
    fenceHarvest { s.modCtx c (fun x => { x with fenceClosed := false }) with schedPhase := 0 } c := by
  simp [stepFence, h.closed, h.noPhase, hsweep]

/-- A sweep that is not at its boundary work goes on with its next step. -/
theorem stepFence_sweep {w : Sweep} (h : FenceReady s c) (hsweep : (s.ctx c).sweep = some w) (hw : w.serving = true ∨ w.phase ≠ 3) :
    stepFence s c =
      fenceHarvest { s.modCtx c (fun x => { x with fenceClosed := false }) with schedStep := w.step, schedPhase := 1 } c := by
  have hgoes : (!w.serving && w.phase == 3) = false := by rcases hw with hw | hw <;> simp [hw]
  simp [stepFence, h.closed, h.noPhase, hsweep, hgoes]

/-- A training sweep that is at its boundary work holds the fence. -/
theorem stepFence_boundary {w : Sweep} (hsweep : (s.ctx c).sweep = some w) (hserving : w.serving = false)
    (hphase : w.phase = 3) : stepFence s c = s := by
  simp [stepFence, hsweep, hserving, hphase]

/-- An open fence stays as it is. -/
theorem stepFence_open (h : (s.ctx c).fenceClosed = false) : stepFence s c = s := if_pos (by simp [h])

/-! ### Periods (R208, R210) -/

/-- A live deadline context that is in no period and has a PERIOD starts one. -/
theorem periodStart_outside (hlive : (s.ctx c).live = true) (hfault : (s.ctx c).faulted = false) (hdead : (s.ctx c).deadline = true)
    (hout : (s.ctx c).inPeriod = false) (hperiod : 0 < (s.ctx c).period) :
    periodStart s c =
      let t := reach s (s.ctx c).pstart
      let k := (t.now - (s.ctx c).pstart) / (s.ctx c).period
      beginPeriod (t.modCtx c fun x => { x with periodNo := k, tend := (s.ctx c).pstart + (k + 1) * (s.ctx c).period }) c :=
  if_neg (by simp [hlive, hfault, hdead, hout, hperiod.ne'])

/-- A context that is in no period, or has no deadline, ends none. -/
theorem periodEnd_outside (h : (s.ctx c).inPeriod = false ∨ (s.ctx c).deadline = false) : periodEnd s c = s :=
  if_pos (by rcases h with h | h <;> simp [h])

/-- What PERIOD_END asks of its context. -/
theorem periodEnd_guard (hlive : (s.ctx c).live = true) (hfault : (s.ctx c).faulted = false) (hdead : (s.ctx c).deadline = true)
    (hin : (s.ctx c).inPeriod = true) : ¬ (!(s.ctx c).live || (s.ctx c).faulted || !(s.ctx c).deadline || !(s.ctx c).inPeriod) = true := by
  simp [hlive, hfault, hdead, hin]

/-- With one context in the gap and no ended period left, the gap closes: the plot changes where it waits, and the next period begins. -/
theorem openGap_one (hgap : gapOpen s = false) (hone : (liveCtxs s).filter (fun c => (s.ctx c).gapWait) = [c]) :
    openGap s = beginPeriod (plotReconfig s) c := by
  rw [openGap, if_neg (by simp [hgap])]
  simp only [hone, List.foldl_cons, List.foldl_nil]

/-! ### The plot configuration and slices (R191, R371) -/

/-- A change that waits comes about where nothing streams, no unit runs or is saved, and no context is in a period. -/
theorem plotReconfig_quiet (hwait : s.plotWait = true) (hstream : streaming s = false) (hsaved : s.saved = [])
    (hperiods : ∀ e ∈ s.ctxs, e.2.inPeriod = false) (hunits : s.units = []) :
    plotReconfig s = { s with plotsz := s.plotNext, plotWait := false, reconf := s.reconf + 1 } := by
  have hnone : s.ctxs.any (fun e => e.2.live && e.2.deadline && e.2.inPeriod) = false :=
    List.any_eq_false.mpr fun e he => by simp [hperiods e he]
  exact if_pos (by simp [hwait, hstream, hsaved, hnone, hunits])

/-- At the end of a best-effort unit's slice the Trellis decides again. -/
theorem sliceEnd_bestEffort {id : Nat} {u : WUnit} (hunit : (s.units.find? fun u => u.id == id && u.st == 2) = some u)
    (hdead : isDeadline s u = false) : sliceEnd s id = trellisDecide (s.units.length + 1) (reach s (u.sliceAt + u.sliceLen)) := by
  simp only [sliceEnd, hunit, hdead, Bool.false_eq_true, if_false]

/-- The slice of a unit that does not run has no end. -/
theorem sliceEnd_none {id : Nat} (hunit : (s.units.find? fun u => u.id == id && u.st == 2) = none) : sliceEnd s id = s := by
  simp only [sliceEnd, hunit]

end

/-! ### The blocks that attention reads (R206) -/

section

variable {recent l j : Nat} {score : Nat → W32}

/-- A block's score in the order of R82, where NaN is the losing infinity. -/
def scoreVal (score : Nat → W32) (i : Nat) : FVal := if fvNan (ofF32 (score i)) then .inf true else ofF32 (score i)

/-- A block is read before another: it scores above it, or is the lower of equals. -/
def readBefore (score : Nat → W32) (i j : Nat) : Bool :=
  gtF (scoreVal score i) (scoreVal score j) || (!gtF (scoreVal score j) (scoreVal score i) && decide (i < j))

/-- The order of R82 is irreflexive. -/
theorem gtF_self (v : FVal) : gtF v v = false := by
  cases v <;> simp [gtF, cmpKey]

theorem readBefore_self (score : Nat → W32) (i : Nat) : readBefore score i i = false := by
  simp [readBefore, gtF_self]

/-- Attention reads an older full block that fewer than 32 others precede, the newest full blocks, and the partial one. -/
theorem mem_attended : j ∈ attended recent l score ↔
    (j < l / 64 - recent ∧ ((List.range (l / 64 - recent)).filter fun i => readBefore score i j).length < 32)
      ∨ (l / 64 - recent ≤ j ∧ j < l / 64) ∨ (l % 64 ≠ 0 ∧ j = l / 64) := by
  have hnewest : j ∈ countFrom (l / 64 - recent) (l / 64 - (l / 64 - recent)) ↔ l / 64 - recent ≤ j ∧ j < l / 64 := by
    rw [LocalMemory.mem_countFrom]
    omega
  have hpartial : j ∈ (if l % 64 = 0 then [] else [l / 64]) ↔ l % 64 ≠ 0 ∧ j = l / 64 := by
    split <;> simp [*]
  simp only [attended, List.mem_append, List.mem_filter, List.mem_range, decide_eq_true_eq, hnewest, hpartial, or_assoc]
  rfl

/-- The RECENT newest full blocks and the partial one are always read. -/
theorem mem_attended_of_recent (hj : 64 * j < l) (hrecent : l / 64 ≤ j + recent) : j ∈ attended recent l score := by
  rw [mem_attended]
  omega

/-- Of at most 32 older full blocks, fewer than 32 precede each, as none precedes itself. -/
theorem mem_attended_of_few (hfew : l / 64 ≤ 32 + recent) (hj : 64 * j < l) : j ∈ attended recent l score := by
  by_cases hold : j < l / 64 - recent
  · have hlt : ((List.range (l / 64 - recent)).filter fun i => readBefore score i j).length < (List.range (l / 64 - recent)).length :=
      List.length_filter_lt_length_iff_exists.mpr ⟨j, List.mem_range.mpr hold, by simp [readBefore_self]⟩
    rw [List.length_range] at hlt
    exact mem_attended.mpr (.inl ⟨hold, by omega⟩)
  · exact mem_attended_of_recent hj (by omega)

/-- Every block that attention reads holds a row of the sequence. -/
theorem attended_lt (h : j ∈ attended recent l score) : 64 * j < l := by
  rw [mem_attended] at h
  omega

end

/-! ### O40 -/

/-- Settles O40: each row of the schedule runs its operation (`run_meets`), whose cases are the lemmas on `stepFence`, `periodStart`,
`periodEnd`, `openGap`, `plotReconfig` and `sliceEnd`, and the blocks that attention reads are those of `mem_attended`. -/
theorem scheduleTimes : Obligations.ScheduleTimes := by
  unfold Obligations.ScheduleTimes
  intro s a m
  refine ⟨fun c hclosed hphase => ?fence, fun c hopen => ?fenceOpen, fun c hlive hfault hdead hout hperiod => ?start, fun c hout => ?outside,
    fun hwait hstream hsaved hperiods hunits => ?plot, fun c hlive hfault hdead hin => ?ends,
    fun b c => ⟨fun hgap => if_pos hgap, openGap_one⟩, fun id u hunit hdead => ?slice, fun id hunit => ?noSlice,
    fun recent l score => ⟨fun hfew j => mem_attended_of_few hfew, fun j => mem_attended_of_recent, fun j => attended_lt⟩⟩
  case fence =>
    have hready : FenceReady a c := ⟨hclosed, hphase⟩
    rw [exec_stepFence, run_meets m]
    exact ⟨fun hsweep => congrArg _ (stepFence_noSweep hready hsweep), fun w hsweep hw => congrArg _ (stepFence_sweep hready hsweep hw),
      fun w hsweep hserving hthree => congrArg _ (stepFence_boundary hsweep hserving hthree)⟩
  case fenceOpen => rw [exec_stepFence, run_meets m, stepFence_open hopen]
  case start =>
    rw [exec_periodStart, run_meets m, periodStart_outside hlive hfault hdead hout hperiod]
    rfl
  case outside => rw [exec_periodEnd, run_meets m, periodEnd_outside hout]
  case plot => rw [exec_plotReconfig, run_meets m, plotReconfig_quiet hwait hstream hsaved hperiods hunits]
  case ends =>
    rw [exec_periodEnd, run_meets m, periodEnd, if_neg (periodEnd_guard hlive hfault hdead hin)]
    rfl
  case slice =>
    rw [exec_sliceEnd, run_meets m, sliceEnd_bestEffort hunit hdead]
    rfl
  case noSlice => rw [exec_sliceEnd, run_meets m, sliceEnd_none hunit]

end Sys2Proof.StageSchedule

namespace Sys2Proof.RakeOperations

open Sys2Proof Sys2Proof.Machine

/-! ### The order of R82 at its ends and at zero -/

/-- +∞ stands above every other number. -/
theorem gtF_posInf {v : FVal} (hnan : fvNan v = false) (hinf : v ≠ .inf false) : gtF (.inf false) v = true := by
  cases v with
  | nan => cases hnan
  | inf t => cases t with
    | false => exact absurd rfl hinf
    | true => rfl
  | fin t m e => rfl

/-- Every other number stands above −∞. -/
theorem gtF_negInf {v : FVal} (hnan : fvNan v = false) (hinf : v ≠ .inf true) : gtF v (.inf true) = true := by
  cases v with
  | nan => cases hnan
  | inf t => cases t with
    | false => rfl
    | true => exact absurd rfl hinf
  | fin t m e => rfl

/-- A finite number other than zero is above −0 when it is positive. -/
theorem gtF_negZero {t : Bool} {m : Nat} {e : Int} (hm : m ≠ 0) : gtF (.fin t m e) (.fin true 0 0) = !t := by
  have hpos : 0 < m <<< (e - min e 0).toNat := by
    rw [Nat.shiftLeft_eq]
    exact Nat.mul_pos (Nat.pos_of_ne_zero hm) (Nat.two_pow_pos _)
  simp only [gtF, cmpKey, signedAt, Nat.zero_shiftLeft]
  generalize m <<< (e - min e 0).toNat = k at hpos
  cases t with
  | false =>
    have hhi : ¬(k : Int) < 0 := by omega
    simp [hhi, hpos]
  | true => simp [hpos]

/-! ### One lane (Table 10-4, R231) -/

section

variable {a b c : W32}

/-- MIN and MAX of a NaN and a number give the number (R82): the NaN stands as the infinity that loses. -/
theorem pickR82_nan {mx : Bool} (ha : fvNan (ofF32 a) = true) (hb : fvNan (ofF32 b) = false) (hinf : ofF32 b ≠ .inf mx) : pickR82 mx a b = b := by
  have hpos : ofF32 0x7F800000#32 = .inf false := by decide
  have hneg : ofF32 0xFF800000#32 = .inf true := by decide
  cases mx with
  | false => simp [pickR82, ha, hb, hpos, gtF_posInf hb hinf]
  | true => simp [pickR82, ha, hb, hneg, gtF_negInf hb hinf]

/-- SIGN gives ±1.0, and keeps a zero. -/
theorem rakeLane_sign (a b c : W32) : rakeLane 0x0E a b c =
    if fvNan (ofF32 a) then nan32 else if fvZero (ofF32 a) then a else if fvSign (ofF32 a) then 0xBF800000#32 else 0x3F800000#32 := rfl

/-- SELGT: B where A is a number above zero, and else C. -/
theorem rakeLane_selgt (a b c : W32) : rakeLane 0x0F a b c =
    canonW (if gtF (ofF32 a) (.fin true 0 0) && !fvZero (ofF32 a) && !fvNan (ofF32 a) then b else c) := rfl

/-- SIGN and SELGT of a NaN. -/
theorem signs_nan (h : fvNan (ofF32 a) = true) : rakeLane 0x0E a b c = nan32 ∧ rakeLane 0x0F a b c = canonW c := by
  simp [rakeLane_sign, rakeLane_selgt, h]

/-- A zero is a number. -/
theorem fvNan_of_fvZero {v : FVal} (h : fvZero v = true) : fvNan v = false := by
  cases v with
  | nan => cases h
  | inf t => rfl
  | fin t m e => rfl

/-- SIGN and SELGT of a zero of either sign. -/
theorem signs_zero (h : fvZero (ofF32 a) = true) : rakeLane 0x0E a b c = a ∧ rakeLane 0x0F a b c = canonW c := by
  simp [rakeLane_sign, rakeLane_selgt, h, fvNan_of_fvZero h]

/-- SIGN and SELGT of a finite number other than zero. -/
theorem signs_fin {t : Bool} {m : Nat} {e : Int} (h : ofF32 a = .fin t m e) (hm : m ≠ 0) :
    rakeLane 0x0E a b c = (if t then 0xBF800000#32 else 0x3F800000#32) ∧ rakeLane 0x0F a b c = canonW (if t then c else b) := by
  rw [rakeLane_sign, rakeLane_selgt, h, gtF_negZero hm]
  cases t <;> simp [fvNan, fvZero, fvSign, hm]

end

/-! ### The rows of Table 10-4 -/

/-- Every row of Table 10-4 is one operation of its rake. -/
theorem exec_rakeRow {i : Instr} {r : RakeId} {op : Nat} {d : Fin 16} {x y z : BitVec 5} (h : rakeRow i = some (r, op, d, x, y, z)) (s : State) :
    exec i s = run s fun s => rakeOp s r op d x y z := by
  unfold rakeRow at h
  split at h <;> cases h <;> rfl

/-- Settles O37: every row runs its operation (`exec_rakeRow`), whose beats go to the counter at 0x40 (RAKE_BUSY of Table 10-10);
the operations that look at a NaN, a zero or a sign are those of `pickR82_nan`, `signs_nan`, `signs_zero` and `signs_fin`, and the others are
the vector engine's. -/
theorem rakeOperation : Obligations.RakeOperation := by
  unfold Obligations.RakeOperation
  constructor
  · intro i r op d x y z s a hrow m
    rw [exec_rakeRow hrow, run_meets m]
    rfl
  · intro a b c
    exact ⟨rfl, rfl, rfl, rfl, rfl, rfl, rfl, rfl, rfl, rfl, rfl, pickR82_nan, pickR82_nan, signs_nan, signs_zero,
      fun _ _ => signs_fin, fun _ _ => signs_fin⟩

end Sys2Proof.RakeOperations

namespace Sys2Proof.BedPass

open Sys2Proof Sys2Proof.Machine

/-! ### What the wait of a rake on its peg leaves (R217) -/

/-- The rake phase in force and the list of uncorrectable rows are the same in both states. -/
structure PhaseKept (s t : State) : Prop where
  rphase : t.rphase = s.rphase
  badRows : t.badRows = s.badRows

theorem PhaseKept.refl (s : State) : PhaseKept s s := ⟨rfl, rfl⟩

/-- What begins with the same phase and the same rows keeps them. -/
theorem PhaseKept.of_same {s t u : State} (k : PhaseKept t u) (hphase : t.rphase = s.rphase) (hrows : t.badRows = s.badRows) :
    PhaseKept s u := ⟨k.rphase.trans hphase, k.badRows.trans hrows⟩

theorem PhaseKept.trans {s t u : State} (h : PhaseKept s t) (k : PhaseKept t u) : PhaseKept s u :=
  k.of_same h.rphase h.badRows

/-- An interrupt of a vector (R322). -/
theorem phaseKept_raiseVec (s : State) (v : Nat) : PhaseKept s (raiseVec s v) := by
  unfold raiseVec
  split <;> exact ⟨rfl, rfl⟩

/-- An interrupt of a context, raised or held off. -/
theorem phaseKept_raiseCtx (s : State) (c : Nat) : PhaseKept s (raiseCtx s c) :=
  iteInduction (motive := PhaseKept s) (fun _ => ⟨rfl, rfl⟩) fun _ => (phaseKept_raiseVec s _).trans ⟨rfl, rfl⟩

/-- A record bound for host memory (R332). -/
theorem phaseKept_toHost (s : State) (x : HeldRec) : PhaseKept s (toHost s x) := by
  have hput : PhaseKept s (putHost s x.addr x.bytes x.bad) := ⟨rfl, rfl⟩
  unfold toHost
  split
  · cases x.jr <;> cases x.irq
    · exact hput
    · exact hput.trans (phaseKept_raiseCtx _ _)
    · exact ⟨rfl, rfl⟩
    · exact (phaseKept_raiseCtx _ _).of_same rfl rfl
  · exact ⟨rfl, rfl⟩

/-- The settlement of a command (R359). -/
theorem phaseKept_settle (s : State) (c aseq disp status result : Nat) : PhaseKept s (settle s c aseq disp status result) := by
  unfold settle
  split
  · exact .refl s
  · exact (phaseKept_toHost _ _).of_same rfl rfl

/-- The release of a waiter (R245). -/
theorem phaseKept_releaseOne (s : State) (w : Waiter × Nat) : PhaseKept s (releaseOne s w) := by
  unfold releaseOne
  split
  · exact ⟨rfl, rfl⟩
  · exact ⟨rfl, rfl⟩
  · exact phaseKept_settle _ _ _ _ _ _

/-- A wait that reaches its peg. -/
theorem phaseKept_applyWait (s : State) (p : Nat) (w : Wait) : PhaseKept s (applyWait s p w) :=
  List.foldlRecOn (motive := PhaseKept s) _ releaseOne ⟨rfl, rfl⟩ fun _ ht w _ => ht.trans (phaseKept_releaseOne _ w)

/-- With no uncorrectable row the record of a peg is read without consequence. -/
theorem vpidRead_noBadRows {s : State} (h : s.badRows = []) (c v : Nat) : vpidRead s c v = s := by
  unfold vpidRead
  split
  · simp [pegRead, h]
  · rfl

/-- The wait of a rake's first block. -/
theorem phaseKept_rakeArm {s : State} (h : s.badRows = []) (r : Nat) : PhaseKept s (rakeArm s r) := by
  unfold rakeArm
  split
  · split
    · exact .refl s
    · simp only [vpidRead_noBadRows h]
      split
      · exact (phaseKept_applyWait _ _ _).of_same rfl rfl
      · exact .refl s
  · exact .refl s

/-- The waits of all rakes. -/
theorem phaseKept_rakesArm {s : State} (h : s.badRows = []) : PhaseKept s (rakesArm s) :=
  List.foldlRecOn (motive := PhaseKept s) _ rakeArm (.refl s) fun _ ht r _ => ht.trans (phaseKept_rakeArm (ht.badRows.trans h) r)

/-! ### The checks of R224 -/

/-- At the start of a phase the rejected groups are those enabled and not frozen whose COUNT is not the expected one. -/
theorem phaseBegin_rejected {s : State} {c : Nat} {w : Sweep} (hsweep : (s.ctx c).sweep = some w) (hrows : s.badRows = []) :
    (phaseBegin s c).rphase.rejected = (List.range (groupCount s)).filter fun g =>
      (groupRec s g).enabled && !groupFrozen s g && (groupRec s g).count != (w.step + 2 ^ 32 - (groupRec s g).offset) % 2 ^ 32 := by
  simp only [phaseBegin, hsweep]
  refine (congrArg RakePhase.rejected (phaseKept_rakesArm (by exact hrows)).rphase).trans ?_
  simp only [enabledGroups, List.filter_filter]
  refine List.filter_congr fun g _ => ?_
  simp only [expected]
  ac_rfl

section

variable {s : State} {step : Nat} {h : BedHdr}

/-- A bed that is not checked. -/
theorem bedFate_skip (hskip : h.valid = false ∨ h.frozen = true ∨ groupFrozen s h.group = true) : bedFate s step h = .skip :=
  if_pos (by rcases hskip with e | e | e <;> simp [e])

/-- A bed that is checked. -/
theorem bedFate_checked (hvalid : h.valid = true) (hfrozen : h.frozen = false) (hgroup : groupFrozen s h.group = false) :
    bedFate s step h = if s.rphase.rejected.contains h.group then .rejected
      else if h.step = (expected (groupRec s h.group) step + 1) % 2 ^ 32 then .dup
      else if h.step ≠ expected (groupRec s h.group) step then .mismatch else .update :=
  if_neg (by simp [hvalid, hfrozen, hgroup])

/-- The step behind the expected one is another. -/
theorem expected_ne_next (x : GroupRec) (step : Nat) : expected x step ≠ (expected x step + 1) % 2 ^ 32 := by
  unfold expected
  omega

end

/-! ### BED_PASS -/

/-- A rake whose first block may not be taken does nothing. -/
theorem bedPass_none {s : State} {r : Nat} (h : readyBlk s r = none) : bedPass s r = s := by
  simp only [bedPass, h]

/-- Settles O38: BED_PASS runs `bedPass`, whose branches are the cases of a block; the start of a phase is `phaseBegin_rejected`, and
the fate of a bed that is checked `bedFate_checked`. -/
theorem bedPassRuns : Obligations.BedPassRuns := by
  unfold Obligations.BedPassRuns
  refine ⟨fun r s a m => ?pass, fun s c w => phaseBegin_rejected, fun s step h => ⟨bedFate_skip, fun hvalid hfrozen hgroup => ?checked⟩⟩
  case pass =>
    rw [exec_bedPass, run_meets m]
    refine ⟨fun hnone => congrArg _ (bedPass_none hnone), fun b hready => ?_⟩
    intro hs fate checked keys upd mis bad
    refine ⟨fun hbad => congrArg _ ?poisoned, fun hbad hdup => congrArg _ ?duplicate, fun hbad hdup hroom => congrArg _ ?full,
      fun hbad hdup hroom => congrArg _ ?runs⟩
    all_goals simp only [bedPass, hready]
    case poisoned => exact if_pos hbad
    case duplicate => exact (if_neg (ne_true_of_eq_false hbad)).trans (if_pos hdup)
    all_goals refine (if_neg (ne_true_of_eq_false hbad)).trans ((if_neg (ne_true_of_eq_false hdup)).trans ?_)
    case full => exact if_pos (congrArg not hroom)
    case runs => exact if_neg (ne_true_of_eq_false (congrArg not hroom))
  case checked =>
    rw [bedFate_checked hvalid hfrozen hgroup]
    refine ⟨fun hrej => if_pos hrej, fun hrej => ?_⟩
    rw [if_neg (by simp only [hrej]; decide)]
    refine ⟨fun hdup => if_pos hdup, fun hupd => ?_, fun hdup hupd => (if_neg hdup).trans (if_pos hupd)⟩
    exact (if_neg (hupd.trans_ne (expected_ne_next _ step))).trans (if_neg (not_not.mpr hupd))

end Sys2Proof.BedPass

namespace Sys2Proof.RakePhases

open Sys2Proof Sys2Proof.Machine

/-! ### What a read leaves of memory (R144, R152) -/

/-- Counting an error changes no byte; the state is taken apart so that nothing but the field is compared. -/
theorem countChan_mem (s : State) (ch ce ue : Nat) : (countChan s ch ce ue).mem = s.mem := by
  cases s
  rfl

theorem correctRow_mem (s : State) (k : Nat) : (correctRow s k).mem = s.mem := rfl
theorem noteRow_mem (s : State) (k : Nat) (control : Bool) : (noteRow s k control).mem = s.mem := rfl

/-- A run of operations that each change no byte of memory. -/
theorem foldl_mem {α : Type} {f : State → α → State} (l : List α) (s : State) (hf : ∀ t x, (f t x).mem = t.mem) : (l.foldl f s).mem = s.mem :=
  List.foldlRecOn (motive := fun t : State => t.mem = s.mem) l f rfl fun t ht x _ => (hf t x).trans ht

/-- The errors that a read of local memory finds are counted, and no byte changes. -/
theorem noteBad_mem (s : State) (a n : Nat) : (noteBad s a n).mem = s.mem := by
  unfold noteBad
  split
  · simp only
    rw [foldl_mem _ _ fun _ _ => countChan_mem .., foldl_mem _ _ fun _ _ => countChan_mem ..]
  · split
    · simp only
      rw [foldl_mem _ _ correctRow_mem, foldl_mem _ _ fun _ _ => noteRow_mem ..]
    · rfl

/-- A read of local memory changes no byte. -/
theorem readIn_mem (s : State) (a n : Nat) : (readIn s a n).mem = s.mem := noteBad_mem _ _ _

/-- A matrix depends on the bytes of memory alone. -/
theorem readMat_congr {s t : State} (h : t.mem = s.mem) (a : Nat) : readMat t a = readMat s a := by
  simp only [readMat, readMem, h]

/-! ### What a rake's own change leaves (R232, R238) -/

@[simp] theorem groupRec_modRake (s : State) (r : Nat) (f : Rake → Rake) (g : Nat) : groupRec (s.modRake r f) g = groupRec s g := rfl

@[simp] theorem isPoisoned_modRake (s : State) (r : Nat) (f : Rake → Rake) (a n : Nat) : isPoisoned (s.modRake r f) a n = isPoisoned s a n := rfl

@[simp] theorem readMat_modRake (s : State) (r : Nat) (f : Rake → Rake) (a : Nat) : readMat (s.modRake r f) a = readMat s a := rfl

/-! ### REFRESH (R236, R237) -/

section

variable {s : State} {r g b step : Nat}

/-- A block's statistics are read, and its root where that is uncorrectable. -/
def readBlock (s : State) (x : GroupRec) (b : Nat) (rootBad : Bool) : State :=
  readIn (if rootBad then noteBad s (rootAddr x b) 65536 else s) (statAddr x b) 65536

/-- What a refresh reads of its block, by the marks that its root has. -/
def refreshReads (s : State) (x : GroupRec) (b : Nat) : State := readBlock s x b (isPoisoned s (rootAddr x b) 65536)

theorem refreshReads_mem (s : State) (x : GroupRec) (b : Nat) : (refreshReads s x b).mem = s.mem := by
  unfold refreshReads readBlock
  rw [readIn_mem]
  split
  · exact noteBad_mem _ _ _
  · rfl

/-- Whether the statistics or the root of a block is uncorrectable (R238). -/
def refreshBad (s : State) (x : GroupRec) (b : Nat) : Bool := isPoisoned s (statAddr x b) 65536 || isPoisoned s (rootAddr x b) 65536

/-- What a refresh of a block computes: nothing of an uncorrectable one, and else what the attempts of R236 give on its statistics. -/
def refreshOut (s : State) (x : GroupRec) (b : Nat) : Option (List (List W32) × Nat × W32 × Nat) :=
  if refreshBad s x b then none
  else refreshTry (if x.root = 2 then 4 else 2) (readMat (refreshReads s x b) (statAddr x b)) 4 1 x.eps0

/-- A refresh leaves what `refreshed` says of what it computes: one attempt on an uncorrectable block, and else four where none converges. -/
theorem refreshBlock_eq (s : State) (r g b step : Nat) : refreshBlock s r g b step =
    refreshed (refreshReads s (groupRec s g) b) r (groupRec s g) b step (if refreshBad s (groupRec s g) b then 1 else 4)
      (refreshOut s (groupRec s g) b) := by
  generalize hout : refreshOut s (groupRec s g) b = out
  unfold refreshOut refreshBad refreshReads readBlock at hout
  unfold refreshBlock
  cases out with
  | none =>
    simp only [hout]
    rfl
  | some p =>
    simp only [hout]
    rfl

/-- A refresh of uncorrectable statistics or of an uncorrectable root fails on its first attempt (R238). -/
theorem refreshBlock_poisoned (h : isPoisoned s (statAddr (groupRec s g) b) 65536 = true ∨ isPoisoned s (rootAddr (groupRec s g) b) 65536 = true) :
    refreshBlock s r g b step = refreshed (refreshReads s (groupRec s g) b) r (groupRec s g) b step 1 none := by
  have hbad : refreshBad s (groupRec s g) b = true := by rcases h with h | h <;> simp [refreshBad, h]
  rw [refreshBlock_eq, refreshOut, if_pos hbad, if_pos hbad]

/-- A refresh of a good block makes the attempts of R236 on its statistics. -/
theorem refreshBlock_good (hstat : isPoisoned s (statAddr (groupRec s g) b) 65536 = false)
    (hroot : isPoisoned s (rootAddr (groupRec s g) b) 65536 = false) :
    refreshBlock s r g b step = refreshed (refreshReads s (groupRec s g) b) r (groupRec s g) b step 4
      (refreshTry (if (groupRec s g).root = 2 then 4 else 2) (readMat s (statAddr (groupRec s g) b)) 4 1 (groupRec s g).eps0) := by
  have hgood : ¬ refreshBad s (groupRec s g) b = true := by simp [refreshBad, hstat, hroot]
  rw [refreshBlock_eq, refreshOut, if_neg hgood, if_neg hgood, readMat_congr (refreshReads_mem s (groupRec s g) b)]

/-- With none due, on a halted rake, or before the COUNTs are set, no refresh runs. -/
theorem refreshNext_none (h : (s.rake r).refresh = [] ∨ (s.rake r).halted = true ∨ s.rphase.counted = false) : refreshNext s r = s := by
  unfold refreshNext
  simp only
  split
  · next hdue =>
    refine if_pos ?_
    rcases h with h | h | h
    · simp [h] at hdue
    · simp [h]
    · simp [h]
  · rfl

/-- The next refresh of a rake leaves its list. -/
theorem refreshNext_due {rest : List (Nat × Nat × Nat)} (hdue : (s.rake r).refresh = (g, b, step) :: rest) (hhalt : (s.rake r).halted = false)
    (hcounted : s.rphase.counted = true) :
    refreshNext s r = refreshBlock (s.modRake r fun k => { k with refresh := rest }) r g b step := by
  simp [refreshNext, hdue, hhalt, hcounted]

end

/-! ### The end of a phase (R225, R443) -/

section

variable {s : State}

/-- A phase that is not done does not end. -/
theorem rakePhaseEnd_early (h : phaseDone s = false) : rakePhaseEnd s = s := if_neg (by simp [h])

/-- A phase that is done ends. -/
theorem rakePhaseEnd_done (h : phaseDone s = true) : rakePhaseEnd s = endPhase s := if_pos h

/-- The COUNTs are set in memory alone. -/
theorem sameSurroundings_bumpCounts (s : State) (p : RakePhase) : UnitWordFrame.SameSurroundings s (bumpCounts s p) :=
  List.foldlRecOn (motive := UnitWordFrame.SameSurroundings s) _ _ (.refl s) fun _ ht _ _ =>
    ht.trans (UnitWordFrame.sameSurroundings_writeMem _ _ _)

/-- The COUNTs are set once, and with them no rake and no context changes. -/
theorem countPhase_spec (s : State) :
    (countPhase s).rphase.counted = true ∧ (countPhase s).rakes = s.rakes ∧ (countPhase s).ctxs = s.ctxs := by
  unfold countPhase
  split
  case isTrue h => exact ⟨h, rfl, rfl⟩
  case isFalse =>
    have hsame := sameSurroundings_bumpCounts s s.rphase
    exact ⟨rfl, hsame.rakes, hsame.ctxs⟩

/-- Outside a phase, once the COUNTs are set, or with no block missing, none is late. -/
theorem missingBlockTimeout_none (h : s.rphase.active = false ∨ s.rphase.counted = true ∨ missingBeds s = []) : missingBlockTimeout s = s :=
  if_pos (by rcases h with h | h | h <;> simp [h])

/-- A phase past its time: each late block has counted (R443). -/
def lateCounted (s : State) : State :=
  let t := (missingBeds s).foldl (fun s _ => countMissing s) (reach s (s.rphase.at0 + 10000000000))
  { t with rphase := { t.rphase with ue := t.rphase.ue + (missingBeds s).length } }

/-- The phase ends without its late blocks. -/
theorem missingBlockTimeout_late (hactive : s.rphase.active = true) (hcounted : s.rphase.counted = false) (hlate : missingBeds s ≠ []) :
    missingBlockTimeout s = endPhase (lateCounted s) := if_neg (by simp [hactive, hcounted, hlate])

end

/-- Settles O39: REFRESH runs `refreshNext` and closes the phase behind the last; its block is refreshed as `refreshBlock_poisoned` and
`refreshBlock_good` say; the phase ends by `rakePhaseEnd` or `missingBlockTimeout`. -/
theorem rakePhase : Obligations.RakePhase := by
  unfold Obligations.RakePhase
  refine ⟨fun r s a m => ?refresh, fun s a m => ?ends⟩
  case refresh =>
    rw [exec_refresh, run_meets m]
    refine ⟨fun hnone => ?_, fun g b step rest hdue hhalt hcounted => ⟨?_, fun hbad => ?_, fun hstat hroot => ?_⟩⟩
    · simp only [refreshRow, refreshNext_none hnone]
    · simp only [refreshRow, refreshNext_due hdue hhalt hcounted]
    · rw [refreshBlock_poisoned (by simpa using hbad)]
      simp only [refreshReads, isPoisoned_modRake, groupRec_modRake]
      rfl
    · rw [refreshBlock_good (by simpa using hstat) (by simpa using hroot)]
      simp only [refreshReads, isPoisoned_modRake, groupRec_modRake, readMat_modRake]
      rfl
  case ends =>
    rw [exec_rakePhaseEnd, exec_missingBlockTimeout, run_meets m, run_meets m]
    refine ⟨fun hearly => congrArg _ (rakePhaseEnd_early hearly), fun hdone => congrArg _ (rakePhaseEnd_done hdone),
      fun v hv => hv ▸ countPhase_spec a, fun hnone => congrArg _ (missingBlockTimeout_none hnone),
      fun hactive hcounted hlate => congrArg _ (missingBlockTimeout_late hactive hcounted hlate), fun r => ?_⟩
    rw [exec_rakeHardwareFault, run_meets m]
    rfl

end Sys2Proof.RakePhases

namespace Sys2Proof.PegReleases

open Sys2Proof Sys2Proof.Machine

/-! ### What a record bound for the host leaves (R332, R359) -/

/-- The cores and the pegs are the same in both states. -/
structure SameCoresPegs (s t : State) : Prop where
  cores : t.cores = s.cores
  pegs : t.pegs = s.pegs

theorem SameCoresPegs.trans {s t u : State} (h : SameCoresPegs s t) (k : SameCoresPegs t u) : SameCoresPegs s u :=
  ⟨k.cores.trans h.cores, k.pegs.trans h.pegs⟩

/-- An interrupt of a vector (R322). -/
theorem sameCoresPegs_raiseVec (s : State) (v : Nat) : SameCoresPegs s (raiseVec s v) := by
  unfold raiseVec
  split <;> exact ⟨rfl, rfl⟩

/-- An interrupt of a context, raised or held off. -/
theorem sameCoresPegs_raiseCtx (s : State) (c : Nat) : SameCoresPegs s (raiseCtx s c) :=
  iteInduction (motive := SameCoresPegs s) (fun _ => ⟨rfl, rfl⟩) fun _ => (sameCoresPegs_raiseVec s _).trans ⟨rfl, rfl⟩

/-- A record bound for host memory, written or held. -/
theorem sameCoresPegs_toHost (s : State) (x : HeldRec) : SameCoresPegs s (toHost s x) := by
  unfold toHost
  split
  · cases x.jr <;> cases x.irq
    case none.none => exact ⟨rfl, rfl⟩
    case some.none => exact ⟨rfl, rfl⟩
    all_goals
      obtain ⟨hcores, hpegs⟩ := sameCoresPegs_raiseCtx _ _
      exact ⟨hcores, hpegs⟩
  · exact ⟨rfl, rfl⟩

/-- The settlement of a command. -/
theorem sameCoresPegs_settle (s : State) (c aseq disp status result : Nat) : SameCoresPegs s (settle s c aseq disp status result) := by
  unfold settle
  split
  · exact ⟨rfl, rfl⟩
  · obtain ⟨hcores, hpegs⟩ := sameCoresPegs_toHost _ _
    exact ⟨hcores, hpegs⟩

/-! ### The release of waiters (R245) -/

/-- A consuming wait takes from VALUE alone. -/
theorem take_eq (p : Peg) (w : Wait) : ∃ v, p.take w = { p with value := v } := by
  unfold Peg.take
  split
  · exact ⟨_, rfl⟩
  · split
    · exact ⟨_, rfl⟩
    · exact ⟨p.value, rfl⟩

/-- All consuming waits take from VALUE alone. -/
theorem releaseConsuming_eq (p : Peg) (l : List Wait) : ∃ v, (releaseConsuming p l).1 = { p with value := v } := by
  induction l generalizing p with
  | nil => exact ⟨p.value, rfl⟩
  | cons w t ih =>
    unfold releaseConsuming
    split
    · obtain ⟨v, hv⟩ := take_eq p w
      obtain ⟨v', hv'⟩ := ih (p.take w)
      exact ⟨v', hv'.trans (by rw [hv])⟩
    · exact ih p

/-- R245: a release changes VALUE and the waits alone. -/
theorem release_eq (p : Peg) : ∃ v ws, p.release.1 = { p with value := v, waits := ws } := by
  obtain ⟨v, hv⟩ := releaseConsuming_eq { p with waits := [] }
    ((p.waits.filter fun w => !((!w.consume || p.mode == 3) && p.meets w)).filter Wait.consume)
  unfold Peg.release
  simp only [hv]
  exact ⟨_, _, rfl⟩

@[simp] theorem release_overflow (p : Peg) : p.release.1.overflow = p.overflow := by
  obtain ⟨v, ws, h⟩ := release_eq p
  rw [h]

@[simp] theorem release_doubled (p : Peg) : p.release.1.doubled = p.doubled := by
  obtain ⟨v, ws, h⟩ := release_eq p
  rw [h]

/-- A waiter's own side of its release changes no peg. -/
theorem releaseOne_pegs (s : State) (w : Waiter × Nat) : (releaseOne s w).pegs = s.pegs := by
  unfold releaseOne
  split
  · rfl
  · rfl
  · exact (sameCoresPegs_settle ..).pegs

/-- A peg is put back as its release leaves it. -/
theorem releasePeg_pegs (s : State) (i : Nat) (p : Peg) : (releasePeg s i p).pegs = tput {} s.pegs i p.release.1 :=
  List.foldlRecOn (motive := fun t : State => t.pegs = tput {} s.pegs i p.release.1) _ releaseOne rfl
    fun t ht w _ => (releaseOne_pegs t w).trans ht

/-- In a canonical table of pegs a peg reads as its release leaves it. -/
theorem releasePeg_peg {s : State} (h : tabWf {} s.pegs = true) (i : Nat) (p : Peg) : (releasePeg s i p).peg i = p.release.1 := by
  rw [State.peg, releasePeg_pegs, tget_tput_same _ _ _ h]

/-- A peg with OVERFLOW keeps it over a release. -/
theorem releasePeg_overflow (s : State) (i : Nat) {p : Peg} (h : p.overflow = true) : ((releasePeg s i p).peg i).overflow = true := by
  rw [State.peg, releasePeg_pegs, tget_tput_ne, release_overflow, h]
  intro hp
  simpa [h] using congrArg Peg.overflow hp

/-- A peg with DOUBLED keeps it over a release. -/
theorem releasePeg_doubled (s : State) (i : Nat) {p : Peg} (h : p.doubled = true) : ((releasePeg s i p).peg i).doubled = true := by
  rw [State.peg, releasePeg_pegs, tget_tput_ne, release_doubled, h]
  intro hp
  simpa [h] using congrArg Peg.doubled hp

/-! ### Signals, waits and presets (R244 to R248) -/

/-- R244, R246: a signal on a peg that is no barrier releases the peg as the signal leaves it. -/
theorem applySignal_plain {s : State} {i : Nat} (n : Nat) (g : Signaller) (h : (s.peg i).mode ≠ 3) :
    ∃ t, applySignal s i n g = releasePeg t i (((s.peg i).signal n).stamp s.now g) := by
  simp only [applySignal, h, false_and, if_false]
  exact ⟨_, rfl⟩

/-- R244: a signal on a counting peg. -/
theorem signal_counting {p : Peg} (n : Nat) (h : p.mode = 1) :
    p.signal n = if p.value + n > 0xFFFFFFFF then { p with value := 0xFFFFFFFF, overflow := true } else { p with value := p.value + n } :=
  if_pos h

/-- R246: a signal on a flag peg. -/
theorem signal_flag {p : Peg} (n : Nat) (h : p.mode = 2) :
    p.signal n = { p with value := 1, doubled := p.doubled || p.value == 1 || decide (1 < n) } := by
  simp [Peg.signal, h]

/-- R244: a further signal keeps OVERFLOW. -/
theorem signal_overflow {p : Peg} (n : Nat) (hmode : p.mode = 1) (h : p.overflow = true) : (p.signal n).overflow = true := by
  rw [signal_counting n hmode]
  split
  · rfl
  · exact h

/-- R246: a further signal keeps DOUBLED. -/
theorem signal_doubled {p : Peg} (n : Nat) (hmode : p.mode = 2) (h : p.doubled = true) : (p.signal n).doubled = true := by
  simp [signal_flag n hmode, h]

/-- R248: a preset clears both sticky bits. -/
theorem applyPreset_clears {s : State} (i v : Nat) (g : Signaller) (h : tabWf {} s.pegs = true) :
    ((applyPreset s i v g).peg i).overflow = false ∧ ((applyPreset s i v g).peg i).doubled = false := by
  unfold applyPreset
  rw [releasePeg_peg (by exact h), release_overflow, release_doubled]
  exact ⟨rfl, rfl⟩

/-- Settles O23: a signal saturates by `signal_counting`, and what follows a signal, a wait or a preset on its peg is a release, which
keeps OVERFLOW (`releasePeg_overflow`). -/
theorem counterPegs : Obligations.CounterPegs := by
  unfold Obligations.CounterPegs
  refine ⟨fun p n hmode => ⟨fun hfits => ?fits, fun hover => ?saturates⟩, fun s i n g hmode hover => ?signal,
    fun s i w hover => releasePeg_overflow s i hover, fun s i v g hwf => (applyPreset_clears i v g hwf).1, fun p => rfl⟩
  case fits => rw [signal_counting n hmode, if_neg (by omega)]
  case saturates => rw [signal_counting n hmode, if_pos hover]
  case signal =>
    obtain ⟨t, ht⟩ := applySignal_plain n g (s := s) (i := i) (by omega)
    rw [ht]
    exact releasePeg_overflow t i (signal_overflow n hmode hover)

/-- Settles O24: a signal is `signal_flag`, a wait looks at VALUE alone, and a release keeps DOUBLED (`releasePeg_doubled`). -/
theorem flagPegs : Obligations.FlagPegs := by
  unfold Obligations.FlagPegs
  refine ⟨fun p n hmode => ?flag, fun p w hmode => ?wait, fun s i n g hmode hdoubled => ?signal,
    fun s i w hdoubled => releasePeg_doubled s i hdoubled, fun s i v g hwf => (applyPreset_clears i v g hwf).2, fun p => rfl⟩
  case flag => simp [signal_flag n hmode, or_assoc]
  case wait => simp [Peg.meets, Peg.take, hmode]
  case signal =>
    obtain ⟨t, ht⟩ := applySignal_plain n g (s := s) (i := i) (by omega)
    rw [ht]
    exact releasePeg_doubled t i (signal_doubled n hmode hdoubled)

end Sys2Proof.PegReleases

namespace Sys2Proof.PegOperations

open Sys2Proof Sys2Proof.Machine

/-! ### The signals of a barrier peg (R247) -/

section

variable {p : Peg} (hmode : p.mode = 3)

include hmode

/-- R247: a signal that does not fill the barrier counts as arrivals. -/
theorem signal_barrier_below {n : Nat} (h : p.arrived + n < p.parties) :
    p.signal n = { p with arrived := p.arrived + n, phases := p.phases % 2 ^ 31 } := by
  simp [Peg.signal, hmode, Nat.div_eq_of_lt h, Nat.mod_eq_of_lt h]

/-- R247: the last arrival flips the phase. -/
theorem signal_barrier_last (hlast : p.arrived + 1 = p.parties) :
    p.signal 1 = { p with arrived := 0, sense := !p.sense, phases := (p.phases + 1) % 2 ^ 31 } := by
  have hflips : p.parties / p.parties = 1 := Nat.div_self (by omega)
  simp [Peg.signal, hmode, hlast, hflips]

end

/-! ### PEG_APPLY (R144, R245, R251) -/

section

variable {s : State} {home : Nat} {q r : PegReq}

/-- The oldest operation that has its home at a core. -/
def oldestAt (s : State) (home : Nat) : Option PegReq := s.pegReqs.find? fun r => r.phys / 2048 == home

/-- The block without the oldest operation of a peg unit. -/
def withoutOldest (s : State) (home : Nat) : State := { s with pegReqs := delFirst (fun r => r.phys / 2048 == home) s.pegReqs }

/-- R144: the record of a peg in a good row is read without consequence. -/
theorem pegRead_good {p : Nat} (h : s.badRows.contains (pegRow p) = false) : pegRead s p = s := by
  simp only [pegRead, h, Bool.false_eq_true, if_false]

/-- A peg unit without an operation does nothing. -/
theorem pegApply_none (h : oldestAt s home = none) : pegApply s home = s := by
  rw [oldestAt] at h
  simp only [pegApply, h]

/-- R144: where the read of the record took the operation with it, nothing is left to apply. -/
theorem pegApply_lost (h : oldestAt s home = some q) (hread : oldestAt (pegRead s q.phys) home = none) :
    pegApply s home = pegRead s q.phys := by
  rw [oldestAt] at h hread
  simp only [pegApply, h, hread]

/-- The operation in front once the record is read takes effect where its VPID still names its peg. -/
theorem pegApply_takes (h : oldestAt s home = some q) (hread : oldestAt (pegRead s q.phys) home = some r) (hdead : r.dead = false)
    (hmapped : vpidOk (pegRead s q.phys) r.ctx r.vpid = some r.phys) :
    pegApply s home = goOn (applyPegOp (withoutOldest (pegRead s q.phys) home) r) r.core := by
  rw [oldestAt] at h hread
  simp only [pegApply, h, hread]
  exact if_pos ⟨by simp [hdead], hmapped⟩

/-- R251: an operation on a peg that was freed meanwhile is a program fault of its word. -/
theorem pegApply_freed (h : oldestAt s home = some q) (hread : oldestAt (pegRead s q.phys) home = some r)
    (hgone : r.dead = true ∨ vpidOk (pegRead s q.phys) r.ctx r.vpid ≠ some r.phys) :
    pegApply s home = programFault (withoutOldest (pegRead s q.phys) home) r.core 0x0D 10 (pegWordOf (pegRead s q.phys) r.core).pc
      (pegWordOf (pegRead s q.phys) r.core).word (0x01 + r.vpid * 2 ^ 8) := by
  rw [oldestAt] at h hread
  simp only [pegApply, h, hread]
  refine if_neg ?_
  rintro ⟨hlive, hmapped⟩
  rcases hgone with hdead | hfreed
  · simp [hdead] at hlive
  · exact hfreed hmapped

/-! ### The operations (R245, R248) -/

theorem applyPegOp_signal {k : Nat} (h : r.op = .signal k) :
    applyPegOp s r = applySignal (markDone s r.core 10) r.phys k ⟨s.salt.node, 0, r.core⟩ := by
  simp only [applyPegOp, h]

theorem applyPegOp_preset {v : Nat} (h : r.op = .preset v) :
    applyPegOp s r = applyPreset (markDone s r.core 10) r.phys v ⟨s.salt.node, 0, r.core⟩ := by
  simp only [applyPegOp, h]

/-- R245: a wait enters its peg's waits, and the peg releases those that it satisfies. -/
theorem applyPegOp_wait {k : Nat} {con : Bool} (h : r.op = .wait k con) :
    applyPegOp s r = releasePeg s r.phys { s.peg r.phys with
      waits := (s.peg r.phys).waits ++ [{ who := .core r.core, k := k, consume := con, phases := (s.peg r.phys).phases }] } := by
  simp only [applyPegOp, h, applyWait]

end

/-- Settles O22: a barrier counts its arrivals by `signal_barrier_below` and flips by `signal_barrier_last`; PEG_APPLY is one of the four
cases of `pegApply`, and an operation that takes effect one of `applyPegOp`'s. -/
theorem pegApply : Obligations.PegApply := by
  unfold Obligations.PegApply
  refine ⟨fun p n hmode => ⟨signal_barrier_below hmode, fun _ => signal_barrier_last hmode⟩, fun c s a m => ?_⟩
  rw [exec_pegApply, run_meets m]
  refine ⟨fun hnone => congrArg _ (pegApply_none hnone), fun q hq _ hlost => congrArg _ (pegApply_lost hq hlost), fun q => pegRead_good,
    fun q r hq hr => ?_⟩
  intro t b
  refine ⟨fun hdead hmapped => ⟨congrArg _ (pegApply_takes hq hr hdead hmapped), ?_⟩, fun hgone => congrArg _ (pegApply_freed hq hr hgone)⟩
  exact ⟨fun k => applyPegOp_signal, fun v => applyPegOp_preset, fun k con => applyPegOp_wait⟩

end Sys2Proof.PegOperations

namespace Sys2Proof.FabricMessages

open Sys2Proof Sys2Proof.Machine

section

variable {s : State} {p : Nat} {m : Msg}

/-- A message of this chip is handled once its link credit is returned (R273). -/
theorem onArrival_mine (h : State → State) (hmine : arrival s p m = .mine) : onArrival s p m h = h (creditBack s p m) := by
  simp only [onArrival, hmine]

/-- The return of link credit leaves the rakes. -/
theorem rakeRoom_creditBack (s : State) (p : Nat) (m : Msg) : rakeRoom (creditBack s p m) p = rakeRoom s p := by
  unfold creditBack
  split
  · rfl
  · split <;> rfl

/-! ### SIGNAL (R256, R268, R278) -/

/-- A SIGNAL whose fields are wrong, or from a Chamos peer to a peg that does not count (R268). -/
theorem targetMsgSignal_refused
    (h : signalBad m = true ∨ (s.port p).version = 1 ∧ ((vpidOk s m.ctx m.addr).map fun i => (s.peg i).mode) ≠ some 1) :
    targetMsgSignal s p m = respond s m stBADPARAM := by
  refine if_pos ?_
  rcases h with h | ⟨hver, hplain⟩
  · simp [h]
  · simp [hver, hplain]

/-- A well-formed SIGNAL: the answer is that of its target. -/
theorem targetMsgSignal_taken (hbad : signalBad m = false)
    (h : (s.port p).version = 1 → ((vpidOk s m.ctx m.addr).map fun i => (s.peg i).mode) = some 1) :
    let r := targetSignal s m.ctx m.addr (if (s.port p).version = 1 then 1 else m.arg) (m.src == s.salt.node) ⟨m.src, m.ukind, m.unit⟩
    targetMsgSignal s p m = respond r.1 m r.2 := by
  refine if_neg ?_
  by_cases hver : (s.port p).version = 1
  · simp [hbad, h hver]
  · simp [hbad, hver]

/-! ### TRAY_PUT (R282) -/

/-- The fields of a TRAY_PUT that are not its packet's are as Table 12-6 has them. -/
def PutFields (m : Msg) : Prop := m.rsvd = false ∧ m.addr < 32768 ∧ m.arg = 0 ∧ m.data = true ∧ m.barrier = false ∧ m.aop = 0

/-- Whether the fields of a TRAY_PUT are refused, as its target tests it. -/
theorem putFields_iff : ¬PutFields m ↔ (m.rsvd || m.addr ≥ 32768 || m.arg != 0 || !m.data || m.barrier || m.aop != 0) = true := by
  rw [← not_iff_not, not_not]
  simp [PutFields, and_assoc]

/-- The entry of a TRAY_PUT: its producer's, under the slot of the message. -/
def putEntry (m : Msg) : TrayEntry := { (parseEntry (m.words.take 32)) with slot := m.slot }

theorem targetTrayPut_badFields (h : ¬PutFields m) : targetTrayPut s p m = respond s m stBADPARAM :=
  if_pos (putFields_iff.mp h)

section

variable (hgood : PutFields m)

include hgood

theorem targetTrayPut_good : targetTrayPut s p m =
    if (s.port p).version = 1 ∧ (putEntry m).fver ≠ 1 then respond s m stVERSION
    else if m.words.length ≠ 64 * ((putEntry m).length + 2) then respond s m stBADPARAM
    else putPacket s m.addr (putEntry m) m.src (m.words.drop 64) m.poison false (.port p m) :=
  if_neg (mt putFields_iff.mpr (not_not.mpr hgood))

theorem targetTrayPut_otherVersion (hver : (s.port p).version = 1) (he : (putEntry m).fver ≠ 1) : targetTrayPut s p m = respond s m stVERSION := by
  rw [targetTrayPut_good hgood, if_pos ⟨hver, he⟩]

variable (hver : (s.port p).version = 1 → (putEntry m).fver = 1)

include hver

theorem targetTrayPut_badLength (hlen : m.words.length ≠ 64 * ((putEntry m).length + 2)) : targetTrayPut s p m = respond s m stBADPARAM := by
  rw [targetTrayPut_good hgood, if_neg fun h => h.2 (hver h.1), if_pos hlen]

theorem targetTrayPut_taken (hlen : m.words.length = 64 * ((putEntry m).length + 2)) :
    targetTrayPut s p m = putPacket s m.addr (putEntry m) m.src (m.words.drop 64) m.poison false (.port p m) := by
  rw [targetTrayPut_good hgood, if_neg fun h => h.2 (hver h.1), if_neg (not_not.mpr hlen)]

end

/-! ### UPDATE (R214 to R216) -/

/-- An UPDATE row whose message is this chip's. -/
theorem updateRow_mine (hmine : arrival s p { m with mtype := 6 } = .mine) :
    updateRow s p m = if updateBad { m with mtype := 6 } = false ∧ rakeRoom s p = false then s
      else targetUpdate (creditBack s p { m with mtype := 6 }) p { m with mtype := 6 } := by
  simp only [updateRow, onArrival_mine _ hmine, hmine, true_and, Bool.not_eq_true']

theorem targetUpdate_bad (h : updateBad m = true) : targetUpdate s p m = respond s m stBADPARAM := if_pos h

section

variable (hbad : updateBad m = false) (hroom : rakeRoom s p = true)

include hbad hroom

theorem targetUpdate_poisoned (h : m.poison = true) : targetUpdate s p m = respond (rakePoison s p) m stUNCORR := by
  simp [targetUpdate, hbad, hroom, h]

theorem targetUpdate_taken (h : m.poison = false) :
    targetUpdate s p m = respond (rakeTake s p m.words).1 m (rakeTake s p m.words).2 := by
  simp [targetUpdate, hbad, hroom, h]

end

/-! ### CREDIT (R179, R299) -/

section

variable (hrsvd : m.rsvd = false) (haddr : m.addr < 32768) (harg : m.arg < 2 ^ 45)

include hrsvd haddr harg

theorem creditFields_good : (m.rsvd || decide (m.addr ≥ 32768) || decide (m.arg ≥ 2 ^ 45)) = false := by
  rw [hrsvd, decide_eq_false (by omega), decide_eq_false (by omega)]
  rfl

/-- A CREDIT with good fields is kept. -/
theorem targetCredit_good : targetCredit s m = s.modSalt fun x => { x with
    creditSeen := (m.src, m.addr, m.slot, bitsAt m.arg 0 17, bitsAt m.arg 17 28)
      :: x.creditSeen.filter (fun e => !(e.1 == m.src && e.2.1 == m.addr && e.2.2.1 == m.slot)) } :=
  if_neg (ne_true_of_eq_false (creditFields_good hrsvd haddr harg))

/-- A CREDIT with good fields, once it is kept, ends the waits for it. -/
theorem creditRow_mine (hmine : arrival s p { m with mtype := 7 } = .mine) :
    creditRow s p m = creditWake (targetCredit (creditBack s p { m with mtype := 7 }) { m with mtype := 7 }) m.src m.addr m.slot := by
  rw [creditRow, onArrival_mine _ hmine]
  exact if_neg (ne_true_of_eq_false (creditFields_good hrsvd haddr harg))

end

end

/-- Settles O31: a message of this chip is handled behind `creditBack` (`onArrival_mine`), and each target's answer is a lemma about
`targetMsgSignal`, `targetTrayPut`, `targetUpdate` or `targetCredit`. -/
theorem fabricRequests : Obligations.FabricRequests := by
  unfold Obligations.FabricRequests
  intro p m s a hm
  rw [exec_signal, exec_trayPut, exec_update, exec_credit, run_meets hm, run_meets hm, run_meets hm, run_meets hm]
  refine ⟨?signal, ?put, ?update, ?credit⟩
  case signal =>
    rintro q rfl hmine b v chamos plain
    rw [signalRow, onArrival_mine _ hmine]
    refine ⟨fun hwaits => congrArg _ (if_pos hwaits), fun hwaits hbad => congrArg _ ?_, fun hwaits hbad hplain => congrArg _ ?_⟩
    all_goals refine (if_neg (ne_true_of_eq_false hwaits)).trans ?_
    · exact targetMsgSignal_refused hbad
    · exact targetMsgSignal_taken hbad hplain
  case put =>
    rintro q rfl hmine e rfl b good
    rw [trayPutRow, onArrival_mine _ hmine]
    refine ⟨fun hbad => ?_, fun hgood hver he => ?_, fun hgood hver hlen => ?_, fun hgood hver hlen => ?_⟩
    all_goals refine congrArg (fun t => Host.Outcome.next (flushAcks t)) ?_
    · exact targetTrayPut_badFields hbad
    · exact targetTrayPut_otherVersion hgood hver he
    · exact targetTrayPut_badLength hgood hver hlen
    · exact targetTrayPut_taken hgood hver hlen
  case update =>
    rintro q rfl hmine b
    rw [updateRow_mine hmine]
    refine ⟨fun hbad => ?_, fun hbad hroom => congrArg _ (if_pos ⟨hbad, hroom⟩), fun hbad hroom hpoison => ?_, fun hbad hroom hpoison => ?_⟩
    · rw [if_neg fun h => by simp [hbad] at h, targetUpdate_bad hbad]
    all_goals
      rw [if_neg fun h => by simp [hroom] at h]
      have hroom' := (rakeRoom_creditBack a p { m with mtype := 6 }).trans hroom
    · rw [targetUpdate_poisoned hbad hroom' hpoison]
    · rw [targetUpdate_taken hbad hroom' hpoison]
  case credit =>
    rintro q rfl hmine hrsvd haddr harg
    rw [creditRow_mine hrsvd haddr harg hmine]
    exact congrArg (fun t => Host.Outcome.next (creditWake t m.src m.addr m.slot)) (targetCredit_good hrsvd haddr harg)

end Sys2Proof.FabricMessages

namespace Sys2Proof.PegProgramWords

open Sys2Proof Sys2Proof.Machine Sys2Proof.PegReleases Sys2Proof.IssueFaults Sys2Proof.UnitWords

/-! ### What leaves the cores alone -/

/-- A change of a context. -/
theorem sameCoresPegs_modCtx (s : State) (c : Nat) (f : Ctx → Ctx) : SameCoresPegs s (s.modCtx c f) := ⟨rfl, rfl⟩

/-- A count on a chip-wide peg counter. -/
theorem sameCoresPegs_pegCount (s : State) (off n : Nat) : SameCoresPegs s (pegCount s off n) := ⟨rfl, rfl⟩

/-- The event of a host peg signal (R258). -/
theorem sameCoresPegs_hostEvent (s : State) (c h v : Nat) : SameCoresPegs s (hostEvent s c h v) := by
  unfold hostEvent
  simp only
  split
  · exact (sameCoresPegs_modCtx s c _).trans (sameCoresPegs_pegCount _ _ _)
  · exact (sameCoresPegs_modCtx s c _).trans (sameCoresPegs_toHost _ _)

/-- A change of the host port. -/
theorem sameCoresPegs_modCxl (s : State) (f : Cxl → Cxl) : SameCoresPegs s (s.modCxl f) := ⟨rfl, rfl⟩

/-- A write of host memory. -/
theorem sameCoresPegs_putHost (s : State) (a : Nat) (l : List Byte) (bad : Bool) : SameCoresPegs s (putHost s a l bad) := ⟨rfl, rfl⟩

/-- A write of host memory in a line that the device cache owns (R258). -/
theorem sameCoresPegs_putOwned (s : State) (a : Nat) (l : List Byte) : SameCoresPegs s (putHost (ownLine s a) a l) :=
  (sameCoresPegs_modCxl s _).trans (sameCoresPegs_putHost _ a l false)

/-- A host peg signal (R258). -/
theorem sameCoresPegs_hostPegSignal (s : State) (c h n : Nat) (notify : Bool) : SameCoresPegs s (hostPegSignal s c h n notify) := by
  unfold hostPegSignal
  simp only
  split <;> split
  case isTrue.isTrue => exact (sameCoresPegs_putOwned _ _ _).trans (sameCoresPegs_hostEvent _ _ _ _)
  case isTrue.isFalse => exact sameCoresPegs_putOwned _ _ _
  case isFalse.isTrue => exact (sameCoresPegs_modCxl _ _).trans (sameCoresPegs_hostEvent _ _ _ _)
  case isFalse.isFalse => exact sameCoresPegs_modCxl _ _

/-- A request on the fabric, sent, held or failed (R277). -/
theorem sendReq_cores (s : State) (m : Msg) (src : ReqSrc) (k : Nat) : (sendReq s m src k).1.cores = s.cores := by
  unfold sendReq
  split
  · rfl
  · split
    · rfl
    · split
      · rfl
      · split
        · rfl
        · split <;> rfl

/-- A count on a chip-wide peg counter, where there is something to count. -/
theorem pegCount_if_cores (s : State) (b : Prop) [Decidable b] (off n : Nat) : (if b then pegCount s off n else s).cores = s.cores := by
  split
  · exact (sameCoresPegs_pegCount s off n).cores
  · rfl

/-- A signal that is applied changes cores by the release of waiters alone (R245, R247). -/
theorem applySignal_releases (s : State) (i n : Nat) (g : Signaller) :
    ∃ l t, applySignal s i n g = List.foldl releaseOne t l ∧ t.cores = s.cores := by
  unfold applySignal
  simp only
  split
  all_goals
    refine ⟨_, _, rfl, ?_⟩
    simp only [State.setPeg_frame, pegCount_if_cores]
    rfl

/-! ### A core with one word -/

/-- A running core with nothing fetched, whose queues hold one word, not a GATE. -/
structure LoneWord (s : State) (n : Nat) : Prop where
  mode : (s.core n).mode = .running
  prog : (s.core n).run.prog = []
  word : ∃ e, (s.core n).run.q = [e] ∧ e.gate = none

/-- What leaves the fetch queue and one word of the queues in place. -/
def KeepsWord (f : Run → Run) : Prop :=
  ∀ r : Run, (f r).prog = r.prog ∧ ∀ e : QWord, r.q = [e] → e.gate = none → ∃ e' : QWord, (f r).q = [e'] ∧ e'.gate = none

theorem keepsWord_of_same {f : Run → Run} (hprog : ∀ r, (f r).prog = r.prog) (hq : ∀ r, (f r).q = r.q) : KeepsWord f :=
  fun r => ⟨hprog r, fun e he hg => ⟨e, (hq r).trans he, hg⟩⟩

section

variable {s : State} {n : Nat}

theorem LoneWord.busy (h : LoneWord s n) : (s.core n).mode ≠ .idle := by
  rw [h.mode]
  decide

theorem LoneWord.of_cores {t : State} (h : LoneWord s n) (hcores : t.cores = s.cores) : LoneWord t n := by
  have hcore : t.core n = s.core n := by rw [State.core, hcores, ← State.core]
  exact ⟨hcore ▸ h.mode, hcore ▸ h.prog, hcore ▸ h.word⟩

theorem LoneWord.modRun (h : LoneWord s n) (m : Nat) {f : Run → Run} (hf : KeepsWord f) : LoneWord (s.modRun m f) n := by
  by_cases hm : n = m
  · subst hm
    obtain ⟨e, he, hgate⟩ := h.word
    obtain ⟨hprog, hword⟩ := hf (s.core n).run
    have hcore := core_modRun s n f h.busy
    refine ⟨?_, ?_, ?_⟩
    · rw [hcore]
      exact h.mode
    · rw [hcore]
      exact hprog.trans h.prog
    · rw [hcore]
      exact hword e he hgate
  · have hcore : (s.modRun m f).core n = s.core n := tget_tput_other ({} : Core) s.cores _ hm
    exact ⟨hcore ▸ h.mode, hcore ▸ h.prog, hcore ▸ h.word⟩

/-- A word marked executed stays where it is. -/
theorem LoneWord.markDone (h : LoneWord s n) (m u : Nat) : LoneWord (markDone s m u) n := by
  refine h.modRun m fun r => ⟨rfl, fun e he hgate => ?_⟩
  simp only [he, modFirst]
  split
  · exact ⟨_, rfl, hgate⟩
  · exact ⟨_, rfl, hgate⟩

/-- The release of a waiter, the core itself among them (R245). -/
theorem LoneWord.releaseOne (h : LoneWord s n) (w : Waiter × Nat) : LoneWord (releaseOne s w) n := by
  unfold Machine.releaseOne
  split
  · refine LoneWord.markDone (h.modRun _ (keepsWord_of_same ?_ ?_)) _ _ <;> exact fun _ => rfl
  · exact h.of_cores rfl
  · exact h.of_cores (sameCoresPegs_settle ..).cores

theorem LoneWord.releases (h : LoneWord s n) (l : List (Waiter × Nat)) : LoneWord (l.foldl Machine.releaseOne s) n :=
  List.foldlRecOn (motive := fun t => LoneWord t n) l Machine.releaseOne h fun _ ht w _ => ht.releaseOne w

/-- A signal that is applied (R244 to R247). -/
theorem LoneWord.applySignal (h : LoneWord s n) (i k : Nat) (g : Signaller) : LoneWord (applySignal s i k g) n := by
  obtain ⟨l, t, heq, hcores⟩ := applySignal_releases s i k g
  rw [heq]
  exact (h.of_cores hcores).releases l

/-- A signal at its target, applied or refused (R256). -/
theorem LoneWord.targetSignal (h : LoneWord s n) (c v k : Nat) (own : Bool) (g : Signaller) : LoneWord (targetSignal s c v k own g).1 n := by
  unfold Machine.targetSignal
  simp only
  split
  · exact h.applySignal _ _ _
  · exact h.of_cores rfl

/-- The record of a refused PSIG (R256). -/
theorem LoneWord.psigRefused (h : LoneWord s n) (m st node v : Nat) : LoneWord (psigRefused s m st node v) n :=
  (h.modRun m (f := fun r => { r with peg := { r.peg with refStatus := st, refNode := node, refVpid := v } })
    (keepsWord_of_same (fun _ => rfl) fun _ => rfl)).of_cores rfl

/-! ### The end of a peg word at its core -/

/-- The peg unit is free again, and its word is executed. -/
def finished (n : Nat) (s : State) : State :=
  s.modRun n fun r => { r with peg := { r.peg with state := 0 }, q := modAt r.q 0 fun e => { e with done := true } }

/-- The end of a peg word, in the model's own operation. -/
theorem finished_eq (h : (s.core n).mode ≠ .idle) :
    modQ (s.modRun n fun r => { r with peg := { r.peg with state := 0 } }) n 0 (fun e => { e with done := true }) = finished n s :=
  modRun_modRun s n _ _ h

/-- A core whose one word is executed is at rest. -/
theorem LoneWord.pump_finished (h : LoneWord s n) (k : Nat) : pumpCore n k (finished n s) = finished n s := by
  obtain ⟨e, he, hgate⟩ := h.word
  have hcore := core_modRun s n (fun r => { r with peg := { r.peg with state := 0 }, q := modAt r.q 0 fun e => { e with done := true } }) h.busy
  refine pump_rest (e := { e with done := true }) k ?_ ?_ (by simp [hgate]) (.inl rfl)
  · rw [finished, hcore]
    exact h.prog
  · rw [finished, hcore]
    simp only [he, modAt]

end

/-! ### A peg word at a waiting core (R116, R254) -/

/-- Table 6-1: the words of 0x38 to 0x3F belong to the peg unit. -/
theorem unitOf_peg {w : W128} (hlo : 0x38 ≤ wOp w) (hhi : wOp w < 0x40) : unitOf w = 10 := by
  simp (disch := omega) only [unitOf, if_neg, if_pos]

/-- Table 6-9: a peg word has no check at issue but those of its unit. -/
theorem issueFault_peg (r : Run) {w : W128} (hlo : 0x38 ≤ wOp w) (hhi : wOp w < 0x40) : issueFault r w = none := by
  simp only [issueFault]
  split
  iterate 7 next => omega
  next => simp (disch := omega) only [if_neg, if_pos]

/-- The unit of a peg word executes it where its checks pass (R255). -/
theorem runEntry_peg {s : State} {n i : Nat} {e : QWord} (hlo : 0x38 ≤ wOp e.word) (hhi : wOp e.word < 0x40) (hbad : pegBad s n e.word = 0) :
    runEntry s n i e = some (runPegWord s n i e) := by
  simp only [runEntry]
  split
  iterate 11 next => omega
  next => simp (disch := omega) only [if_neg, if_pos, hbad, ne_eq, not_true_eq_false, if_false]

section

variable {a : State} {n : Nat} {w : W128}

theorem wordEntry_word (a : State) (n : Nat) (w : W128) : (wordEntry a n w).word = w := rfl

/-- A core's context stays over the dispatch of a word. -/
theorem dispatched_ctx (w : W128) (h : (a.core n).mode = .running) : ((dispatched a n w).core n).ctx = (a.core n).ctx := by
  rw [dispatched_core w h]

/-- What a core's peg unit shows and holds stays over the dispatch of a word. -/
theorem dispatched_peg (w : W128) (h : (a.core n).mode = .running) : ((dispatched a n w).core n).run.peg = (a.core n).run.peg := by
  rw [dispatched_core w h]
  rfl

/-- The checks of a peg word see the block as before the dispatch. -/
theorem pegBad_dispatched (w : W128) (h : (a.core n).mode = .running) : pegBad (dispatched a n w) n w = pegBad a n w := by
  unfold pegBad
  rw [dispatched_ctx w h, dispatched_peg w h]
  rfl

theorem loneWord_dispatched (w : W128) (h : Waiting a n) : LoneWord (dispatched a n w) n := by
  obtain ⟨hprog, hq⟩ := dispatched_queues w h
  have hmode : ((dispatched a n w).core n).mode = .running := by
    rw [dispatched_core w h.1]
    exact h.1
  exact ⟨hmode, hprog, wordEntry a n w, hq, rfl⟩

/-- R254: the word of a waiting core is on its way to the home unit of `v`, with `f` what the core's peg unit shows of it. -/
def asked (a : State) (n : Nat) (w : W128) (f : PegUnit → PegUnit) (v : Nat) (op : PegOp) : State :=
  { (dispatched a n w).modRun n fun r => { r with peg := f r.peg, q := [{ wordEntry a n w with kick := some (16, 0) }] } with
    pegReqs := a.pegReqs ++ [{ core := n, ctx := (a.core n).ctx, vpid := v, phys := (vpidPhys a (a.core n).ctx v).getD 0, op := op }] }

/-- A core whose one word waits for its home unit is at rest. -/
theorem pump_asked (h : Waiting a n) (k : Nat) (f : PegUnit → PegUnit) (v : Nat) (op : PegOp) :
    pumpCore n k (asked a n w f v op) = asked a n w f v op := by
  have hlone := loneWord_dispatched w h
  have hcore : (asked a n w f v op).core n = _ :=
    core_modRun (dispatched a n w) n (fun r => { r with peg := f r.peg, q := [{ wordEntry a n w with kick := some (16, 0) }] }) hlone.busy
  refine pump_rest (e := { wordEntry a n w with kick := some (16, 0) }) k ?_ ?_ (by simp [wordEntry]) (.inr (.inl (by simp)))
  · rw [hcore]
    exact hlone.prog
  · rw [hcore]

/-- A word that its peg unit has taken is in progress. -/
theorem busy_eq (h : Waiting a n) (f : PegUnit → PegUnit) :
    modQ ((dispatched a n w).modRun n fun r => { r with peg := f r.peg }) n 0 (fun e => { e with kick := some (16, 0) })
      = (dispatched a n w).modRun n fun r => { r with peg := f r.peg, q := [{ wordEntry a n w with kick := some (16, 0) }] } := by
  obtain ⟨-, hq⟩ := dispatched_queues w h
  refine (modRun_modRun _ _ _ _ (loneWord_dispatched w h).busy).trans (modRun_congr _ _ ?_)
  simp only [hq, modAt]

/-- The same of a word that shows nothing at its unit. -/
theorem busy_plain_eq (h : Waiting a n) :
    modQ (dispatched a n w) n 0 (fun e => { e with kick := some (16, 0) })
      = (dispatched a n w).modRun n fun r => { r with peg := id r.peg, q := [{ wordEntry a n w with kick := some (16, 0) }] } := by
  obtain ⟨-, hq⟩ := dispatched_queues w h
  refine modRun_congr _ _ ?_
  simp only [hq, modAt, id]

/-! ### Signals that end at once (R256, R258) -/

theorem loneWord_hostPegSignal {s : State} (h : LoneWord s n) (c v k : Nat) (notify : Bool) : LoneWord (hostPegSignal s c v k notify) n :=
  h.of_cores (sameCoresPegs_hostPegSignal s c v k notify).cores

/-- The signal of a PSIG to a context of this node, at its target. -/
def ownSignal (a : State) (n : Nat) (w : W128) : State × Nat :=
  targetSignal (dispatched a n w) (wf w 80 12) (wf w 8 12) (wf w 32 32) (wf w 80 12 == (a.core n).ctx) ⟨wf w 64 16, 0, n⟩

/-- A refused signal is recorded at the core that sent it. -/
def orRefused (n node v : Nat) (r : State × Nat) : State := if r.2 = stOK then r.1 else psigRefused r.1 n r.2 node v

theorem loneWord_ownSignal (h : Waiting a n) : LoneWord (orRefused n (wf w 64 16) (wf w 8 12) (ownSignal a n w)) n := by
  have hlone : LoneWord (ownSignal a n w).1 n := (loneWord_dispatched w h).targetSignal ..
  unfold orRefused
  split
  · exact hlone
  · exact hlone.psigRefused ..

/-- The message of a PSIG to another node. -/
def remoteSignal (a : State) (n : Nat) (w : W128) : State × SendRes :=
  sendReq (dispatched a n w) { mtype := 4, dst := wf w 64 16, addr := wf w 8 12, arg := wf w 32 32, ctx := wf w 80 12, ukind := 0, unit := n }
    (.psig n) 1

theorem loneWord_remoteSignal (h : Waiting a n) : LoneWord (remoteSignal a n w).1 n := (loneWord_dispatched w h).of_cores (sendReq_cores ..)

/-! ### The words (R254) -/

/-- What the peg unit of a waiting core does with a word whose checks have passed. -/
def taken (a : State) (n : Nat) (w : W128) : State := runPegWord (dispatched a n w) n 0 (wordEntry a n w)

variable (h : Waiting a n)

include h

theorem taken_psig_local (hop : wOp w = 0x38) (hdest : wf w 20 2 = 0) : taken a n w = asked a n w id (wf w 8 12) (.signal (wf w 32 32)) := by
  simp only [taken, runPegWord, wordEntry_word, hop, hdest, if_true, dispatched_ctx w h.1, busy_plain_eq h]
  rfl

theorem taken_pwait (hop : wOp w = 0x39) : taken a n w = asked a n w (fun p => { p with state := 1, vpid := wf w 8 12, thresh := wf w 32 32 })
    (wf w 8 12) (.wait (wf w 32 32) (wf w 20 1 == 1)) := by
  simp only [taken, runPegWord, wordEntry_word, hop, dispatched_ctx w h.1,
    busy_eq h fun p => { p with state := 1, vpid := wf w 8 12, thresh := wf w 32 32 }]
  rfl

theorem taken_parrive (hop : wOp w = 0x3A) : taken a n w =
    asked a n w (fun p => if wf w 22 1 = 1 then { p with state := 2, vpid := wf w 8 12, thresh := 0 } else p)
      (wf w 8 12) (.arrive (wf w 22 1 == 1) (wf w 20 2)) := by
  by_cases hhold : wf w 22 1 = 1
  · simp only [taken, runPegWord, wordEntry_word, hop, hhold, if_true, dispatched_ctx w h.1,
      busy_eq h fun p => { p with state := 2, vpid := wf w 8 12, thresh := 0 }]
    rfl
  · simp only [taken, runPegWord, wordEntry_word, hop, hhold, if_false, dispatched_ctx w h.1, busy_plain_eq h]
    rfl

theorem taken_pbwait (hop : wOp w = 0x3B) {slot : PhaseSlot} (hslot : (a.core n).run.peg.slots.getD (wf w 20 2) none = some slot) :
    taken a n w = asked a n w (fun p => { p with state := 3, vpid := slot.vpid, thresh := 0 }) slot.vpid (.slotWait (wf w 20 2)) := by
  have hshown : ((dispatched a n w).modRun n fun r => { r with peg := { r.peg with
      state := 3, vpid := ((r.peg.slots.getD (wf w 20 2) none).map PhaseSlot.vpid).getD 0, thresh := 0 } })
      = (dispatched a n w).modRun n fun r => { r with peg := { r.peg with state := 3, vpid := slot.vpid, thresh := 0 } } := by
    refine modRun_congr _ _ ?_
    rw [dispatched_peg w h.1, hslot]
    rfl
  simp only [taken, runPegWord, wordEntry_word, hop, hshown, dispatched_ctx w h.1, dispatched_peg w h.1, hslot, Option.map_some, Option.getD_some,
    busy_eq h fun p => { p with state := 3, vpid := slot.vpid, thresh := 0 }]
  rfl

theorem taken_preset (hop : wOp w = 0x3C) : taken a n w = asked a n w id (wf w 8 12) (.preset (wf w 32 32)) := by
  simp only [taken, runPegWord, wordEntry_word, hop, dispatched_ctx w h.1, busy_plain_eq h]
  rfl

/-- R258: a signal of a host peg takes effect at once. -/
theorem taken_psig_host (hop : wOp w = 0x38) (hdest : wf w 20 2 = 2) :
    taken a n w = finished n (hostPegSignal (dispatched a n w) (a.core n).ctx (wf w 8 12) (wf w 32 32) (wf w 23 1 == 1)) := by
  rw [← finished_eq (loneWord_hostPegSignal (loneWord_dispatched w h) ..).busy]
  simp only [taken, runPegWord, wordEntry_word, hop, hdest, dispatched_ctx w h.1, OfNat.ofNat_ne_zero, if_true, if_false]

/-- R256: a signal of a context of this node is tested and applied, or refused and recorded. -/
theorem taken_psig_own (hop : wOp w = 0x38) (hdest : wf w 20 2 = 1) (hnode : wf w 64 16 = a.salt.node) :
    taken a n w = finished n (orRefused n (wf w 64 16) (wf w 8 12) (ownSignal a n w)) := by
  have hnode' : wf w 64 16 = (dispatched a n w).salt.node := hnode
  rw [← finished_eq (loneWord_ownSignal h).busy]
  simp only [taken, runPegWord, wordEntry_word, hop, hdest, dispatched_ctx w h.1, ← hnode', Nat.one_ne_zero, Nat.reduceEqDiff, if_true, if_false]
  rfl

section

variable {x : State} (hop : wOp w = 0x38) (hdest : wf w 20 2 = 1) (hnode : wf w 64 16 ≠ a.salt.node)

include hop hdest hnode

/-- A signal to another node goes out. -/
theorem taken_psig_sent (hsent : remoteSignal a n w = (x, .sent)) : taken a n w = finished n x := by
  have hnode' : ¬wf w 64 16 = (dispatched a n w).salt.node := hnode
  have hlone : LoneWord x n := by simpa only [hsent] using loneWord_remoteSignal (w := w) h
  rw [remoteSignal] at hsent
  rw [← finished_eq hlone.busy]
  simp only [taken, runPegWord, wordEntry_word, hop, hdest, if_neg hnode', hsent, Nat.one_ne_zero, Nat.reduceEqDiff, if_false]

/-- A signal to another node that cannot go out is recorded. -/
theorem taken_psig_failed {st : Nat} (hfailed : remoteSignal a n w = (x, .failed st)) :
    taken a n w = finished n (psigRefused x n st (wf w 64 16) (wf w 8 12)) := by
  have hnode' : ¬wf w 64 16 = (dispatched a n w).salt.node := hnode
  have hlone : LoneWord x n := by simpa only [hfailed] using loneWord_remoteSignal (w := w) h
  rw [remoteSignal] at hfailed
  rw [← finished_eq (hlone.psigRefused n st (wf w 64 16) (wf w 8 12)).busy]
  simp only [taken, runPegWord, wordEntry_word, hop, hdest, if_neg hnode', hfailed, Nat.one_ne_zero, Nat.reduceEqDiff, if_false]

end

end

/-- A program row of a peg word whose checks pass: its unit takes it, and the core goes on. -/
theorem exec_pegWord {i : Instr} {c : CoreId} {w : W128} {s a : State} (hw : wordOf i = some (c, w)) (m : Meets s a) (h : Waiting a c)
    (hlo : 0x38 ≤ wOp w) (hhi : wOp w ≤ 0x3C) (hbad : pegBad a c w = 0) : exec i s = .next (pumpCore c 70 (taken a c w)) := by
  have hunit := unitOf_peg hlo (by omega)
  exact exec_steps hw m ⟨h, issueFault_peg _ hlo (by omega)⟩ (by omega) (by omega)
    (runEntry_peg hlo (show wOp w < 0x40 by omega) ((pegBad_dispatched w h.1).trans hbad))

/-- Settles O18: the peg unit takes the word (`exec_pegWord`), which leaves it at work at its home unit (`asked`) or executed (`finished`);
the core rests in both cases, whatever its own release as a waiter made of it. -/
theorem pegWords : Obligations.PegWords := by
  unfold Obligations.PegWords
  intro i c w s a hw m h hlo hhi hbad t ctx v busy post fin node
  rw [exec_pegWord hw m h hlo hhi hbad]
  refine ⟨fun hop hdest => ?psigLocal, fun hop hdest => ?psigHost, fun hop hdest hnode => ?psigOwn, fun hop hdest hnode => ?psigRemote,
    fun hop => ?pwait, fun hop => ?parrive, fun hop slot hslot => ?pbwait, fun hop => ?preset⟩
  case psigLocal =>
    rw [taken_psig_local h hop hdest, pump_asked h]
    rfl
  case psigHost =>
    rw [taken_psig_host h hop hdest, (loneWord_hostPegSignal (loneWord_dispatched w h) ..).pump_finished]
    rfl
  case psigOwn =>
    rw [taken_psig_own h hop hdest hnode, (loneWord_ownSignal h).pump_finished]
    rfl
  case psigRemote =>
    refine ⟨fun hsent => ?_, fun st hfailed => ?_⟩
    · rw [taken_psig_sent h hop hdest hnode (Prod.ext rfl hsent), (loneWord_remoteSignal h).pump_finished]
      rfl
    · rw [taken_psig_failed h hop hdest hnode (Prod.ext rfl hfailed), ((loneWord_remoteSignal h).psigRefused _ _ _ _).pump_finished]
      rfl
  case pwait =>
    rw [taken_pwait h hop, pump_asked h]
    rfl
  case parrive =>
    rw [taken_parrive h hop, pump_asked h]
    rfl
  case pbwait =>
    rw [taken_pbwait h hop hslot, pump_asked h]
    rfl
  case preset =>
    rw [taken_preset h hop, pump_asked h]
    rfl

end Sys2Proof.PegProgramWords

namespace Sys2Proof.PegRingCommands

open Sys2Proof Sys2Proof.Machine

/-! ### The operation of a peg command that starts (Table 14-7) -/

section

variable {i : Instr} {s t : State} {c : Nat} {k : Cmd}

/-- A command that starts bears the opcode of its row. -/
theorem op_of_starts {x : CtxId} {r : Cmd} (h : Starts i s t c k) (hrow : cmdRow i = some (x, r)) : k.op = r.op := by
  obtain ⟨y, r', hr', hop, -, -⟩ := starts_op h
  obtain ⟨-, rfl⟩ := Prod.mk.inj (Option.some.inj (hrow.symm.trans hr'))
  exact hop

/-- The ring goes on from what the start of a command makes of the block. -/
theorem exec_of_start {u : State} (h : Starts i s t c k) (hu : startByOp t c k = u) : exec i s = .next (ringStarts c 1 u) := by
  rw [starts_exec h, hu]

theorem startByOp_pegAlloc (hop : k.op = 0x60) (hact : k.fld 0 1 = 0) : startByOp t c k = startPegAlloc t c k := by
  simp only [startByOp, hop, hact]

theorem startByOp_pegFree (hop : k.op = 0x60) (hact : k.fld 0 1 = 1) : startByOp t c k = startPegFree t c k := by
  simp only [startByOp, hop, hact]

theorem startByOp_pegReset (hop : k.op = 0x60) (hact : k.fld 0 1 = 2) : startByOp t c k = startPegReset t c k := by
  simp only [startByOp, hop, hact]

theorem startByOp_pegSignal (hop : k.op = 0x61) : startByOp t c k = startPegSignal t c k := by
  simp only [startByOp, hop]

theorem startByOp_pegWait (hop : k.op = 0x62) : startByOp t c k = startPegWait t c k := by
  simp only [startByOp, hop]

theorem startByOp_pegDump (hop : k.op = 0x63) : startByOp t c k = startPegDump t c k := by
  simp only [startByOp, hop]

end

section

variable {s : State} {c : Nat} {k : Cmd}

/-! ### PEG_ALLOC (R250, R262) -/

/-- The pegs of a PEG_ALLOC: each VPID of its range with the free peg found for it. -/
def allotted (s : State) (k : Cmd) : List (Nat × Nat) :=
  (List.range (k.fld 4 2)).zip (scanFree s 262144 (k.fld 4 2) (if k.fld 0x0D 1 = 0xFF then 0 else k.fld 0x0D 1 * 2048))

/-- The record of a peg that a PEG_ALLOC maps. -/
def newPeg (c : Nat) (k : Cmd) (i : Nat) : Peg :=
  { mode := k.fld 1 1, value := k.fld 8 4, init := k.fld 8 4, parties := if k.fld 1 1 = 3 then k.fld 6 2 else 0, owner := c, vpid := k.fld 2 2 + i
    remote := bitsAt (k.fld 0x0C 1) 0 1 == 1, periodic := bitsAt (k.fld 0x0C 1) 1 1 == 1, nodeLo := k.fld 0x0E 2, nodeHi := k.fld 0x10 2 }

/-- The block with the pegs of a PEG_ALLOC mapped. -/
def mapped (s : State) (c : Nat) (k : Cmd) : State :=
  (allotted s k).foldl (fun s e => (s.setPeg e.2 (newPeg c k e.1)).modCtx c fun x => { x with vpids := tset x.vpids (k.fld 2 2 + e.1) e.2 }) s

/-- The fields of a PEG_ALLOC with ACTION 0 that R262 asks for. -/
structure AllocFields (k : Cmd) : Prop where
  range : pegRangeBad k = false
  modeLo : 1 ≤ k.fld 1 1
  modeHi : k.fld 1 1 ≤ 3
  flag : k.fld 1 1 = 2 → k.fld 8 4 ≤ 1
  parties : k.fld 1 1 = 3 → k.fld 6 2 ≠ 0
  home : k.fld 0x0D 1 < 128 ∨ k.fld 0x0D 1 = 0xFF
  nodes : k.fld 0x0E 2 ≤ k.fld 0x10 2

theorem startPegAlloc_good (hk : AllocFields k)
    (hfree : (countFrom (k.fld 2 2) (k.fld 4 2)).any (fun v => (vpidPhys s c v).isSome) = false)
    (hquota : (s.ctx c).vpids.length + k.fld 4 2 ≤ (s.ctx c).pegQuota) (hpool : k.fld 4 2 ≤ pegsFree s) :
    startPegAlloc s c k = settle (pegSwap (mapped s c k) c (countFrom (k.fld 2 2) (k.fld 4 2))) c k.aseq dDONE stOK (k.fld 4 2) := by
  obtain ⟨hrange, hlo, hhi, hflag, hparties, hhome, hnodes⟩ := hk
  refine (if_neg ?_).trans (if_neg (by omega))
  simp only [hrange, hfree, Bool.false_or, Bool.or_eq_true, Bool.and_eq_true, decide_eq_true_eq, beq_iff_eq, bne_iff_ne, not_or]
  omega

/-- PEG_ALLOC with ACTION 1 on a range that may be freed. -/
theorem startPegFree_good (h : pegRangeStatus s c k = stOK) :
    startPegFree s c k = settle (pegSwap (freePegs s c (countFrom (k.fld 2 2) (k.fld 4 2))) c (countFrom (k.fld 2 2) (k.fld 4 2)))
      c k.aseq dDONE stOK (k.fld 4 2) := if_neg (not_not.mpr h)

/-- The block with one VPID's peg back at INIT. -/
def resetPeg (c : Nat) (s : State) (v : Nat) : State := match vpidPhys s c v with
  | some p => s.setPeg p (s.peg p).resetTo
  | none => s

/-- PEG_ALLOC with ACTION 2 on a range that may be reset. -/
theorem startPegReset_good (h : pegRangeStatus s c k = stOK) :
    startPegReset s c k = settle (pegSwap ((countFrom (k.fld 2 2) (k.fld 4 2)).foldl (resetPeg c) s) c []) c k.aseq dDONE stOK (k.fld 4 2) :=
  if_neg (not_not.mpr h)

/-! ### PEG_SIGNAL (R256, R263) -/

/-- R256: a signal by VPID that is not mapped, or of an AMOUNT of 0, is discarded and counted. -/
theorem targetSignal_badParam {v n : Nat} {own : Bool} (g : Signaller) (h : vpidOk s c v = none ∨ n = 0) :
    targetSignal s c v n own g = (pegCount s 0x010 1, stBADPARAM) := by
  have hcheck : (signalCheck s c v n g.node own).1 = stBADPARAM := by
    unfold signalCheck
    split
    · rfl
    · next p hp =>
      rcases h with h | h
      · rw [h] at hp
        cases hp
      · simp [h]
  simp only [targetSignal, hcheck]
  exact if_neg (by decide)

/-- A VPID that names no peg has no record to read, and stays unmapped. -/
theorem vpidOk_none_or_zero {v n : Nat} (h : vpidOk s c v = none ∨ n = 0) : vpidOk (vpidRead s c v) c v = none ∨ n = 0 := by
  refine h.imp_left fun hnone => ?_
  rw [vpidRead, hnone]
  exact hnone

section

variable (hrsvd : parRsvd k [(0, 2), (4, 4)] = false) (hv : k.fld 0 2 ≤ 4095)

include hrsvd hv

/-- The signal of a PEG_SIGNAL at its target. -/
theorem startPegSignal_fields :
    let z := targetSignal (vpidRead s c (k.fld 0 2)) c (k.fld 0 2) (k.fld 4 4) true ⟨s.salt.node, 3, 0⟩
    startPegSignal s c k = if z.2 = stOK then settle z.1 c k.aseq dDONE stOK 0 else refuse z.1 c k.aseq z.2 :=
  if_neg (by simp [hrsvd]; omega)

end

/-! ### PEG_WAIT (R245, R264) -/

section

variable {t : State} {q : Nat} (ht : t = vpidRead s c (k.fld 0 2)) (hq : vpidOk t c (k.fld 0 2) = some q)
  (hrsvd : parRsvd k [(0, 3), (4, 8)] = false) (hv : k.fld 0 2 ≤ 4095) (hcon : k.fld 2 1 ≤ 1) (htime : k.fld 8 4 ≤ 10000000)
  (hthresh : (t.peg q).mode = 1 → k.fld 4 4 ≠ 0)

include ht hq hrsvd hv hcon htime hthresh

/-- A PEG_WAIT with good fields on a mapped VPID. -/
theorem startPegWait_fields : startPegWait s c k =
    if (t.peg q).poisoned = true then settle t c k.aseq dFAULTED stOWNERLOST 0
    else if 255 ≤ hostWaits (t.peg q) then refuse t c k.aseq stBUSY
    else applyWait t q { who := .host c k.aseq, k := k.fld 4 4, consume := k.fld 2 1 == 1, phases := (t.peg q).phases } := by
  subst ht
  simp only [startPegWait, hq]
  refine if_neg ?_
  simp only [hrsvd, Bool.false_or, Bool.or_eq_true, Bool.and_eq_true, decide_eq_true_eq, beq_iff_eq, not_or]
  omega

theorem startPegWait_poisoned (h : (t.peg q).poisoned = true) : startPegWait s c k = settle t c k.aseq dFAULTED stOWNERLOST 0 := by
  rw [startPegWait_fields ht hq hrsvd hv hcon htime hthresh, if_pos h]

theorem startPegWait_kept (h : (t.peg q).poisoned = false) (hroom : hostWaits (t.peg q) < 255) : startPegWait s c k =
    applyWait t q { who := .host c k.aseq, k := k.fld 4 4, consume := k.fld 2 1 == 1, phases := (t.peg q).phases } := by
  rw [startPegWait_fields ht hq hrsvd hv hcon htime hthresh, if_neg (ne_true_of_eq_false h), if_neg (by omega)]

end

/-! ### PEG_WAIT_TIMEOUT and PEG_DUMP (R264, R265) -/

/-- The wait that a PEG_WAIT_TIMEOUT ends. -/
def waitingCmd (s : State) (c aseq : Nat) : Option Cmd := (s.ctx c).cmds.find? fun k => k.aseq == aseq && k.op == 0x62 && k.started

theorem pegWaitTimeout_none {aseq : Nat} (h : waitingCmd s c aseq = none) : pegWaitTimeout s c aseq = s := by
  rw [waitingCmd] at h
  simp only [pegWaitTimeout, h]

/-- A wait whose time has passed leaves its peg and consumes nothing. -/
theorem pegWaitTimeout_expires {aseq : Nat} (h : waitingCmd s c aseq = some k) (htime : k.fld 8 4 ≠ 0) : pegWaitTimeout s c aseq =
    settle (dropWait { s with now := max s.now (k.at0 + k.fld 8 4 * 1000) } (.host c aseq)) c aseq dEXPIRED stEXPIRED 0 := by
  rw [waitingCmd] at h
  simp only [pegWaitTimeout, h, if_neg htime]
  rfl

/-- The context that a PEG_DUMP reads. -/
def dumpTarget (c : Nat) (k : Cmd) : Nat := if c = 0 then k.hdr.target else c

theorem startPegDump_good {u : State} (hrsvd : parRsvd k [(0, 4), (8, 8)] = false) (hsome : 1 ≤ k.fld 2 2)
    (hrange : k.fld 0 2 + k.fld 2 2 ≤ 4096) (hlive : (s.ctx (dumpTarget c k)).live = true) (hok : (s.ctx (dumpTarget c k)).faulted = false)
    (hput : putDest s c (dumpTarget c k) (k.fld 8 8) (dumpBytes s (dumpTarget c k) (k.fld 0 2) (k.fld 2 2)) false = .ok u) :
    startPegDump s c k = settle u c k.aseq dDONE stOK ((dumpBytes s (dumpTarget c k) (k.fld 0 2) (k.fld 2 2)).length / 64 - 1) := by
  have hfields : ¬(parRsvd k [(0, 4), (8, 8)] || k.fld 2 2 == 0 || decide (4096 < k.fld 0 2 + k.fld 2 2)
      || !(s.ctx (dumpTarget c k)).live) = true := by
    simp only [hrsvd, hlive, Bool.false_or, Bool.not_true, Bool.or_false, Bool.or_eq_true, decide_eq_true_eq, beq_iff_eq, not_or]
    omega
  rw [dumpTarget] at *
  simp only [startPegDump, hok, if_neg hfields, hput, Bool.false_eq_true, if_false]

end

/-- Settles O47: a command of a ring starts by its opcode and ACTION, and each start is a lemma about the operation; a PEG_WAIT_TIMEOUT is
one of the two cases of `pegWaitTimeout`. -/
theorem pegCommands : Obligations.PegCommands := by
  unfold Obligations.PegCommands
  intro c k s t x h p
  refine ⟨?alloc, fun hs hact hst => ?free, fun hs hact hst => ?reset, fun hs hrsvd hv => ?signal, fun hs hrsvd hv hbad => ?signalBad,
    fun t0 q hs ht hq hrsvd hv hcon htime hthresh => ?wait, fun a aseq m => ?timeout,
    fun u hs hrsvd hsome hrange hlive hok hput => ?dump⟩
  case alloc =>
    intro hs hact hrange hfree hlo hhi hflag hparties hhome hnodes hquota hpool
    exact exec_of_start hs ((startByOp_pegAlloc (op_of_starts hs rfl) hact).trans
      (startPegAlloc_good ⟨hrange, hlo, hhi, hflag, hparties, hhome, hnodes⟩ hfree hquota hpool))
  case free => exact exec_of_start hs ((startByOp_pegFree (op_of_starts hs rfl) hact).trans (startPegFree_good hst))
  case reset => exact exec_of_start hs ((startByOp_pegReset (op_of_starts hs rfl) hact).trans (startPegReset_good hst))
  case signal =>
    have hstart := (startByOp_pegSignal (t := t) (op_of_starts hs rfl)).trans (startPegSignal_fields (c := c) hrsvd hv)
    exact ⟨fun hst => exec_of_start hs (hstart.trans (if_pos hst)), fun hst => exec_of_start hs (hstart.trans (if_neg hst))⟩
  case signalBad =>
    have hstart := (startByOp_pegSignal (t := t) (op_of_starts hs rfl)).trans (startPegSignal_fields (c := c) hrsvd hv)
    rw [targetSignal_badParam _ (vpidOk_none_or_zero hbad)] at hstart
    exact exec_of_start hs (hstart.trans (if_neg (show stBADPARAM ≠ stOK by decide)))
  case wait =>
    have hstart := startByOp_pegWait (t := t0) (c := c) (op_of_starts hs rfl)
    exact ⟨fun hp => exec_of_start hs (hstart.trans (startPegWait_poisoned ht hq hrsvd hv hcon htime hthresh hp)),
      fun hp hroom => exec_of_start hs (hstart.trans (startPegWait_kept ht hq hrsvd hv hcon htime hthresh hp hroom))⟩
  case timeout =>
    rw [exec_pegWaitTimeout, run_meets m]
    exact ⟨fun hnone => congrArg (fun t => Host.Outcome.next (ringPump t x)) (pegWaitTimeout_none hnone),
      fun w hw htime => congrArg (fun t => Host.Outcome.next (ringPump t x)) (pegWaitTimeout_expires hw htime)⟩
  case dump =>
    exact exec_of_start hs ((startByOp_pegDump (op_of_starts hs rfl)).trans (startPegDump_good hrsvd hsome hrange hlive hok hput))

end Sys2Proof.PegRingCommands

namespace Sys2Proof.MessageRows

open Sys2Proof Sys2Proof.Machine Sys2Proof.FabricMessages

/-! ### The rows of the messages (Table 12-6) -/

/-- The types of Table 12-6 that have a row. -/
def rowTypes : List Nat := [1, 2, 3, 4, 5, 6, 7, 8, 0x21, 0x22, 0x23, 0x24, 0x25, 0x26]

/-- What a part that is on does with a message that arrives, by its type. -/
def messageRow (s : State) (p : Nat) (m : Msg) : State :=
  match m.mtype with
  | 1 => accessRow s p 1 m
  | 2 => accessRow s p 2 m
  | 3 => accessRow s p 3 m
  | 4 => signalRow s p m
  | 5 => trayPutRow s p m
  | 6 => updateRow s p m
  | 7 => creditRow s p m
  | 8 => mgmtRow s p m
  | 0x21 => rddataRow s p m
  | 0x23 => atomrespRow s p m
  | t => statusRow s p t m

section

variable {i : Instr} {p : PortId} {m : Msg} {s a : State}

/-- A row that runs as `messageRow` of its type. -/
theorem exec_next_of_run (hm : Meets s a) (t : Nat) (x : Msg) (ht : t ∈ rowTypes)
    (h : exec i s = run s fun s => messageRow s p { x with mtype := t }) :
    exec i s = .next (messageRow a p { x with mtype := t }) ∧ ({ x with mtype := t } : Msg).mtype ∈ rowTypes :=
  ⟨h.trans (run_meets hm _), ht⟩

/-- A row of a message is `messageRow` of the message with the row's type. -/
theorem exec_messageRow (hi : msgOf i = some (p, m)) (hm : Meets s a) : exec i s = .next (messageRow a p m) ∧ m.mtype ∈ rowTypes := by
  cases i
  case rd => obtain ⟨rfl, rfl⟩ := hi; exact exec_next_of_run hm 1 _ (by decide) (exec_rd ..)
  case wr => obtain ⟨rfl, rfl⟩ := hi; exact exec_next_of_run hm 2 _ (by decide) (exec_wr ..)
  case atomic => obtain ⟨rfl, rfl⟩ := hi; exact exec_next_of_run hm 3 _ (by decide) (exec_atomic ..)
  case signal => obtain ⟨rfl, rfl⟩ := hi; exact exec_next_of_run hm 4 _ (by decide) (exec_signal ..)
  case trayPut => obtain ⟨rfl, rfl⟩ := hi; exact exec_next_of_run hm 5 _ (by decide) (exec_trayPut ..)
  case update => obtain ⟨rfl, rfl⟩ := hi; exact exec_next_of_run hm 6 _ (by decide) (exec_update ..)
  case credit => obtain ⟨rfl, rfl⟩ := hi; exact exec_next_of_run hm 7 _ (by decide) (exec_credit ..)
  case mgmt => obtain ⟨rfl, rfl⟩ := hi; exact exec_next_of_run hm 8 _ (by decide) (exec_mgmt ..)
  case rddata => obtain ⟨rfl, rfl⟩ := hi; exact exec_next_of_run hm 0x21 _ (by decide) (exec_rddata ..)
  case wrack => obtain ⟨rfl, rfl⟩ := hi; exact exec_next_of_run hm 0x22 _ (by decide) (exec_wrack ..)
  case atomresp => obtain ⟨rfl, rfl⟩ := hi; exact exec_next_of_run hm 0x23 _ (by decide) (exec_atomresp ..)
  case sigack => obtain ⟨rfl, rfl⟩ := hi; exact exec_next_of_run hm 0x24 _ (by decide) (exec_sigack ..)
  case trayAck => obtain ⟨rfl, rfl⟩ := hi; exact exec_next_of_run hm 0x25 _ (by decide) (exec_trayAck ..)
  case updack => obtain ⟨rfl, rfl⟩ := hi; exact exec_next_of_run hm 0x26 _ (by decide) (exec_updack ..)
  all_goals cases hi

end

/-! ### Where a message goes (R272, R284, R287, R309) -/

section

variable {s : State} {p q : Nat} {m : Msg}

theorem onArrival_forwarded (h : State → State) (ha : arrival s p m = .forwarded q) :
    onArrival s p m h = transmit (creditBack s p m) q { m with transit := true } := by
  simp only [onArrival, ha]

theorem onArrival_refused (h : State → State) (ha : arrival s p m = .refused) : onArrival s p m h =
    if isRequest m.mtype then respond (countRoute (creditBack s p m) m) m stNOROUTE else countRoute (creditBack s p m) m := by
  simp only [onArrival, ha]

theorem onArrival_dropped (h : State → State) (ha : arrival s p m = .dropped) : onArrival s p m h = creditBack s p m := by
  simp only [onArrival, ha]

/-- R285: a message counts where no port leads to its node. -/
theorem countRoute_eq (s : State) (m : Msg) :
    countRoute s m = if routePort s m.dst = none then s.modSalt fun x => { x with noroute := x.noroute + 1 } else s := by
  simp only [countRoute, Option.isNone_iff_eq_none]

/-- R216: only an UPDATE of this chip is left with its sender. -/
theorem updateRow_elsewhere (ha : arrival s p { m with mtype := 6 } ≠ .mine) :
    updateRow s p m = onArrival s p { m with mtype := 6 } fun t => targetUpdate t p { m with mtype := 6 } :=
  if_neg fun h => ha h.1

/-- A message of another node is handled by its place alone. -/
theorem messageRow_elsewhere (ht : m.mtype ∈ rowTypes) (ha : arrival s p m ≠ .mine) : ∃ h, messageRow s p m = onArrival s p m h := by
  obtain ⟨t⟩ := m
  simp only [rowTypes, List.mem_cons, List.not_mem_nil, or_false] at ht
  rcases ht with rfl | rfl | rfl | rfl | rfl | rfl | rfl | rfl | rfl | rfl | rfl | rfl | rfl | rfl
  case inr.inr.inr.inr.inr.inl => exact ⟨_, updateRow_elsewhere ha⟩
  all_goals
    simp only [messageRow, accessRow, signalRow, trayPutRow, creditRow, mgmtRow, rddataRow, atomrespRow, statusRow, response]
    exact ⟨_, rfl⟩

/-- R287, R309: what forwards a message. -/
theorem arrival_forwarded_iff : arrival s p m = .forwarded q ↔ 2 ≤ (s.port p).state ∧ m.mtype ≠ 8 ∧ portCarries s p = true ∧ m.dst ≠ s.salt.node
    ∧ (s.port p).version ≠ 1 ∧ (s.port q).version ≠ 1 ∧ routePort s m.dst = some q ∧ (tget {} s.salt.routes m.dst : Route).valid = true
    ∧ (tget {} s.salt.routes m.dst : Route).transitOk = true ∧ m.transit = false ∧ q ≠ p := by
  constructor
  · intro h
    unfold arrival at h
    split at h
    · cases h
    split at h
    · cases h
    split at h
    · cases h
    split at h
    · cases h
    · next hup hmgmt hcarry hnode =>
      simp only [Bool.or_eq_true, Bool.not_eq_true', not_or, Bool.not_eq_false] at hcarry
      split at h
      · next r hr =>
        dsimp only at h
        split at h
        · next hgo =>
          cases h
          simp only [Bool.and_eq_true, bne_iff_ne, Bool.not_eq_true'] at hgo
          obtain ⟨⟨⟨⟨⟨hvalid, htransit⟩, hfresh⟩, hport⟩, hver⟩, hver'⟩ := hgo
          exact ⟨by omega, hmgmt, hcarry.1, hnode, hver, hver', hr, hvalid, htransit, hfresh, hport⟩
        · cases h
      · cases h
  · rintro ⟨hup, hmgmt, hcarry, hnode, hver, hver', hr, hvalid, htransit, hfresh, hport⟩
    have hup' : ¬(s.port p).state < 2 := by omega
    simp [arrival, *]

end

/-- Settles O33: a message of another node is handled by its place alone (`messageRow_elsewhere`), and where it goes on is
`arrival_forwarded_iff`. -/
theorem fabricForward : Obligations.FabricForward := by
  unfold Obligations.FabricForward
  intro i p m s a hi hm b c
  obtain ⟨hexec, ht⟩ := exec_messageRow hi hm
  refine ⟨fun q ha => ?forwarded, fun ha => ?refused, fun ha => ?dropped, fun q => arrival_forwarded_iff⟩
  all_goals obtain ⟨h, hrow⟩ := messageRow_elsewhere ht (by rw [ha]; simp)
  case forwarded => rw [hexec, hrow, onArrival_forwarded h ha]
  case refused => rw [hexec, hrow, onArrival_refused h ha, countRoute_eq]
  case dropped => rw [hexec, hrow, onArrival_dropped h ha]

end Sys2Proof.MessageRows

namespace Sys2Proof.FabricAccesses

open Sys2Proof Sys2Proof.Machine Sys2Proof.FabricMessages Sys2Proof.MessageRows

section

variable {s : State} {p : Nat} {m : Msg}

/-- RD, WR and ATOMIC of this chip are handled at their target. -/
theorem messageRow_access (ht : m.mtype ∈ rowTypes) (hle : m.mtype ≤ 3) (hmine : arrival s p m = .mine) :
    messageRow s p m = targetAccess (creditBack s p m) p m := by
  rw [← onArrival_mine (fun t => targetAccess t p m) hmine]
  obtain ⟨t⟩ := m
  have hrow : t = 1 ∨ t = 2 ∨ t = 3 := by
    simp only [rowTypes, List.mem_cons, List.not_mem_nil, or_false] at ht
    dsimp only at hle
    omega
  rcases hrow with rfl | rfl | rfl <;> rfl

/-! ### The checks of an access (R276, R279, R291, R292) -/

theorem targetAccess_malformed (hbad : accessBad m = true) : targetAccess s p m = respond s m stBADPARAM := if_pos hbad

section

variable (hgood : accessBad m = false)

include hgood

theorem targetAccess_noWindow (h : inRegs m.addr (msgSpan m) = true ∨ windowOk s p m = false) :
    targetAccess s p m = respond (s.modSalt fun x => { x with winref := x.winref + 1 }) m stWINDOW := by
  have hwin : (inRegs m.addr (msgSpan m) || !windowOk s p m) = true := by simpa using h
  rw [targetAccess, if_neg (ne_true_of_eq_false hgood), if_pos hwin]

variable (hregs : inRegs m.addr (msgSpan m) = false) (hwin : windowOk s p m = true)

include hregs hwin

theorem targetAccess_passed : targetAccess s p m = passedAccess s p m s.salt.swaps := by
  rw [targetAccess, if_neg (ne_true_of_eq_false hgood), if_neg (by simp [hregs, hwin])]

/-- An access that no line of the host touches is served. -/
theorem targetAccess_served (h : snoopedLines s m.addr (msgSpan m) = []) : targetAccess s p m = serveAccess s m := by
  rw [targetAccess_passed hgood hregs hwin, passedAccess, h]

/-- R324: an access of lines that the host may hold is held for its snoops. -/
theorem targetAccess_held (h : snoopedLines s m.addr (msgSpan m) ≠ []) : targetAccess s p m =
    (sendSnoops s (snoopedLines s m.addr (msgSpan m))).modSalt fun x => { x with snoopHeld := x.snoopHeld ++ [(p, m, s.salt.swaps)] } := by
  rw [targetAccess_passed hgood hregs hwin, passedAccess]
  split
  · contradiction
  · rfl

end

/-! ### The service of an access (R280, R283) -/

theorem serveAccess_wr (ht : m.mtype = 2) : serveAccess s m = respond (writeMem s m.addr m.words m.poison) m stOK := by
  simp [serveAccess, ht]

theorem serveAccess_rd (ht : m.mtype = 1) : serveAccess s m = serveRd s m := if_pos ht

theorem applyAtomic_good {addr : Nat} (aop w cmp : Nat) (h : isPoisoned s addr 8 = false) :
    applyAtomic s addr aop w cmp = (writeLE s addr 8 (atomicOp aop (readLE s addr 8) w cmp), readLE s addr 8, stOK) :=
  if_neg (ne_true_of_eq_false h)

theorem applyAtomic_poisoned {addr : Nat} (aop w cmp : Nat) (h : isPoisoned s addr 8 = true) :
    applyAtomic s addr aop w cmp = (noteBad s addr 8, 0, stUNCORR) := if_pos h

section

variable (ht : m.mtype = 3)

include ht

theorem serveAccess_atomic_good (h : isPoisoned s m.addr 8 = false) : serveAccess s m = sendRsp
    (writeLE s m.addr 8 (atomicOp m.aop (readLE s m.addr 8) m.arg (leNat (m.words.take 8)))) { (rspMsg s m stOK) with arg := readLE s m.addr 8 } := by
  simp [serveAccess, ht, applyAtomic_good _ _ _ h]

theorem serveAccess_atomic_poisoned (h : isPoisoned s m.addr 8 = true) :
    serveAccess s m = sendRsp (noteBad s m.addr 8) { (rspMsg s m stUNCORR) with arg := 0 } := by
  simp [serveAccess, ht, applyAtomic_poisoned _ _ _ h]

end

end

/-- Settles O30: a message of this chip is handled at its target behind `creditBack` (`messageRow_access`), where its checks either refuse
it, hold it for snoops or let it be served. -/
theorem fabricAccess : Obligations.FabricAccess := by
  unfold Obligations.FabricAccess
  intro i p m s a hi hle hm hmine b
  obtain ⟨hexec, ht⟩ := exec_messageRow hi hm
  rw [hexec, messageRow_access ht hle hmine]
  refine ⟨fun hbad => congrArg _ (targetAccess_malformed hbad), fun hgood hwin => congrArg _ (targetAccess_noWindow hgood hwin),
    fun hgood hregs hwin hsnoop => ?served, fun hgood hregs hwin hsnoop => congrArg _ (targetAccess_held hgood hregs hwin hsnoop)⟩
  rw [targetAccess_served hgood hregs hwin hsnoop]
  refine ⟨fun ht => congrArg _ (serveAccess_wr ht), fun ht hp => congrArg _ (serveAccess_atomic_good ht hp),
    fun ht hp => congrArg _ (serveAccess_atomic_poisoned ht hp), fun ht => congrArg _ (serveAccess_rd ht)⟩

end Sys2Proof.FabricAccesses

namespace Sys2Proof.FabricResponses

open Sys2Proof Sys2Proof.Machine Sys2Proof.FabricMessages Sys2Proof.MessageRows

section

variable {s : State} {p : Nat} {m : Msg}

/-! ### MGMT (R276, Table 17-9) -/

/-- R276: MGMT is not routed, so that every port which is up takes it. -/
theorem arrival_mgmt (hup : 2 ≤ (s.port p).state) : arrival s p { m with mtype := 8 } = .mine := by
  rw [arrival, if_neg (by omega), if_pos rfl]

/-- A CODE that Table 17-9 does not list. -/
theorem mgmtRow_unlisted (hup : 2 ≤ (s.port p).state) (hrsvd : m.rsvd = false) (hcode : m.arg % 256 ∉ [0x01, 0x02, 0x03, 0x04, 0x10]) :
    mgmtRow s p m = creditBack s p { m with mtype := 8 } := by
  rw [mgmtRow, onArrival_mine _ (arrival_mgmt hup)]
  refine (if_neg (ne_true_of_eq_false hrsvd)).trans ?_
  dsimp only
  split
  case h_6 => rfl
  all_goals simp [*] at hcode

/-! ### Responses (R278, R280, R281) -/

section

variable (hmine : arrival s p m = .mine)

include hmine

/-- A response of this chip that no outstanding request awaits. -/
theorem response_late (h : State → OutReq → State) (hnone : outOf (creditBack s p m) p m = none) :
    response s p m.mtype m h = (creditBack s p m).modSalt fun x => { x with late := x.late + 1 } := by
  simp only [response, onArrival_mine _ hmine, hnone]

/-- A response of this chip to an outstanding request. -/
theorem response_matched (h : State → OutReq → State) {o : OutReq} (hsome : outOf (creditBack s p m) p m = some o) :
    response s p m.mtype m h = h (creditBack s p m) o := by
  simp only [response, onArrival_mine _ hmine, hsome]

end

section

variable (ht : m.mtype ∈ rowTypes) (hrsp : 0x21 ≤ m.mtype)

include ht hrsp

theorem responseTypes : m.mtype = 0x21 ∨ m.mtype = 0x22 ∨ m.mtype = 0x23 ∨ m.mtype = 0x24 ∨ m.mtype = 0x25 ∨ m.mtype = 0x26 := by
  simp only [rowTypes, List.mem_cons, List.not_mem_nil, or_false] at ht
  omega

/-- The row of every response looks for its request. -/
theorem messageRow_response : ∃ h, messageRow s p m = response s p m.mtype m h := by
  have htype := responseTypes ht hrsp
  obtain ⟨t⟩ := m
  dsimp only at htype
  rcases htype with rfl | rfl | rfl | rfl | rfl | rfl
  all_goals
    simp only [messageRow, rddataRow, atomrespRow, statusRow]
    exact ⟨_, rfl⟩

/-- WRACK, SIGACK, TRAY_ACK and UPDACK bear a status alone. -/
theorem messageRow_status (hother : m.mtype ∉ [0x21, 0x23]) : messageRow s p m = statusRow s p m.mtype m := by
  have htype := responseTypes ht hrsp
  simp only [List.mem_cons, List.not_mem_nil, or_false, not_or] at hother
  obtain ⟨t⟩ := m
  dsimp only at htype hother
  rcases htype with rfl | rfl | rfl | rfl | rfl | rfl
  case inl => exact absurd rfl hother.1
  case inr.inr.inl => exact absurd rfl hother.2
  all_goals rfl

end

theorem messageRow_rddata (ht : m.mtype = 0x21) : messageRow s p m = rddataRow s p m := by
  simp only [messageRow, ht]

theorem messageRow_atomresp (ht : m.mtype = 0x23) : messageRow s p m = atomrespRow s p m := by
  simp only [messageRow, ht]

section

variable {o : OutReq} (hmine : arrival s p m = .mine) (hsome : outOf (creditBack s p m) p m = some o)

include hmine hsome

/-- R280: a refused read, a part of its words, or the last part. -/
theorem rddataRow_matched (ht : m.mtype = 0x21) : rddataRow s p m =
    let b := creditBack s p m
    if m.status ≠ stOK ∧ m.status ≠ stUNCORR then outDone (dropOut b o) o m.status
    else if o.got + (m.len + 1) ≥ o.msg.len + 1 then outDone (dropOut (partIn b o m) o) o stOK
    else (partIn b o m).modSalt fun x => { x with outs := modFirst (fun q => q == o) (fun q => { q with got := q.got + (m.len + 1) }) x.outs } := by
  rw [rddataRow, ← ht, response_matched hmine _ hsome]

/-- R283, R301: the old value of an atomic goes to SRC of its descriptor. -/
theorem atomrespRow_matched (ht : m.mtype = 0x23) {n v k j loc piece : Nat} (hsrc : o.src = .mover n v k j loc piece)
    (hlive : (((creditBack s p m).ring n v k).desc j).isSome = true) (hst : m.status = stOK ∨ m.status = stUNCORR) :
    atomrespRow s p m =
      outDone (dropOut (writeMem (creditBack s p m) (gAddr loc) (leBytes 8 m.arg) (m.status == stUNCORR)) o) o m.status := by
  rw [atomrespRow, ← ht, response_matched hmine _ hsome]
  have hread : (m.status == stOK || m.status == stUNCORR) = true := by simpa using hst
  simp only [hsrc, hlive, hread, Bool.and_self, if_true]

end

end

/-- Settles O32: a MGMT is always this chip's (`arrival_mgmt`), and a response finds its request or counts late (`response_matched`,
`response_late`). -/
theorem fabricAnswers : Obligations.FabricAnswers := by
  unfold Obligations.FabricAnswers
  refine ⟨?mgmt, ?responses⟩
  case mgmt =>
    intro p m s a hm hup hrsvd b field
    rw [exec_mgmt, run_meets hm]
    refine ⟨?_, ?_, ?_, ?_, ?_, fun hcode => congrArg _ (mgmtRow_unlisted hup hrsvd hcode)⟩
    all_goals
      intro hcode
      rw [mgmtRow, onArrival_mine _ (arrival_mgmt hup)]
      simp only [hrsvd, hcode, Bool.false_eq_true, if_false]
      rfl
  case responses =>
    intro i p m s a hi hrsp hm hmine b
    obtain ⟨hexec, ht⟩ := exec_messageRow hi hm
    rw [hexec]
    refine ⟨fun hnone => ?late, fun o hsome => ⟨fun hother => ?status, fun hrd hst hst' => ?refused, fun hrd hst => ?part,
      fun hat n v k j loc piece hsrc hlive => ?atomic⟩⟩
    case late =>
      obtain ⟨h, hrow⟩ := messageRow_response (s := a) (p := p) ht hrsp
      rw [hrow, response_late hmine h hnone]
    case status => rw [messageRow_status ht hrsp hother, statusRow, response_matched hmine _ hsome]
    case refused =>
      rw [messageRow_rddata hrd, rddataRow_matched hmine hsome hrd]
      exact congrArg _ (if_pos ⟨hst, hst'⟩)
    case part =>
      rw [messageRow_rddata hrd, rddataRow_matched hmine hsome hrd]
      have hread : ¬(m.status ≠ stOK ∧ m.status ≠ stUNCORR) := fun h => hst.elim h.1 h.2
      exact ⟨fun hlast => congrArg _ ((if_neg hread).trans (if_pos hlast)),
        fun hmore => congrArg _ ((if_neg hread).trans (if_neg (by omega)))⟩
    case atomic =>
      rw [messageRow_atomresp hat]
      refine ⟨fun hst => ?_, fun hst => ?_⟩
      · rw [atomrespRow_matched hmine hsome hat hsrc hlive (.inl hst), hst]
        rfl
      · rw [atomrespRow_matched hmine hsome hat hsrc hlive (.inr hst), hst]
        rfl

/-! ### Timeouts and held messages (R281, R286) -/

section

variable {s : State}

theorem rspTimeout_none {p tag : Nat} (h : (s.salt.outs.find? fun o => o.port == p && o.tag == tag) = none) : rspTimeout s p tag = s := by
  simp only [rspTimeout, h]

theorem rspTimeout_some {p tag : Nat} {o : OutReq} (h : (s.salt.outs.find? fun o => o.port == p && o.tag == tag) = some o) :
    rspTimeout s p tag = outDone (dropOut (reach s (o.at0 + s.salt.rspTimeout * 1000)) o) o stLINK := by
  simp only [rspTimeout, h]

/-- R286: a hold ends once no request to its node is outstanding. -/
theorem routeHoldRelease_ends {node : Nat} (hheld : s.salt.heldNodes.contains node = true) (hdone : ∀ o ∈ s.salt.outs, o.msg.dst ≠ node) :
    routeHoldRelease s node = (s.salt.held.filter (fun e => e.1.dst == node)).foldl sendHeld (s.modSalt fun x =>
      { x with heldNodes := x.heldNodes.filter (· != node), held := x.held.filter (fun e => e.1.dst != node) }) := by
  have hout : (s.salt.outs.any fun o => o.msg.dst == node) = false := by simpa using hdone
  refine if_neg ?_
  rw [hheld, hout]
  decide

theorem routeHoldRelease_waits {node : Nat} (h : s.salt.heldNodes.contains node = false ∨ ∃ o ∈ s.salt.outs, o.msg.dst = node) :
    routeHoldRelease s node = s := by
  refine if_pos ?_
  rcases h with h | ⟨o, ho, hdst⟩
  · rw [h]
    rfl
  · rw [Bool.or_eq_true, List.any_eq_true]
    exact .inr ⟨o, ho, by simp [hdst]⟩

end

/-- Settles O34: each row is one of the two cases of its operation. -/
theorem fabricWaits : Obligations.FabricWaits := by
  unfold Obligations.FabricWaits
  intro s a hm
  simp only [exec_rspTimeout, exec_routeHoldRelease, run_meets hm]
  exact ⟨fun p tag hnone => congrArg _ (rspTimeout_none hnone), fun p tag o hsome => congrArg _ (rspTimeout_some hsome),
    fun node hheld hdone => congrArg _ (routeHoldRelease_ends hheld hdone), fun node h => congrArg _ (routeHoldRelease_waits h)⟩

end Sys2Proof.FabricResponses

namespace Sys2Proof.LinkPorts

open Sys2Proof Sys2Proof.Machine

section

variable {s : State} {p : Nat}

/-! ### Frames (R273, R274) -/

section

variable (hup : 2 ≤ (s.port p).state)

include hup

theorem frameIn_badCrc (kind fseq fack fixed bad : Nat) : frameIn s p kind fseq fack false fixed bad =
    s.setPort p ({ (s.port p) with fec := (s.port p).fec + fixed, crcCtr := (s.port p).crcCtr + 1 } : Port).askReplay := by
  rw [frameIn, if_neg (by omega)]
  rfl

/-- A frame that carries nothing only acknowledges. -/
theorem frameIn_empty (fseq fack fixed bad : Nat) : frameIn s p 0 fseq fack true fixed bad =
    s.setPort p (({ (s.port p) with fec := (s.port p).fec + fixed, groupAge := (s.port p).groupAge + 1 } : Port).acked fack) := by
  rw [frameIn, if_neg (by omega)]
  rfl

section

variable {kind : Nat} (hkind : kind ≠ 0)

include hkind

theorem frameIn_outOfSequence {fseq : Nat} (fack fixed bad : Nat) (hseq : fseq ≠ (s.port p).rxSeq) :
    frameIn s p kind fseq fack true fixed bad
      = s.setPort p (({ (s.port p) with fec := (s.port p).fec + fixed } : Port).acked fack).askReplay := by
  rw [frameIn, if_neg (by omega)]
  exact (if_neg (by decide)).trans ((if_neg hkind).trans (if_pos hseq))

/-- The expected frame of a port that is not encrypted is taken. -/
theorem frameIn_expected (fack fixed bad : Nat) (hplain : (s.port p).encrypt = false) :
    let y := ({ (s.port p) with fec := (s.port p).fec + fixed } : Port).acked fack
    frameIn s p kind (s.port p).rxSeq fack true fixed bad
      = (s.setPort p { y with rxSeq := ((s.port p).rxSeq + 1) % 1024, rxb := (s.port p).rxb + 256, asked := false, groupAge := y.groupAge + 1 }).modSalt
          fun v => { v with badmsg := v.badmsg + bad } := by
  rw [frameIn, if_neg (by omega)]
  refine (if_neg (by decide)).trans ((if_neg hkind).trans ((if_neg (not_not.mpr rfl)).trans ?_))
  simp only [hplain, Bool.false_and, Bool.false_eq_true, if_false]

end

theorem replayRow_up (fseq : Nat) : replayRow s p fseq = replayFrom s p fseq := if_neg (by omega)

theorem linkCredit_up {vc : Nat} (hdrs flits : Nat) (hvc : vc < 4) : linkCredit s p vc hdrs flits = s.modPort p fun x =>
    ({ x with crHdr := tput 0 x.crHdr vc (tget 0 x.crHdr vc + hdrs), crData := tput 0 x.crData vc (tget 0 x.crData vc + flits) } : Port).drain :=
  if_neg (by omega)

theorem trainRow_up (r : TrainRec) : trainRow s p r = s.modPort p fun x => { x with peer := r.node, transit := r.transit, peerEnc := r.encrypt } :=
  if_neg (by omega)

theorem linkTraining_up (r : TrainResult) : linkTraining s p r = s := if_pos hup

theorem retrainRow_up (r : TrainResult) : retrainRow s p r = retrainPort s p r := if_neg (by omega)

/-- R275: the port tells its peer, and trains again. -/
theorem portRetrain_must (r : TrainResult) (h : mustRetrain s (s.port p) = true) :
    portRetrain s p r = retrainPort (sendControl s p .retrain) p r := if_neg (by rw [h]; simp; omega)

end

theorem portRetrain_needless (r : TrainResult) (h : mustRetrain s (s.port p) = false) : portRetrain s p r = s := if_pos (by simp [h])

/-! ### A port that is down -/

section

variable (hdown : (s.port p).state < 2)

include hdown

theorem frameIn_down (kind fseq fack : Nat) (ok : Bool) (fixed bad : Nat) : frameIn s p kind fseq fack ok fixed bad = s := if_pos hdown

theorem replayRow_down (fseq : Nat) : replayRow s p fseq = s := if_pos hdown

theorem linkCredit_down (vc hdrs flits : Nat) : linkCredit s p vc hdrs flits = s := if_pos (.inl hdown)

theorem trainRow_down (r : TrainRec) : trainRow s p r = s := if_pos hdown

theorem retrainRow_down (r : TrainResult) : retrainRow s p r = s := if_pos hdown

theorem portRetrain_down (r : TrainResult) : portRetrain s p r = s := if_pos (.inl hdown)

theorem linkTraining_down (r : TrainResult) : linkTraining s p r = trainPort s p r := if_neg (by omega)

end

/-! ### Encrypted groups (R464, R465) -/

section

variable (henc : (s.port p).encrypt = true) (hgroup : (s.port p).groupN ≠ 0)

include henc hgroup

/-- R464: the tag of the current group. -/
theorem tagRecord_current {fseq : Nat} (epoch ok : Bool) (hseq : (s.port p).groupSeq = fseq) : tagRecord s p epoch fseq ok =
    if ok then s.modPort p fun x => { x with groupsRx := x.groupsRx + 1, groupN := 0, groupAge := 0, epochRx := epoch } else groupFail s p :=
  if_neg (by simp [henc, hgroup, hseq])

/-- R465: the tag did not come within the next 64 frames. -/
theorem tagTimeout_late (h : 64 ≤ (s.port p).groupAge) : tagTimeout s p = groupFail s p := if_pos (by simp [henc, hgroup, h])

end

end

/-- Settles O35: a frame is one of the four cases of `frameIn`, and every other row is one case of its operation. -/
theorem linkFrames : Obligations.LinkFrames := by
  unfold Obligations.LinkFrames
  intro p s a hm
  simp only [exec_frameReceive, exec_replay, exec_linkCredit, exec_tag, exec_tagTimeout, exec_train, exec_retrain, exec_portRetrain, run_meets hm]
  refine ⟨fun kind fseq fack fixed bad hup => ?frames, fun fseq hup => congrArg _ (replayRow_up hup fseq),
    fun vc hdrs flits hup hvc => congrArg _ (linkCredit_up hup hdrs flits hvc), fun epoch fseq henc hgroup hseq => ?tags, fun hdown => ?down⟩
  case frames =>
    refine ⟨congrArg _ (frameIn_badCrc hup ..), fun hkind => congrArg _ ?_, fun hkind hseq => congrArg _ (frameIn_outOfSequence hup hkind fack fixed bad hseq),
      fun hkind hseq hplain => congrArg _ ?_⟩
    · subst hkind
      exact frameIn_empty hup ..
    · subst hseq
      exact frameIn_expected hup hkind fack fixed bad hplain
  case tags =>
    exact ⟨congrArg _ (tagRecord_current henc hgroup epoch true hseq), congrArg _ (tagRecord_current henc hgroup epoch false hseq),
      fun hage => congrArg _ (tagTimeout_late henc hgroup hage)⟩
  case down =>
    exact ⟨fun kind fseq fack ok fixed bad => congrArg _ (frameIn_down hdown ..), fun fseq => congrArg _ (replayRow_down hdown _),
      fun vc h f => congrArg _ (linkCredit_down hdown ..), fun r => congrArg _ (trainRow_down hdown r),
      fun r => congrArg _ (retrainRow_down hdown r), fun r => congrArg _ (portRetrain_down hdown r)⟩

/-! ### What a training negotiates (R270, R271) -/

/-- The state of a port's link, the version that it speaks and the lanes that it runs on. -/
def linkOf (x : Port) : Nat × Nat × Nat := (x.state, x.version, x.lanes)

theorem linkOf_push (x : Port) (b : TxBody) : linkOf (x.push b) = linkOf x := by
  unfold Port.push
  split <;> rfl

theorem linkOf_pushes (x : Port) (l : List TxBody) : linkOf (l.foldl Port.push x) = linkOf x :=
  List.foldlRecOn (motive := fun y => linkOf y = linkOf x) l Port.push rfl fun _ hy b _ => (linkOf_push _ b).trans hy

theorem linkOf_sendGroup (x : Port) (l : List TxBody) : linkOf (x.sendGroup l) = linkOf x := (linkOf_push _ _).trans (linkOf_pushes x l)

theorem linkOf_sendGroups (x : Port) (l : List (List TxBody)) : linkOf (l.foldl Port.sendGroup x) = linkOf x :=
  List.foldlRecOn (motive := fun y => linkOf y = linkOf x) l Port.sendGroup rfl fun _ hy b _ => (linkOf_sendGroup _ b).trans hy

/-- Bodies that go out as frames, in groups on an encrypted port. -/
theorem linkOf_bodies (x : Port) (l : List TxBody) :
    linkOf (if x.encrypt then (chunks 15 l.length l).foldl Port.sendGroup x else l.foldl Port.push x) = linkOf x := by
  split
  · exact linkOf_sendGroups x _
  · exact linkOf_pushes x l

theorem linkOf_frames (x : Port) (m : Msg) : linkOf (x.frames m) = linkOf x := by
  unfold Port.frames
  dsimp only
  split
  · exact linkOf_bodies x _
  · exact linkOf_bodies { x with stream := (x.stream + 1) % 1024 } _

theorem linkOf_send (x : Port) (m : Msg) : linkOf (x.send m) = linkOf x := by
  unfold Port.send
  split
  · exact linkOf_frames _ m
  · rfl

/-- What goes out as credit comes does not change the link. -/
theorem linkOf_drain (x : Port) : linkOf x.drain = linkOf x :=
  List.foldlRecOn (motive := fun y => linkOf y = linkOf x) x.waitq (fun x m => x.send m) rfl fun _ hy m _ => (linkOf_send _ m).trans hy

/-- R270: with every lane good, both ends at version 2 and no encryption required, the link comes up on all four lanes at version 2. -/
theorem trainedPort_full {s : State} {p : Nat} {r : TrainResult} (hlanes : lanesUsed r.lanesOk = 15) (hlocked : r.locked = true)
    (hver : r.peer.versions = 3) (hreq : s.ident.require.testBit p = false) : linkOf (trainedPort s p r) = (2, 2, 15) := by
  have hpassed : lanesUsed (passedLanes (ownTrain s p) r) = 15 := by
    unfold passedLanes
    split
    · rfl
    · exact hlanes
  simp only [trainedPort, hpassed, hlocked, hver, hreq, Bool.false_and, Bool.false_eq_true, if_false]
  exact linkOf_drain _

/-- Settles O36: a row of the training is one case of its operation, by the state of its port; what a full training gives is
`trainedPort_full`. -/
theorem linkTraining : Obligations.LinkTraining := by
  unfold Obligations.LinkTraining
  intro p s a hm
  simp only [exec_train, exec_linkTraining, exec_retrain, exec_portRetrain, exec_portDown, run_meets hm]
  refine ⟨fun r hup => congrArg _ (trainRow_up hup r), fun r hdown => congrArg _ (linkTraining_down hdown r), fun r hup => ?retrain,
    fun hport => congrArg _ (if_neg hport), fun r hlanes hlocked hver hreq => ?trained⟩
  case retrain =>
    exact ⟨congrArg _ (linkTraining_up hup r), congrArg _ (retrainRow_up hup r), fun hmust => congrArg _ (portRetrain_must hup r hmust),
      fun hmust => congrArg _ (portRetrain_needless r hmust)⟩
  case trained =>
    have hlink := trainedPort_full hlanes hlocked hver hreq
    simp only [linkOf, Prod.mk.injEq] at hlink
    exact hlink

end Sys2Proof.LinkPorts

namespace Sys2Proof.PlatformRingCommands

open Sys2Proof Sys2Proof.Machine Sys2Proof.PegRingCommands

/-! ### The operation of a platform command that starts (Table 14-7) -/

section

variable {t : State} {c : Nat} {k : Cmd}

theorem startByOp_windowOpen (hop : k.op = 0x70) : startByOp t c k = startWindowOpen t c k := by
  simp only [startByOp, hop]

theorem startByOp_windowClose (hop : k.op = 0x71) : startByOp t c k = startWindowClose t c k := by
  simp only [startByOp, hop]

theorem startByOp_routeSet (hop : k.op = 0x72) : startByOp t c k = startRouteSet t c k := by
  simp only [startByOp, hop]

theorem startByOp_powerSet (hop : k.op = 0x90) : startByOp t c k = startPowerSet t c k := by
  simp only [startByOp, hop]

theorem startByOp_selftest (hop : k.op = 0xA0) : startByOp t c k = startSelftest t c k := by
  simp only [startByOp, hop]

theorem startByOp_debugRead (hop : k.op = 0xB0) : startByOp t c k = startDebugRead t c k := by
  simp only [startByOp, hop]

theorem startByOp_attest (hop : k.op = 0xC0) : startByOp t c k = startAttest t c k := by
  simp only [startByOp, hop]

end

section

variable {s : State} {c : Nat} {k : Cmd}

/-! ### WINDOW_OPEN and WINDOW_CLOSE (R291) -/

/-- The window that a WINDOW_OPEN of ring `c` asks for. -/
def openedWindow (c : Nat) (k : Cmd) : Window :=
  let fl := k.fld 0x0C 1
  { base := k.fld 0 8, size := k.fld 8 4, read := bitsAt fl 0 1 == 1, write := bitsAt fl 1 1 == 1, atom := bitsAt fl 2 1 == 1, v1ok := bitsAt fl 3 1 == 1
    anyctx := bitsAt fl 4 1 == 1, owner := c, rctx := k.fld 0x0E 2, valid := true, nodeLo := k.fld 0x10 2, nodeHi := k.fld 0x12 2 }

/-- The fields of a WINDOW_OPEN that R291 asks for, and the memory that it opens. -/
structure OpenFields (s : State) (c : Nat) (k : Cmd) : Prop where
  rsvd : parRsvd k [(0, 13), (0x0E, 6)] = false
  flags : k.fld 0x0C 1 ≤ 31
  align : (openedWindow c k).base % 4096 = 0
  sizeLo : (openedWindow c k).size ≠ 0
  sizeHi : (openedWindow c k).size < 2 ^ 28
  nodes : (openedWindow c k).nodeLo ≤ (openedWindow c k).nodeHi
  rctx : (openedWindow c k).rctx ≤ 4095
  mem : windowMem s c (openedWindow c k).base ((openedWindow c k).size * 4096) false = true
  memWrite : (openedWindow c k).write = true ∨ (openedWindow c k).atom = true →
    windowMem s c (openedWindow c k).base ((openedWindow c k).size * 4096) true = true

theorem startWindowOpen_good {i : Nat} (hk : OpenFields s c k)
    (hfree : (List.range 16384).find? (fun i => !(tget {} s.salt.windows i).valid) = some i) :
    startWindowOpen s c k = settle (winSwap (s.modSalt fun y => { y with windows := tput {} y.windows i (openedWindow c k) }) [i]) c k.aseq dDONE stOK i := by
  obtain ⟨hrsvd, hflags, halign, hlo, hhi, hnodes, hrctx, hmem, hwrite⟩ := hk
  simp only [startWindowOpen, hfree]
  refine if_neg ?_
  simp only [openedWindow] at *
  simp only [hrsvd, hmem, halign, Bool.or_eq_true, Bool.and_eq_true, decide_eq_true_eq, bne_iff_ne, beq_iff_eq, Bool.not_eq_true', not_or, not_and,
    Bool.not_eq_false]
  refine ⟨?_, fun h => hwrite (by simpa using h)⟩
  simp only [Bool.false_eq_true, not_false_eq_true, not_true_eq_false, ne_eq, true_and, and_true]
  omega

/-- A WINDOW_CLOSE of the ring's own window: it settles, or waits for the accesses that are held under the old generation. -/
theorem startWindowClose_good (hrsvd : parRsvd k [(0, 2)] = false) (hi : k.fld 0 2 ≤ 16383)
    (hvalid : (tget {} s.salt.windows (k.fld 0 2)).valid = true) (howner : (tget {} s.salt.windows (k.fld 0 2)).owner = c) :
    let u := winSwap (s.modSalt fun y => { y with windows := tput {} y.windows (k.fld 0 2) {} }) [k.fld 0 2]
    startWindowClose s c k = if s.salt.snoopHeld.isEmpty then settle u c k.aseq dDONE stOK 0
      else modCmd u c k.aseq fun k => { k with mark := u.salt.swaps } := by
  refine (if_neg ?_).trans (if_neg (not_not.mpr howner))
  simp only [hrsvd, hvalid, Bool.not_true, Bool.or_false, Bool.false_or, decide_eq_true_eq]
  omega

/-! ### ROUTE_SET (R286) -/

/-- The entries of a ROUTE_SET in its extended data `b`. -/
def routeEntries (k : Cmd) (b : List Byte) : List Nat := (List.range (k.fld 2 2)).map fun i => leNat ((b.drop (8 * i)).take 8)

/-- The block with the routes of a ROUTE_SET. -/
def routed (s : State) (k : Cmd) (b : List Byte) : State := s.modSalt fun y => { y with
  routes := ((List.range (k.fld 2 2)).zip (routeEntries k b)).foldl (fun m e => tput {} m (k.fld 0 2 + e.1) (parseRoute e.2)) y.routes, swaps := y.swaps + 1 }

/-- The nodes with requests outstanding whose port a ROUTE_SET changes. -/
def movedNodes (s : State) (k : Cmd) (b : List Byte) : List Nat :=
  (countFrom (k.fld 0 2) (k.fld 2 2)).filter fun d => portOf s d != portOf (routed s k b) d && s.salt.outs.any fun o => o.msg.dst == d

theorem startRouteSet_good {b : List Byte} (hrsvd : parRsvd k [(0, 4)] = false) (hsome : 1 ≤ k.fld 2 2) (hmost : k.fld 2 2 ≤ 4096)
    (hrange : k.fld 0 2 + k.fld 2 2 ≤ 65536) (hlen : k.hdr.hlen = 8 * k.fld 2 2) (hread : readExt s c k.hdr.haddr (8 * k.fld 2 2) = .ok b)
    (hentries : (routeEntries k b).any (fun e => bitsAt e 10 6 != 0 || bitsAt e 20 44 != 0) = false) :
    startRouteSet s c k = settle ((routeSwap (routed s k b) ((countFrom (k.fld 0 2) (k.fld 2 2)).zip (routeEntries k b))).modSalt
      fun y => { y with heldNodes := (movedNodes s k b).foldl ninsert y.heldNodes }) c k.aseq dDONE stOK (k.fld 2 2) := by
  simp only [startRouteSet, hread]
  refine (if_neg ?_).trans (if_neg (ne_true_of_eq_false hentries))
  simp only [hrsvd, hlen, Bool.false_or, Bool.or_eq_true, decide_eq_true_eq, beq_iff_eq, bne_iff_ne, not_or]
  omega

/-! ### POWER_SET, SELFTEST, DEBUG_READ and ATTEST (R357, R379, R463, R475) -/

theorem startPowerSet_good (hrsvd : parRsvd k [(0, 7)] = false) (hpower : k.fld 0 2 ≤ packageLimit s) (hlo : 550 ≤ k.fld 2 2)
    (hlohi : k.fld 2 2 ≤ k.fld 4 2) (hhi : k.fld 4 2 ≤ 850) (htemp : k.fld 6 1 ≤ 105) : startPowerSet s c k =
    s.modTrellis fun y => { y with pendSet := some (k.aseq, k.fld 0 2, k.fld 2 2, k.fld 4 2, k.fld 6 1) } := by
  refine if_neg ?_
  simp only [hrsvd, Bool.false_or, Bool.or_eq_true, decide_eq_true_eq, not_or]
  omega

theorem startSelftest_good (hrsvd : parRsvd k [(0, 5)] = false) (hflag : k.fld 4 1 ≤ 1)
    (hst : testStatus s (k.fld 0 1) (k.fld 1 1) (k.fld 2 2) (k.fld 4 1 == 1) = stOK) : startSelftest s c k =
    beginTest s { block := k.fld 0 1, test := k.fld 1 1, index := k.fld 2 2, intrusive := k.fld 4 1 == 1, aseq := some k.aseq } := by
  refine (if_neg ?_).trans (if_neg (not_not.mpr hst))
  simp only [hrsvd, Bool.false_or, decide_eq_true_eq]
  omega

/-- The lines that a DEBUG_READ copies, each with its poison. -/
def debugLines (s : State) (k : Cmd) : List (List Byte × Bool) :=
  (List.range (k.fld 8 4 / 64)).map fun i => (debugBytes s (k.fld 0 8 + 64 * i) 64, isPoisoned s (k.fld 0 8 + 64 * i) 64)

theorem startDebugRead_good (hrsvd : parRsvd k [(0, 12), (0x10, 8)] = false) (hsrc : k.fld 0 8 % 64 = 0) (hlen : k.fld 8 4 % 64 = 0)
    (hmost : k.fld 8 4 ≤ 0x1000000) (hrange : debugRange (k.fld 0 8) (k.fld 8 4) = true)
    (hdest : inRegion (s.ctx c) (k.fld 0x10 8) (k.fld 8 4) true = true) (hup : s.cxl.up = true) : startDebugRead s c k =
    settle (putLines (readIn s (k.fld 0 8) (k.fld 8 4)) (k.fld 0x10 8) (debugLines s k)) c k.aseq dDONE
      (if isPoisoned s (k.fld 0 8) (k.fld 8 4) then stUNCORR else stOK) (k.fld 8 4) := by
  refine (if_neg ?_).trans ((if_neg (by simp [hdest])).trans (if_neg (by simp [hup])))
  simp only [hrsvd, hsrc, hlen, hrange, bne_self_eq_false, Bool.not_true, Bool.or_false, Bool.false_or, decide_eq_true_eq]
  omega

/-- The evidence of an ATTEST without its signature. -/
def attested (s : State) (k : Cmd) : List Byte := evidence (linkMeas s) (k.par.take 32) (k.fld 0x2C 1)

theorem startAttest_good (hrsvd : parRsvd k [(0, 45)] = false) (hslot : k.fld 0x2C 1 ≤ 7) (hvalid : (linkMeas s).ident.valid = true)
    (hchain : certChain (linkMeas s) (k.fld 0x2C 1) ≠ []) (hroom : (attested s k).length + 49856 ≤ k.fld 0x28 4)
    (hdest : inRegion ((linkMeas s).ctx c) (k.fld 0x20 8) ((attested s k).length + 49856) true = true) (hup : (linkMeas s).cxl.up = true) :
    startAttest s c k = settle (takeFree (putHost (linkMeas s) (k.fld 0x20 8) (attested s k ++ freeStr (linkMeas s) 49856)) 1) c k.aseq dDONE stOK
      ((attested s k).length + 49856) := by
  have hfits : ¬k.fld 0x28 4 < (attested s k).length + 49856 := by omega
  refine (if_neg ?_).trans ((if_neg (by simp [hvalid])).trans ((if_neg ?_).trans ((if_neg (by rw [attested] at hdest; simp [hdest])).trans
    (if_neg (by simp [hup])))))
  · simp only [hrsvd, Bool.false_or, decide_eq_true_eq]
    omega
  · rw [attested] at hfits
    simp only [List.isEmpty_iff, hchain, hfits, decide_false, Bool.or_false, not_false_eq_true]

end

/-- Settles O48: a command starts by its opcode, and each start is a lemma about the operation. -/
theorem platformCommands : Obligations.PlatformCommands := by
  unfold Obligations.PlatformCommands
  intro c k s t x h p
  refine ⟨fun i hs => ?opens, fun hs hrsvd hi hvalid howner => ?close, fun b hs hrsvd hsome hmost hrange hlen hread => ?route,
    fun hs hrsvd hpower hlo hlohi hhi htemp => ?power, fun hs hrsvd hflag hst => ?test,
    fun hs hrsvd hsrc hlen hmost hrange hdest hup => ?debug, fun hs => ?attest⟩
  case opens =>
    intro fl w hrsvd hflags halign hlo hhi hnodes hrctx hmem hwrite hfree
    exact exec_of_start hs ((startByOp_windowOpen (op_of_starts hs rfl)).trans
      (startWindowOpen_good ⟨hrsvd, hflags, halign, hlo, hhi, hnodes, hrctx, hmem, hwrite⟩ hfree))
  case close =>
    have hstart := (startByOp_windowClose (op_of_starts hs rfl)).trans (startWindowClose_good hrsvd hi hvalid howner)
    exact ⟨fun hnone => exec_of_start hs (hstart.trans (if_pos (by rw [hnone]; rfl))),
      fun hheld => exec_of_start hs (hstart.trans (if_neg (by simpa using hheld)))⟩
  case route =>
    intro es hentries
    exact exec_of_start hs ((startByOp_routeSet (op_of_starts hs rfl)).trans (startRouteSet_good hrsvd hsome hmost hrange hlen hread hentries))
  case power =>
    exact exec_of_start hs ((startByOp_powerSet (op_of_starts hs rfl)).trans (startPowerSet_good hrsvd hpower hlo hlohi hhi htemp))
  case test => exact exec_of_start hs ((startByOp_selftest (op_of_starts hs rfl)).trans (startSelftest_good hrsvd hflag hst))
  case debug =>
    exact exec_of_start hs ((startByOp_debugRead (op_of_starts hs rfl)).trans (startDebugRead_good hrsvd hsrc hlen hmost hrange hdest hup))
  case attest =>
    intro u body hrsvd hslot hvalid hchain hroom hdest hup
    exact exec_of_start hs ((startByOp_attest (op_of_starts hs rfl)).trans (startAttest_good hrsvd hslot hvalid hchain hroom hdest hup))

end Sys2Proof.PlatformRingCommands

namespace Sys2Proof.MoverProgramWords

open Sys2Proof Sys2Proof.Machine Sys2Proof.IssueFaults Sys2Proof.UnitWords Sys2Proof.PegProgramWords

/-! ### The words of the movers at issue (Tables 6-1 and 6-9) -/

section

variable {w : W128} (hlo : 0x30 ≤ wOp w) (hhi : wOp w < 0x38)

include hlo hhi

/-- Table 6-1: the words of 0x30 to 0x37 belong to the movers. -/
theorem unitOf_mover : unitOf w ≠ 0 := by
  unfold unitOf
  by_cases hmid : wOp w < 0x34
  · simp (disch := omega) only [if_neg, if_pos]
    decide
  · simp (disch := omega) only [if_neg, if_pos]
    decide

/-- Table 6-9: a mover's word has no check at issue but those of its unit. -/
theorem issueFault_mover (r : Run) : issueFault r w = none := by
  simp only [issueFault]
  split
  iterate 7 next => omega
  next => simp (disch := omega) only [if_neg, if_pos]

end

section

variable {a : State} {n : Nat}

/-! ### What the dispatch of a word leaves alone -/

/-- The rings of a core's movers stay over the dispatch of a word. -/
theorem ring_dispatched (m r : Nat) (w : W128) (h : (a.core n).mode = .running) : (dispatched a n w).ring n m r = a.ring n m r := by
  rw [State.ring, State.mover, dispatched_core w h]
  rfl

/-- The dispatch of a word leaves of every core what decides which rows its program may reach. -/
theorem rowWindow_dispatched (w : W128) (k : Nat) (h : (a.core n).mode = .running) :
    ((dispatched a n w).core k).busy = (a.core k).busy ∧ ((dispatched a n w).core k).ctx = (a.core k).ctx
      ∧ ((dispatched a n w).core k).run.rowBase = (a.core k).run.rowBase ∧ ((dispatched a n w).core k).run.rowCount = (a.core k).run.rowCount := by
  by_cases hk : k = n
  · subst hk
    rw [dispatched_core w h]
    exact ⟨rfl, rfl, rfl, rfl⟩
  · have hcore : (dispatched a n w).core k = a.core k := tget_tput_other ({} : Core) a.cores _ hk
    rw [hcore]
    exact ⟨rfl, rfl, rfl, rfl⟩

/-- The memory that a program may reach stays over the dispatch of a word. -/
theorem progMem_dispatched (w : W128) (g len : Nat) (write : Bool) (h : (a.core n).mode = .running) :
    progMem (dispatched a n w) n g len write = progMem a n g len write := by
  obtain ⟨hbusy, hctx, hbase, hcount⟩ := rowWindow_dispatched w (apCore g) h
  unfold progMem
  rw [dispatched_ctx w h]
  dsimp only
  rw [hbusy, hctx, hbase, hcount]
  rfl

/-! ### A word that its mover has taken -/

/-- A core rests once the run of its one word's mover marks it executed or in progress. -/
theorem pump_taken {s : State} {f : Run → Run} {e : QWord} (k : Nat) (h : (s.core n).mode ≠ .idle) (hprog : (f (s.core n).run).prog = [])
    (hq : (f (s.core n).run).q = [e]) (hgate : e.gate = none) (htaken : e.done = true ∨ e.kick ≠ none) :
    pumpCore n k (s.modRun n f) = s.modRun n f := by
  have hcore := core_modRun s n f h
  refine pump_rest (e := e) k ?_ ?_ (by simp [hgate]) (htaken.imp_right .inl)
  · rw [hcore]
    exact hprog
  · rw [hcore]
    exact hq

/-- A change of one ring that looks at what the ring was. -/
theorem modAt_getD {α : Type} (l : List α) (i : Nat) (d : α) (f : α → α) : modAt l i f = modAt l i fun _ => f (l.getD i d) := by
  induction l generalizing i with
  | nil => rfl
  | cons x t ih =>
    cases i with
    | zero => rfl
    | succ i => simp only [modAt, List.getD_cons_succ, ← ih]

@[simp] theorem setMov_prog (r : Run) (m : Nat) (x : Mover) : (r.setMov m x).prog = r.prog := by
  unfold Run.setMov
  split <;> rfl

@[simp] theorem setMov_q (r : Run) (m : Nat) (x : Mover) : (r.setMov m x).q = r.q := by
  unfold Run.setMov
  split <;> rfl

/-! ### MRING and MKICK at their mover (R294, R300) -/

section

variable {s : State} {i : Nat} {e : QWord}

theorem wOp_mring (m : Fin 2) (f : BitVec 120) : wOp (mkWord (mringOp m) f) = if m = 0 then 0x30 else 0x34 := by
  rw [wOp_mkWord]
  fin_cases m <;> rfl

theorem wOp_mkick (m : Fin 2) (f : BitVec 120) : wOp (mkWord (mkickOp m) f) = if m = 0 then 0x31 else 0x35 := by
  rw [wOp_mkWord]
  fin_cases m <;> rfl

theorem runEntry_mring {m : Fin 2} (hop : wOp e.word = if m = 0 then 0x30 else 0x34) : runEntry s n i e = runMring s n i m e := by
  fin_cases m <;> simp at hop <;> simp only [runEntry, hop]

theorem runEntry_mkick {m : Fin 2} (hop : wOp e.word = if m = 0 then 0x31 else 0x35) : runEntry s n i e = some (runMkick s n i m e) := by
  fin_cases m <;> simp at hop <;> simp only [runEntry, hop]

end

/-- The ring that an MRING word makes of `x`. -/
def rebound (x : Ring) (w : W128) : Ring := { x.anew with bound := true, base := wf w 64 64, log2n := wf w 14 5, retry := wf w 10 4 }

/-- R294: a ring may be bound where none is bound, it is halted, or it has nothing left to do. -/
def Bindable (x : Ring) : Prop := x.bound = false ∨ x.halted = true ∨ x.live = [] ∧ x.next = x.released

theorem bindable_iff (x : Ring) : Bindable x ↔ (!x.bound || x.halted || (x.live.isEmpty && x.next == x.released)) = true := by
  simp [Bindable, or_assoc]

section

variable {w : W128} (h : Waiting a n)

include h

/-- What a mover makes of the run of the core whose one word it has. -/
theorem modQ_modRing (m r : Nat) (f : Ring → Ring) (g : QWord → QWord) :
    modQ ((dispatched a n w).modRing n m r f) n 0 g = (dispatched a n w).modRun n fun u =>
      { (u.setMov m { (u.mov m) with rings := modAt (u.mov m).rings r f }) with q := [g (wordEntry a n w)] } := by
  obtain ⟨-, hq⟩ := dispatched_queues w h
  refine (modRun_modRun (dispatched a n w) n (fun u => u.setMov m { (u.mov m) with rings := modAt (u.mov m).rings r f })
    (fun u => { u with q := modAt u.q 0 g }) (loneWord_dispatched w h).busy).trans (modRun_congr _ _ ?_)
  simp only [setMov_q, hq, modAt]

/-- A mover with no word but this one binds a ring that may be bound, to memory of its program. -/
theorem runMring_binds {m : Nat} (hrsvd : wf w 19 45 = 0) (hlo : 3 ≤ wf w 14 5) (hhi : wf w 14 5 ≤ 16) (halign : wf w 64 64 % 64 = 0)
    (hmem : progMem a n (wf w 64 64) (64 * 2 ^ wf w 14 5) false = true) (hfree : Bindable (a.ring n m (wf w 8 2))) :
    runMring (dispatched a n w) n 0 m (wordEntry a n w) = some ((dispatched a n w).modRun n fun u =>
      { (u.setMov m { (u.mov m) with rings := modAt (u.mov m).rings (wf w 8 2) fun _ => rebound (a.ring n m (wf w 8 2)) w }) with
        q := [{ wordEntry a n w with done := true }] }) := by
  obtain ⟨-, hq⟩ := dispatched_queues w h
  have hrings : ((dispatched a n w).core n).run.mov m = (a.core n).run.mov m := by
    rw [dispatched_core w h.1]
    rfl
  simp only [runMring, wordEntry_word, progMem_dispatched w _ _ _ h.1, ring_dispatched m _ w h.1, hq]
  refine (if_neg (not_not.mpr hrsvd)).trans ((if_neg (by simp [halign, hmem]; omega)).trans ((if_neg ?_).trans (congrArg some ?_)))
  · rw [(bindable_iff _).mp hfree]
    simp [wordEntry]
  · refine (modQ_modRing h m (wf w 8 2) (rebound · w) _).trans (modRun_congr _ _ ?_)
    rw [hrings, modAt_getD _ _ {}]
    rfl

variable {m : Nat} (hlo : wf w 10 6 = 0) (hhi : wf w 32 96 = 0) (hbound : (a.ring n m (wf w 8 2)).bound = true)

include hlo hhi hbound

/-- R300: on a halted ring an MKICK completes at once. -/
theorem runMkick_halted (hhalted : (a.ring n m (wf w 8 2)).halted = true) : runMkick (dispatched a n w) n 0 m (wordEntry a n w) =
    (dispatched a n w).modRun n fun u => { u with q := [{ wordEntry a n w with done := true }] } := by
  obtain ⟨-, hq⟩ := dispatched_queues w h
  simp only [runMkick, wordEntry_word, ring_dispatched m _ w h.1, hlo, hhi, hbound, hhalted, ne_eq, not_true_eq_false, or_self, Bool.not_true,
    Bool.false_eq_true, if_false, if_true]
  refine modRun_congr _ _ ?_
  rw [hq]
  rfl

/-- R294: an MKICK releases descriptors of a ring that has room for them. -/
theorem runMkick_releases (hgoes : (a.ring n m (wf w 8 2)).halted = false) (hsome : wf w 16 16 ≠ 0)
    (hroom : wf w 16 16 + ((a.ring n m (wf w 8 2)).released - (a.ring n m (wf w 8 2)).next) ≤ 2 ^ (a.ring n m (wf w 8 2)).log2n) :
    runMkick (dispatched a n w) n 0 m (wordEntry a n w) = (dispatched a n w).modRun n fun u =>
      { (u.setMov m { (u.mov m) with rings := modAt (u.mov m).rings (wf w 8 2) fun y => { y with released := y.released + wf w 16 16 } }) with
        q := [{ wordEntry a n w with kick := some (wf w 8 2, (a.ring n m (wf w 8 2)).released + wf w 16 16) }] } := by
  have hfits : ¬(wf w 16 16 = 0 ∨ wf w 16 16 + ((a.ring n m (wf w 8 2)).released - (a.ring n m (wf w 8 2)).next) > 2 ^ (a.ring n m (wf w 8 2)).log2n) := by
    omega
  simp only [runMkick, wordEntry_word, ring_dispatched m _ w h.1, hlo, hhi, hbound, hgoes, if_neg hfits, ne_eq, not_true_eq_false, or_self, Bool.not_true,
    Bool.false_eq_true, if_false]
  exact modQ_modRing h m (wf w 8 2) _ _

end

end

/-- A program row of a mover's word: its mover has it, and the core goes on. -/
theorem exec_moverWord {i : Instr} {c : CoreId} {w : W128} {s a s' : State} (hw : wordOf i = some (c, w)) (m : Meets s a) (h : Waiting a c)
    (hlo : 0x30 ≤ wOp w) (hhi : wOp w < 0x38) (hrun : runEntry (dispatched a c w) c 0 (wordEntry a c w) = some s') :
    exec i s = .next (pumpCore c 70 s') :=
  exec_steps hw m ⟨h, issueFault_mover hlo hhi _⟩ (unitOf_mover hlo hhi) (by omega) hrun

/-- Settles O17: the mover of a waiting core takes the word (`exec_moverWord`), which is then executed or in progress (`pump_taken`). -/
theorem moverWords : Obligations.MoverWords := by
  unfold Obligations.MoverWords
  intro c m f s a hm
  refine ⟨fun w hw h hrsvd hlo hhi halign hmem hfree => ?mring, fun x hx => ?anew, fun w hw h hlo hhi hbound => ?mkick⟩
  case mring =>
    have hop : wOp w = if m = 0 then 0x30 else 0x34 := hw ▸ wOp_mring m f
    have hlone := loneWord_dispatched w h
    rw [exec_moverWord (hw ▸ rfl) hm h (by split at hop <;> omega) (by split at hop <;> omega)
      ((runEntry_mring hop).trans (runMring_binds h hrsvd hlo hhi halign hmem hfree))]
    exact congrArg _ (pump_taken 70 hlone.busy ((setMov_prog ..).trans hlone.prog) rfl rfl (.inl rfl))
  case anew =>
    simp only [Ring.anew, hx]
    rfl
  case mkick =>
    intro x
    have hop : wOp w = if m = 0 then 0x31 else 0x35 := hw ▸ wOp_mkick m f
    have hlone := loneWord_dispatched w h
    have hexec := exec_moverWord (i := .mkick c m f) (hw ▸ rfl) hm h (by split at hop <;> omega) (by split at hop <;> omega) (runEntry_mkick hop)
    refine ⟨fun hhalted => ?_, fun hgoes hsome hroom => ?_⟩
    · rw [hexec, runMkick_halted h hlo hhi hbound hhalted]
      exact congrArg _ (pump_taken 70 hlone.busy hlone.prog rfl rfl (.inl rfl))
    · rw [hexec, runMkick_releases h hlo hhi hbound hgoes hsome hroom]
      exact congrArg _ (pump_taken 70 hlone.busy ((setMov_prog ..).trans hlone.prog) rfl rfl (.inr (by simp)))

end Sys2Proof.MoverProgramWords

namespace Sys2Proof.MoverRings

open Sys2Proof Sys2Proof.Machine

/-! ### The start of a descriptor (R295, R297, R304) -/

section

variable {s : State} {n m r kind : Nat}

/-- A core that is not running starts no descriptor, but one of a ring that Dister has bound for itself on an idle core (R304). -/
theorem startDesc_stopped (hmode : (s.core n).mode ≠ .running) (hdister : (s.core n).mode ≠ .idle ∨ (s.ring n m r).dister = false) :
    startDesc s n m r kind = s := by
  refine if_pos ⟨hmode, ?_⟩
  rcases hdister with h | h <;> simp [h]

/-- With nothing released nothing starts. -/
theorem startDesc_unreleased (h : (s.ring n m r).nextStart = none) : startDesc s n m r kind = s := by
  simp only [startDesc, h, ite_self]

/-- R442: a poisoned descriptor is uncorrectable data. -/
theorem startDesc_poisoned {k : Nat} (hmode : (s.core n).mode = .running) (hnext : (s.ring n m r).nextStart = some k)
    (hbad : isPoisoned s ((s.ring n m r).addr k) 64 = true) :
    startDesc s n m r kind = unitUncorrRec (noteBad s ((s.ring n m r).addr k) 64) n ((s.ring n m r).addr k) := by
  simp [startDesc, hmode, hnext, hbad]

/-- The descriptor of index `k` as its mover reads it: with its context, its address and its place in the mover's order. -/
def readDesc (s : State) (n m r k : Nat) : Desc :=
  { idx := k, ctx := (s.core n).ctx, addr := (s.ring n m r).addr k, order := (s.mover n m).starts, bytes := readMem s ((s.ring n m r).addr k) 64 }

/-- The block with a descriptor in progress: its read is counted, and its mover has started one more. -/
def begun (s : State) (n m r k : Nat) : State :=
  ((noteIn s ((s.ring n m r).addr k) 64).modMover n m fun y => { y with starts := y.starts + 1 }).modRing n m r fun x =>
    { x with live := x.live ++ [readDesc s n m r k], started := if x.failed.contains k then x.started else x.started + 1 }

/-- A good descriptor of the row's KIND comes into progress and begins; its record and its mover also bear what the statement of O20 leaves
out: the context, the address, the order, and the count of descriptors started. -/
theorem startDesc_begins {k : Nat} (hmode : (s.core n).mode = .running) (hnext : (s.ring n m r).nextStart = some k)
    (hread : isPoisoned s ((s.ring n m r).addr k) 64 = false) (hkind : (readDesc s n m r k).kind = kind) (hgood : descBad s n m (readDesc s n m r k) = 0)
    (hup : (readDesc s n m r k).kind < 2 → isHost (readDesc s n m r k).src = true ∨ isHost (readDesc s n m r k).dst = true → s.cxl.up = true)
    (hsnoop : (descSpans s (readDesc s n m r k)).flatMap (fun e => snoopedLines s e.1 e.2) = []) :
    startDesc s n m r kind = runDesc (begun s n m r k) n m r k (readDesc s n m r k) := by
  have hlink : (decide ((readDesc s n m r k).kind < 2) && (isHost (readDesc s n m r k).src || isHost (readDesc s n m r k).dst) && !s.cxl.up) = false := by
    cases hcxl : s.cxl.up with
    | true => simp
    | false => simpa [hcxl] using hup
  have hsame : ((readDesc s n m r k).own && decide ((readDesc s n m r k).kind < 6) && (readDesc s n m r k).kind != kind) = false := by
    simp [hkind]
  simp only [startDesc, hnext]
  refine (if_neg (by simp [hmode])).trans ((if_neg (ne_true_of_eq_false hread)).trans ((if_neg (ne_true_of_eq_false hsame)).trans
    ((if_neg (not_not.mpr hgood)).trans ((if_neg (ne_true_of_eq_false hlink)).trans ?_))))
  rw [readDesc] at hsnoop
  rw [hsnoop]
  rfl

end

/-- The counterexample to O20: a part that is on, whose core 0 is idle, with one COPY of no pieces released on ring 0 of mover 0, which
Dister has bound for itself. -/
def disterRing : State :=
  { State.reset with
    start := { State.reset.start with pwrok := true }
    salt := { State.reset.salt with node := 0 }
    cores := [(0, { run := { mov0 := { rings := [{ bound := true, dister := true, log2n := 3, released := 1 }, {}, {}, {}] } } })]
    mem := [(0, 1)] }

theorem disterRing_starts :
    (disterRing.core 0).mode = .idle ∧ (disterRing.ring 0 0 0).started = 0 ∧ ((startDesc disterRing 0 0 0 0).ring 0 0 0).started = 1 := by
  decide +kernel

/-- Refutes O20: it says that the rows start nothing on a core that is not running, but a ring that Dister has bound for itself runs on an
idle core (R304). The counterexample is `disterRing`. Of the other rings the clause holds (`startDesc_stopped`); what a descriptor's start
leaves is `startDesc_begins`. -/
theorem not_moverDescriptors : ¬ Obligations.MoverDescriptors := by
  unfold Obligations.MoverDescriptors
  intro h
  obtain ⟨-, hrows⟩ := h
  obtain ⟨hstopped, -⟩ := hrows 0 0 0 0 disterRing
  obtain ⟨hidle, hbefore, hafter⟩ := disterRing_starts
  rw [hstopped (by rw [hidle]; decide), hbefore] at hafter
  exact absurd hafter (by decide)

/-! ### The completion of a descriptor (R297, R300) -/

section

variable {s : State} {n m r : Nat}

theorem descComplete_none (h : (s.ring n m r).live = []) : descComplete s n m r = s := by
  simp only [descComplete, Ring.toComplete, h, List.find?_nil]

/-- A descriptor whose data is done and that has no signal to give is written back once it is the one that completes next. -/
theorem descComplete_next {d : Desc} (hnext : (s.ring n m r).toComplete = some d) (hdone : d.dataDone = true)
    (hsignal : d.signal = false ∨ d.signalled = true ∨ d.cause ≠ 0) : descComplete s n m r = writeBack s n m r d := by
  have hquiet : (d.signal && !d.signalled && d.cause == 0) = false := by
    rcases hsignal with h | h | h <;> simp [h]
  simp only [descComplete, hnext]
  exact (if_neg (by simp [hdone])).trans (if_neg (ne_true_of_eq_false hquiet))

/-- Where a ring lists the descriptors of its earlier bindings first, its first descriptor completes next. -/
theorem toComplete_head {x : Ring} {d : Desc} {rest : List Desc} (hlive : x.live = d :: rest) (hdone : d.dataDone = true)
    (hfirst : d.old = true ∨ ∀ e ∈ rest, e.old = false) : x.toComplete = some d := by
  rw [Ring.toComplete, hlive]
  cases hold : d.old with
  | true => simp [hold, hdone]
  | false =>
    have hrest : ∀ e ∈ rest, e.old = false := hfirst.resolve_left (by simp [hold])
    have hnone : (rest.find? fun e => e.old && e.dataDone) = none := by
      rw [List.find?_eq_none]
      intro e he
      simp [hrest e he]
    simp [hold, hnone]

/-- The clause of O21 on DESCRIPTOR_COMPLETE holds where the ring lists the descriptors of its earlier bindings first, as MRING leaves it. -/
theorem exec_descriptorComplete_oldest {c : CoreId} {v : Fin 2} {g : Fin 4} {t : State} {d : Desc} {rest : List Desc} (hm : Meets t s)
    (hlive : (s.ring c v g).live = d :: rest) (hfirst : d.old = true ∨ ∀ e ∈ rest, e.old = false) (hdone : d.dataDone = true)
    (hsignal : d.signal = false ∨ d.signalled = true ∨ d.cause ≠ 0) :
    exec (.descriptorComplete c v g) t = .next (pumpOne (writeBack s c v g d) c) := by
  rw [exec_descriptorComplete, run_meets hm, descComplete_next (toComplete_head hlive hdone hfirst) hdone hsignal]

end

/-- A descriptor of the binding in force, and one of an earlier binding. -/
def newDesc : Desc := {}
def oldDesc : Desc := { idx := 1, old := true }

/-- The counterexample to O21: a part that is on, whose ring 0 of mover 0 of core 0 lists `oldDesc` behind `newDesc`, the data of both
done. -/
def listedBehind : State :=
  { State.reset with
    start := { State.reset.start with pwrok := true }
    cores := [(0, { run := { mov0 := { rings := [{ live := [newDesc, oldDesc] }, {}, {}, {}] } } })] }

theorem listedBehind_meets : Meets listedBehind listedBehind := by
  unfold Meets
  decide +kernel

/-- What the write-back of each descriptor leaves on the ring. -/
theorem listedBehind_completes :
    ((pumpOne (writeBack listedBehind 0 0 0 newDesc) 0).ring 0 0 0).live = [oldDesc]
      ∧ ((pumpOne (writeBack listedBehind 0 0 0 oldDesc) 0).ring 0 0 0).live = [newDesc] := by decide +kernel

/-- Refutes O21: it lets a ring list its descriptors in any order, and where one of an earlier binding stands behind one of the binding in
force, DESCRIPTOR_COMPLETE completes the older binding's, while the statement completes the first. The counterexample is `listedBehind`.
With the descriptors of earlier bindings in front the clause holds (`exec_descriptorComplete_oldest`). -/
theorem not_moverEvents : ¬ Obligations.MoverEvents := by
  unfold Obligations.MoverEvents
  intro h
  obtain ⟨hcomplete, -⟩ := h 0 0 0 listedBehind listedBehind listedBehind_meets
  have hstated := hcomplete newDesc [oldDesc] rfl rfl (.inl rfl)
  rw [exec_descriptorComplete, run_meets listedBehind_meets, descComplete_next (d := oldDesc) rfl rfl (.inl rfl)] at hstated
  injection hstated with hstates
  obtain ⟨hnew, hold⟩ := listedBehind_completes
  have hlives := congrArg (fun t => (t.ring 0 0 0).live) hstates
  exact absurd (hold.symm.trans (hlives.trans hnew)) (by decide)

end Sys2Proof.MoverRings

namespace Sys2Proof.HostDoorbells

open Sys2Proof Sys2Proof.Machine

/-! ### The page of a context (R315) -/

section

variable {s : State} {c : Nat}

theorem onPage_linkDown (f : State → State) (hup : s.cxl.up = false) : onPage s c f = s := if_pos (by simp [hup])

theorem onPage_absent (f : State → State) (hup : s.cxl.up = true) (hlive : (s.ctx c).live = false) : onPage s c f = wdrop s := by
  simp [onPage, hup, hlive]

theorem onPage_live (f : State → State) (hup : s.cxl.up = true) (hlive : (s.ctx c).live = true) : onPage s c f = f s := by
  simp [onPage, hup, hlive]

/-! ### The tails that announce entries (R316) -/

variable (hup : s.cxl.up = true) (hlive : (s.ctx c).live = true)

include hup hlive

/-- Before READY a tail announces nothing (log 59). -/
theorem cmdTail_notReady (tail : Nat) (data : Cells) (hready : s.cxl.ready = false) : cmdTail s c tail data = applyHost s data :=
  (onPage_live _ hup hlive).trans (if_pos (by simp [hready]))

theorem htrTail_notReady (r tail : Nat) (data : Cells) (hready : s.cxl.ready = false) : htrTail s c r tail data = applyHost s data :=
  (onPage_live _ hup hlive).trans (if_pos (by simp [hready]))

variable {tail : Nat} {data : Cells} (hready : s.cxl.ready = true)

include hready

/-- A tail beyond the ring's size is ignored. -/
theorem cmdTail_beyond
    (hn : 2 ^ ((applyHost s data).ctx c).cmdLog2 < (tail + 2 ^ 32 - ((applyHost s data).ctx c).cmdRead) % 2 ^ 32) :
    cmdTail s c tail data = dbIgnored (applyHost s data) c :=
  (onPage_live _ hup hlive).trans ((if_neg (by simp [hready])).trans (if_pos hn))

theorem cmdTail_announces
    (hn : (tail + 2 ^ 32 - ((applyHost s data).ctx c).cmdRead) % 2 ^ 32 ≤ 2 ^ ((applyHost s data).ctx c).cmdLog2) :
    cmdTail s c tail data =
      let t := applyHost s data
      let x := t.ctx c
      t.modCtx c fun k => { k with
        cmdTail := tail, badOps := scanOps t x (2 ^ x.cmdLog2) x.cmdRead ((tail + 2 ^ 32 - x.cmdRead) % 2 ^ 32), fresh := false } :=
  (onPage_live _ hup hlive).trans ((if_neg (by simp [hready])).trans (if_neg (Nat.not_lt.mpr hn)))

variable {r : Nat}

/-- A tail of a ring that is not set up, beyond the ring's size, or behind what has started is ignored. -/
theorem htrTail_outside
    (hn : let x := (applyHost s data).htr c r
      x.log2n < 3 ∨ 2 ^ x.log2n < (tail + 2 ^ 16 - x.head) % 2 ^ 16
        ∨ (tail + 2 ^ 16 - x.head) % 2 ^ 16 < (x.started + 2 ^ 16 - x.head) % 2 ^ 16) :
    htrTail s c r tail data = dbIgnored (applyHost s data) c :=
  (onPage_live _ hup hlive).trans ((if_neg (by simp [hready])).trans (if_pos hn))

theorem htrTail_announces
    (hn : let x := (applyHost s data).htr c r
      3 ≤ x.log2n ∧ (tail + 2 ^ 16 - x.head) % 2 ^ 16 ≤ 2 ^ x.log2n
        ∧ (x.started + 2 ^ 16 - x.head) % 2 ^ 16 ≤ (tail + 2 ^ 16 - x.head) % 2 ^ 16) :
    htrTail s c r tail data =
      ((applyHost s data).modHtr c r fun x => { x with tail := tail }).modCtx c fun k => { k with fresh := false } := by
  obtain ⟨hset, hsize, hstarted⟩ := hn
  refine (onPage_live _ hup hlive).trans ((if_neg (by simp [hready])).trans (if_neg ?_))
  rintro (h | h | h)
  · exact Nat.not_lt.mpr hset h
  · exact Nat.not_lt.mpr hsize h
  · exact Nat.not_lt.mpr hstarted h

end

/-- Settles O52: a doorbell is a write to its context's page (`onPage_linkDown`, `onPage_absent`, `onPage_live`), and on a live page the
tails are `cmdTail_notReady`, `cmdTail_beyond` and `cmdTail_announces`, and `htrTail_notReady`, `htrTail_outside` and `htrTail_announces`.
That a tail before READY has no effect and is not counted is the model's choice (log 59). -/
theorem hostDoorbells : Obligations.HostDoorbells := by
  unfold Obligations.HostDoorbells
  intro c r v d s a m
  rw [exec_cmdTail, exec_cmplHead, exec_evrHead, exec_htrTail, exec_htrResume, run_meets m, run_meets m, run_meets m, run_meets m,
    run_meets m]
  refine ⟨fun hup => ?down, fun hup hlive => ?absent, fun hup hlive => ⟨?cmplHead, ?evrHead, ?resume, ?cmdTail, ?htrTail⟩⟩
  case down =>
    refine ⟨congrArg (fun t => Host.Outcome.next (ringPump t c)) ?_, congrArg _ ?_, congrArg _ ?_, congrArg _ ?_, congrArg _ ?_⟩
    all_goals exact onPage_linkDown _ hup
  case absent =>
    refine ⟨congrArg (fun t => Host.Outcome.next (ringPump t c)) ?_, congrArg _ ?_, congrArg _ ?_, congrArg _ ?_, congrArg _ ?_⟩
    all_goals exact onPage_absent _ hup hlive
  case cmplHead => exact congrArg _ (onPage_live _ hup hlive)
  case evrHead => exact congrArg _ (onPage_live _ hup hlive)
  case resume => exact congrArg _ (onPage_live _ hup hlive)
  case cmdTail =>
    refine ⟨fun hready => ?_, fun hready hn => ?_, fun hready hn => ?_⟩
    all_goals refine congrArg (fun t => Host.Outcome.next (ringPump t c)) ?_
    · exact cmdTail_notReady hup hlive v d hready
    · exact cmdTail_beyond hup hlive hready hn
    · exact cmdTail_announces hup hlive hready hn
  case htrTail =>
    refine ⟨fun hready => congrArg _ ?_, fun hready hn => congrArg _ ?_, fun hready hset hsize hstarted => congrArg _ ?_⟩
    · exact htrTail_notReady hup hlive r v d hready
    · exact htrTail_outside hup hlive hready hn
    · exact htrTail_announces hup hlive hready ⟨hset, hsize, hstarted⟩

end Sys2Proof.HostDoorbells

namespace Sys2Proof.HostManagedMemory

open Sys2Proof Sys2Proof.Machine Sys2Proof.PegReleases

/-! ### The decoder (R310, R323) -/

section

variable {s : State} {ways gran : Nat}

theorem interleaveOk_iff : interleaveOk ways gran = true ↔
    (ways = 1 ∨ ways = 2 ∨ ways = 4 ∨ ways = 8)
      ∧ (gran = 256 ∨ gran = 512 ∨ gran = 1024 ∨ gran = 2048 ∨ gran = 4096 ∨ gran = 8192 ∨ gran = 16384) := by
  simp [interleaveOk]

theorem hdmCommit_linkDown (on : Bool) (base : Nat) (span : HdmSpan) (hup : s.cxl.up = false) : hdmCommit s on base span = s :=
  if_pos (by simp [hup])

variable (hup : s.cxl.up = true)

include hup

theorem hdmCommit_uncommit (base : Nat) (span : HdmSpan) :
    hdmCommit s false base span = s.modCxl fun x => { x with hdmCommitted := false } :=
  if_neg (by simp [hup])

/-- A commit with an interleave of R310 locks an open decoder; any other leaves it (log 72). -/
theorem hdmCommit_commit (base : Nat) (span : HdmSpan) :
    hdmCommit s true base span =
      if s.cxl.hdmCommitted || !interleaveOk span.ways span.gran then s
      else s.modCxl fun x => { x with
        hdmCommitted := true, hdmBase := base, hdmSize := min span.size (span.ways * s.hdmBytes), hdmWays := span.ways, hdmGran := span.gran } :=
  (if_neg (by simp [hup])).trans (if_pos rfl)

theorem hdmCommit_refused (base size : Nat) (h : s.cxl.hdmCommitted = true ∨ ¬interleaveOk ways gran = true) :
    hdmCommit s true base ⟨size, ways, gran⟩ = s := by
  refine (hdmCommit_commit hup _ _).trans (if_pos ?_)
  rcases h with h | h
  · simp [h]
  · simp [Bool.eq_false_iff.mpr h]

theorem hdmCommit_locks (base size : Nat) (hopen : s.cxl.hdmCommitted = false) (hok : interleaveOk ways gran = true) :
    hdmCommit s true base ⟨size, ways, gran⟩ = s.modCxl fun x => { x with
      hdmCommitted := true, hdmBase := base, hdmSize := min size (ways * s.hdmBytes), hdmWays := ways, hdmGran := gran } :=
  (hdmCommit_commit hup _ _).trans (if_neg (by simp [hopen, hok]))

end

/-! ### The line of a host address (R311, R323) -/

section

variable {s : State} {x y : Nat}

theorem hdmLine_outside (h : x < s.cxl.hdmBase ∨ s.cxl.hdmBase + s.cxl.hdmSize ≤ x) : hdmLine s x = none := by
  refine if_neg fun hin => ?_
  simp only [Bool.and_eq_true, decide_eq_true_eq] at hin
  omega

theorem eq_of_hdmLine (h : hdmLine s x = some y) : y = hdmStart s + hdmDpa s.cxl x / 64 * 64 :=
  (Option.some.inj (Option.dite_none_right_eq_some.mp h).2).symm

/-! ### Reads and writes of the host (R324, R326) -/

theorem hostMemRead_error (h : hdmLine s x = none) :
    hostMemRead s x = { (s.modCxl fun z => { z with memRsp := 2 }) with readOut := [] } := by
  simp only [hostMemRead, h]

theorem hostMemWrite_error (l : List Byte) (bad : Bool) (h : hdmLine s x = none) :
    hostMemWrite s x l bad = s.modCxl fun z => { z with memRsp := 2 } := by
  simp only [hostMemWrite, h]

theorem hostMemRead_line (h : hdmLine s x = some y) :
    hostMemRead s x =
      { (noteRead ((snoopAdd (noteBad s y 64) (y / 64)).modCxl fun z => { z with memRsp := b2n (isPoisoned s y 64) }) y 64) with
        readOut := readMem s y 64 } := by
  simp only [hostMemRead, h]

theorem hostMemWrite_line (l : List Byte) (bad : Bool) (h : hdmLine s x = some y) :
    hostMemWrite s x l bad =
      (writeMem s (y + x % 64) (l.take (64 - x % 64)) bad).modCxl fun z => { z with memRsp := 0 } := by
  simp only [hostMemWrite, h]

end

/-- Writes of local memory change no core and no peg. -/
theorem sameCoresPegs_writeMem (s : State) (a : Nat) (l : List Byte) (bad : Bool) : SameCoresPegs s (writeMem s a l bad) := by
  unfold writeMem
  simp only
  split
  · split <;> exact ⟨rfl, rfl⟩
  · split
    · split <;> exact ⟨rfl, rfl⟩
    · exact ⟨rfl, rfl⟩

/-! ### The answer to a snoop (R324) -/

section

variable {s : State} {line : Nat}

theorem birsp_unasked (h : s.cxl.snooping.contains line = false) : birsp s line = s := if_pos (by rw [h]; rfl)

theorem birsp_asked (h : s.cxl.snooping.contains line = true) :
    birsp s line =
      let t := s.modCxl fun x => { x with snoop := x.snoop.filter (· ≠ line), snooping := x.snooping.filter (· ≠ line) }
      s.salt.snoopHeld.foldl (fun s e => passedAccess s e.1 e.2.1 e.2.2) (t.modSalt fun x => { x with snoopHeld := [] }) :=
  if_neg (by rw [h]; decide)

end

/-- Settles O54: the decoder is `hdmCommit_uncommit`, `hdmCommit_refused` and `hdmCommit_locks`, an access of a line
`hostMemRead_line` and `hostMemWrite_line`, and a write leaves what `Memory.write_other` and the frame of `writeMem` say. That an interleave
outside R310 does not commit is the model's deduction (log 72). -/
theorem hostMemory : Obligations.HostMemory := by
  unfold Obligations.HostMemory
  intro s a m
  refine ⟨fun on base size ways gran => ?decoder, fun x => hdmLine_outside, fun x l bad hnone => ?error, fun x y l bad hline => ?line,
    fun line => ?birsp⟩
  case decoder =>
    rw [exec_hdmDecoderCommit, exec_hdmDecoderCommit, exec_hdmDecoderCommit, run_meets m, run_meets m, run_meets m]
    refine ⟨fun hup => congrArg _ (hdmCommit_linkDown _ _ _ hup), fun hup => ?_⟩
    simp only [← interleaveOk_iff]
    exact ⟨congrArg _ (hdmCommit_uncommit hup _ _), fun h => congrArg _ (hdmCommit_refused hup _ _ h),
      fun hopen hok => congrArg _ (hdmCommit_locks hup _ _ hopen hok)⟩
  case error =>
    rw [exec_hostMemRead, exec_hostMemWrite, run_meets m, run_meets m]
    exact ⟨congrArg _ (hostMemRead_error hnone), congrArg _ (hostMemWrite_error _ _ hnone)⟩
  case line =>
    rw [exec_hostMemRead, exec_hostMemWrite, run_meets m, run_meets m, hostMemRead_line hline, hostMemWrite_line _ _ hline]
    obtain ⟨hcores, hpegs⟩ := sameCoresPegs_writeMem a (y + x % 64) (l.take (64 - x % 64)) bad
    refine ⟨eq_of_hdmLine hline, fun hgood => by rw [hgood]; rfl, fun hbad => by rw [hbad]; rfl, _, rfl, rfl, fun j hj => ?_,
      writeMem_ctxs .., hcores, hpegs⟩
    exact (congrArg (tget 0 · j) (writeMem_mem ..)).trans (Memory.write_other _ _ _ hj)
  case birsp =>
    rw [exec_birsp, run_meets m]
    exact ⟨fun h => congrArg _ (birsp_unasked h), fun h => congrArg _ (birsp_asked h)⟩

end Sys2Proof.HostManagedMemory

namespace Sys2Proof.HostLink

open Sys2Proof Sys2Proof.Machine

/-! ### The link and its interrupt (R322, R332) -/

section

variable {s : State}

/-- An interrupt of a vector leaves its trace in the pending bits and the messages of MSI-X alone. -/
theorem raiseVec_traces (s : State) (v : Nat) : ∃ pba msix, raiseVec s v = s.modCxl fun x => { x with pba := pba, msix := msix } := by
  unfold raiseVec
  split
  · exact ⟨_, s.cxl.msix, rfl⟩
  · exact ⟨s.cxl.pba, _, rfl⟩

theorem linkDown_down (h : s.cxl.up = false) : linkDown s = s := if_pos (by simp [h])

theorem linkDown_up (h : s.cxl.up = true) :
    linkDown s = raiseVec (s.modCxl fun x => { x with up := false, downAt := some s.now, width := 0, rate := 0, flit256 := false }) 0 :=
  if_neg (by simp [h])

/-- The loss of the link changes the registers of the host port alone, and of them neither READY nor the board's requirement of IDE. -/
theorem linkDown_port (s : State) :
    ∃ x, linkDown s = s.modCxl (fun _ => x) ∧ x.up = false ∧ x.ready = s.cxl.ready ∧ x.ideReq = s.cxl.ideReq := by
  cases hup : s.cxl.up with
  | false => exact ⟨s.cxl, linkDown_down hup, hup, rfl, rfl⟩
  | true =>
    obtain ⟨pba, msix, hraised⟩ := raiseVec_traces
      (s.modCxl fun x => { x with up := false, downAt := some s.now, width := 0, rate := 0, flit256 := false }) 0
    rw [linkDown_up hup, hraised]
    exact ⟨_, rfl, rfl, rfl, rfl⟩

/-- The link does not train while it is up, nor at what is no row of Table 13-2. -/
theorem linkUp_refused {width rate : Nat} {f : Bool} (h : s.cxl.up = true ∨ linkRow width rate f = false) : linkUp s width rate f = s := by
  refine if_pos ?_
  rcases h with h | h <;> simp [h]

theorem linkUp_trains {width rate : Nat} {f : Bool} (hup : s.cxl.up = false) (hrow : linkRow width rate f = true) :
    linkUp s width rate f = s.cxl.pendSums.foldl applySum (s.cxl.held.foldl toHost (s.modCxl fun x => { x with
      txPresets := linkPresets s, dcache := [], up := true, downAt := none, width := if width = 4 then 3 else if width = 8 then 4 else 5
      rate := rate, flit256 := f, memActive := f && s.start.phase == 0xF, held := [], pendSums := [], linkloss := false })) :=
  if_neg (by simp [hup, hrow])

/-- Table 13-2. -/
theorem linkRow_bounds {width rate : Nat} {f : Bool} (h : linkRow width rate f = true) :
    (width = 4 ∨ width = 8 ∨ width = 16) ∧ 1 ≤ rate ∧ rate ≤ 4 ∧ (rate = 4 → f = true) ∧ (f = true → 3 ≤ rate) := by
  simp only [linkRow, linkWidthOk, Bool.and_eq_true, Bool.or_eq_true, beq_iff_eq, bne_iff_ne, decide_eq_true_eq,
    Bool.not_eq_true', or_assoc] at h
  obtain ⟨⟨⟨⟨hwidth, hlo⟩, hhi⟩, hfast⟩, hslow⟩ := h
  exact ⟨hwidth, hlo, hhi, fun h4 => hfast.resolve_left (not_not.mpr h4), fun hf => hslow.resolve_right (by simp [hf])⟩

/-! ### The loss of the host and the end of a holdoff (R322, R445) -/

theorem hostLoss_linkUp (h : s.cxl.downAt = none) : hostLoss s = s := by
  simp only [hostLoss, h]

theorem hostLoss_linkDown {t : Nat} (h : s.cxl.downAt = some t) :
    hostLoss s =
      let u := reach s (t + hostLossNs s)
      { ((otherCtxs u).foldl (fun s c => s.modCtx c fun x => { x with orphan := true }) u).modFaults (fun f => { f with hostlost := true }) with
        sess := { s.sess with opened := false } } := by
  simp only [hostLoss, h]
  rfl

theorem holdoffEnd_quiet {c : Nat} (h : (s.ctx c).irqHeld = false ∨ (s.ctx c).lastIrq = none) : holdoffEnd s c = s := by
  cases hlast : (s.ctx c).lastIrq with
  | none => simp only [holdoffEnd, hlast]
  | some t =>
    have hquiet : (s.ctx c).irqHeld = false := h.resolve_right (by simp [hlast])
    simp [holdoffEnd, hlast, hquiet]

/-- Once its holdoff is over, the vector that was held back is raised. -/
theorem holdoffEnd_held {c t : Nat} (hlast : (s.ctx c).lastIrq = some t) (hheld : (s.ctx c).irqHeld = true) :
    holdoffEnd s c =
      let u := reach s (t + (s.ctx c).holdoff * 1000)
      (raiseVec u (s.ctx c).vector).modCtx c fun x => { x with lastIrq := some u.now, irqHeld := false } := by
  have hover : ¬max s.now (t + (s.ctx c).holdoff * 1000) < t + (s.ctx c).holdoff * 1000 := Nat.not_lt.mpr (Nat.le_max_right ..)
  simp only [holdoffEnd, hlast, if_pos hheld, raiseCtx]
  have hctx : (reach s (t + (s.ctx c).holdoff * 1000)).ctx c = s.ctx c := rfl
  rw [hctx]
  simp [hlast, reach, hover]

/-! ### CX_PERST (R331, R420) -/

/-- A change of READY, of which vector 0 tells. -/
theorem setReady_port (s : State) (b : Bool) :
    ∃ pba msix, setReady s b = s.modCxl fun x => { x with ready := b, pba := pba, msix := msix } := by
  by_cases h : s.cxl.ready = b
  · exact ⟨s.cxl.pba, s.cxl.msix, (if_pos h).trans (by subst h; rfl)⟩
  · obtain ⟨pba, msix, hraised⟩ := raiseVec_traces (s.modCxl fun x => { x with ready := b }) 0
    exact ⟨pba, msix, (if_neg h).trans hraised⟩

/-- The host port after its reset, behind the loss of the link: its registers, and the links but for the SPDM of the mailboxes. -/
def portReset (s : State) : State :=
  let s1 := (linkDown s).modCxl fun x => { x with
    winsel := 0, hdmCommitted := false, hdmBase := 0, hdmSize := 0, comp := [], dcache := [], snoop := [], snooping := [], ideActive := 0
    masked := [], pba := [], msixTab := [] }
  { s1 with ident := { s1.ident with links := s1.ident.links.filter fun e => e.1 < 8 } }

/-- The assertion of CX_PERST with nothing held for a snoop. -/
theorem cxPerst_asserted (w r : Nat) (f : Bool) (h : s.salt.snoopHeld = []) :
    cxPerst s true w r f = if s.cxl.ideReq then setReady (portReset s) false else portReset s := by
  obtain ⟨x, hdown, -, -, hide⟩ := linkDown_port s
  have hheld : (portReset s).salt.snoopHeld = [] := by rw [portReset, hdown]; exact h
  have hideReq : (portReset s).cxl.ideReq = s.cxl.ideReq := by rw [portReset, hdown]; exact hide
  have hpassed : (portReset s).salt.snoopHeld.foldl (fun s e => passedAccess s e.1 e.2.1 e.2.2)
      ((portReset s).modSalt fun x => { x with snoopHeld := [] }) = portReset s :=
    (congrArg (List.foldl _ _) hheld).trans
      (congrArg (fun l => { portReset s with salt := { (portReset s).salt with snoopHeld := l } }) hheld.symm)
  exact (if_pos rfl).trans ((congrArg (fun t => if t.cxl.ideReq then setReady t false else t) hpassed).trans (by rw [hideReq]))

/-- What CX_PERST clears, and what it leaves. -/
structure PortCleared (s t : State) : Prop where
  up : t.cxl.up = false
  winsel : t.cxl.winsel = 0
  decoder : t.cxl.hdmCommitted = false
  snoop : t.cxl.snoop = []
  dcache : t.cxl.dcache = []
  comp : t.cxl.comp = []
  ide : t.cxl.ideActive = 0
  mem : t.mem = s.mem
  ctxs : t.ctxs = s.ctxs
  trays : t.trays = s.trays
  cores : t.cores = s.cores
  faults : t.faults = s.faults
  salt : t.salt = s.salt

theorem portReset_cleared (s : State) : PortCleared s (portReset s) ∧ (portReset s).cxl.ready = s.cxl.ready := by
  obtain ⟨x, hdown, hup, hready, -⟩ := linkDown_port s
  rw [portReset, hdown]
  exact ⟨⟨hup, rfl, rfl, rfl, rfl, rfl, rfl, rfl, rfl, rfl, rfl, rfl, rfl⟩, hready⟩

/-- A change of READY clears nothing and restores nothing of the port. -/
theorem PortCleared.setReady {t : State} (h : PortCleared s t) (b : Bool) : PortCleared s (setReady t b) ∧ (setReady t b).cxl.ready = b := by
  obtain ⟨pba, msix, hset⟩ := setReady_port t b
  rw [hset]
  exact ⟨⟨h.up, h.winsel, h.decoder, h.snoop, h.dcache, h.comp, h.ide, h.mem, h.ctxs, h.trays, h.cores, h.faults, h.salt⟩, rfl⟩

/-- The assertion of CX_PERST clears the port, and READY where the board requires IDE. -/
theorem cxPerst_clears (w r : Nat) (f : Bool) (h : s.salt.snoopHeld = []) :
    PortCleared s (cxPerst s true w r f)
      ∧ (cxPerst s true w r f).cxl.ready = if s.cxl.ideReq then false else s.cxl.ready := by
  obtain ⟨hcleared, hready⟩ := portReset_cleared s
  rw [cxPerst_asserted w r f h]
  cases s.cxl.ideReq with
  | false => exact ⟨hcleared, hready⟩
  | true => exact hcleared.setReady false

end

/-- Settles O55: each event of the link is a lemma about its own function, and the assertion of CX_PERST is `cxPerst_clears`. What
CX_PERST clears (log 72) and the time that HOST_LOSS and HOLDOFF_END reach (log 23) are the model's. -/
theorem hostLink : Obligations.HostLink := by
  unfold Obligations.HostLink
  constructor
  · intro s a m
    rw [exec_cxlLinkDown, exec_hostLoss, run_meets m, run_meets m]
    simp only [exec_cxlLinkUp, exec_holdoffEnd, run_meets m]
    exact ⟨fun hup => congrArg _ (linkDown_down hup), fun hup => congrArg _ (linkDown_up hup),
      fun _ _ _ h => congrArg _ (linkUp_refused h), fun _ _ _ hup hrow => congrArg _ (linkUp_trains hup hrow),
      fun _ _ _ => linkRow_bounds, fun h => congrArg _ (hostLoss_linkUp h), fun _ h => congrArg _ (hostLoss_linkDown h),
      fun c => ⟨fun h => congrArg _ (holdoffEnd_quiet h), fun _ hlast hheld => congrArg _ (holdoffEnd_held hlast hheld)⟩⟩
  · intro w r f s a m hheld
    rw [exec_cxPerst, exec_cxPerst, run_meets m, run_meets m]
    obtain ⟨h, hready⟩ := cxPerst_clears w r f hheld
    exact ⟨⟨_, rfl, h.up, h.winsel, h.decoder, h.snoop, h.dcache, h.comp, h.ide, fun hide => hready.trans (if_pos hide),
      fun hide => hready.trans (if_neg (by simp [hide])), h.mem, h.ctxs, h.trays, h.cores, h.faults, h.salt⟩, rfl⟩

end Sys2Proof.HostLink

namespace Sys2Proof.HostTrayRings

open Sys2Proof Sys2Proof.Machine Sys2Proof.TrayReading

/-! ### The start of a descriptor (R318, R320, R321) -/

/-- The 64 bytes of a ring's next descriptor. -/
def nextBytes (s : State) (c r : Nat) : List Byte :=
  readHost s ((s.htr c r).base + (s.htr c r).started % 2 ^ (s.htr c r).log2n * 64) 64

/-- A field of a ring's next descriptor. -/
def nextField (s : State) (c r o n : Nat) : Nat := leNat (((nextBytes s c r).drop o).take n)

/-- The operation that a ring's next descriptor names. -/
def nextOp (s : State) (c r : Nat) : Nat := bitsAt (nextField s c r 0 4) 1 3

/-- A ring's next descriptor as it comes into progress. -/
def nextLive (s : State) (c r : Nat) : HtrLive :=
  { idx := (s.htr c r).started, op := nextOp s c r, tray := nextField s c r 6 2, slot := nextField s c r 8 1
    irq := bitsAt (nextField s c r 0 4) 4 1 == 1, buf := nextField s c r 0x10 8, bufWords := nextField s c r 0x18 4
    seq := nextField s c r 0x1C 4 }

/-- The block with a ring's next descriptor in progress. -/
def htrBegun (s : State) (c r : Nat) : State :=
  s.modHtr c r fun x => { x with started := (x.started + 1) % 2 ^ 16, live := x.live ++ [nextLive s c r] }

section

variable {s : State} {c r op : Nat} {ok : Bool}

theorem startHtr_stopped (h : htrMayStart s c r = false) : startHtr s c r op ok = s := if_pos (by simp [h])

/-- A row leaves the descriptor of another operation to that operation's row. -/
theorem startHtr_otherOp (hop : nextOp s c r ≠ op) (hlo : 1 ≤ nextOp s c r) (hhi : nextOp s c r ≤ 4) : startHtr s c r op ok = s := by
  refine if_pos ?_
  change (!htrMayStart s c r || (nextOp s c r != op && decide (1 ≤ nextOp s c r) && decide (nextOp s c r ≤ 4))) = true
  simp [hop, hlo, hhi]

variable (h : htrMayStart s c r = true)

include h

/-- The row of the operation that the descriptor names starts it. -/
theorem startHtr_begins :
    startHtr s c r (nextOp s c r) ok =
      if htrBad s c (nextBytes s c r) then htrResult (htrBegun s c r) c r (nextLive s c r).idx stBADPARAM false 0
      else if nextOp s c r = 1 then htrPut (htrBegun s c r) c r (nextLive s c r) ok
      else if nextOp s c r = 2 then htrGet (htrBegun s c r) c r (nextLive s c r) ok
      else htrSettle (htrBegun s c r) c r (nextLive s c r) := by
  refine if_neg ?_
  change ¬(!htrMayStart s c r || (nextOp s c r != nextOp s c r && decide (1 ≤ nextOp s c r) && decide (nextOp s c r ≤ 4))) = true
  simp [h]

end

/-! ### GET (R319) -/

/-- A GET takes the good head of a work tray and brings it to the host's buffer. -/
theorem htrGet_claims {s : State} {c r : Nat} {d : HtrLive} {p : Packet} (hhead : (s.tray d.tray).head = some p) (hp : Readable p)
    (hkind : (s.tray d.tray).kind = 1) (hwords : p.nwords ≤ d.bufWords) (hin : inRegion (s.ctx c) d.buf (64 + 64 * p.nwords) true = true) :
    htrGet s c r d true =
      htrResult (htrCopy (claimHead s d.tray (c + 4096)).1 d.buf (entryBytes (s.tray d.tray) p) (payloadLines s (s.tray d.tray) p)) c r d.idx
        stOK false p.seq := by
  simp only [htrGet, dropBadHeads_good _ hhead hp, hhead, htrTake]
  simp [Nat.not_lt.mpr hwords, hin, hkind]

/-- The clause of O56 on GET holds where the head of the tray is good. -/
theorem startHtr_claims {s : State} {c r : Nat} {p : Packet} (hmay : htrMayStart s c r = true) (hgood : htrBad s c (nextBytes s c r) = false)
    (hop : nextOp s c r = 2) (hp : Readable p) :
    let t := htrBegun s c r
    let d := nextLive s c r
    (t.tray d.tray).head = some p → (t.tray d.tray).kind = 1 → p.nwords ≤ d.bufWords →
      inRegion (t.ctx c) d.buf (64 + 64 * p.nwords) true = true →
        startHtr s c r (nextOp s c r) true =
          htrResult (htrCopy (claimHead t d.tray (c + 4096)).1 d.buf (entryBytes (t.tray d.tray) p) (payloadLines t (t.tray d.tray) p)) c r
            d.idx stOK false p.seq := by
  intro t d hhead hkind hwords hin
  rw [startHtr_begins hmay, if_neg (ne_true_of_eq_false hgood), if_neg (by rw [hop]; decide), if_pos hop]
  exact htrGet_claims hhead hp hkind hwords hin

/-! ### DONE and UNCLAIM (R319) -/

/-- DONE retires, and UNCLAIM puts back, a packet that this host has claimed. -/
theorem htrSettle_claimed {s : State} {c r : Nat} {d : HtrLive} {p : Packet} (hfind : (s.tray d.tray).find .claimed d.seq = some p)
    (hclaimer : p.claimer = c + 4096) :
    htrSettle s c r d = htrResult (if d.op = 3 then retirePkt s d.tray p dDONE stOK else unclaimPkt s d.tray d.seq) c r d.idx stOK false 0 := by
  simp only [htrSettle, hfind]
  exact if_neg (not_not.mpr hclaimer)

/-! ### The counterexample -/

/-- A READY packet with an uncorrectable word in its entry on die, which the tray unit has not met yet (R184). -/
def unmetPacket : Packet := { st := .ready, seq := 7, ecc := true }

/-- The counterexample to O56: a part that is on, whose context 1 has announced on its ring 0, at address 0 of the host, one GET of work
tray 64, which holds `unmetPacket`, with room for one word. -/
def unmetError : State :=
  { State.reset with
    start := { State.reset.start with pwrok := true }
    cxl := { State.reset.cxl with up := true, ready := true }
    hostMem := [(0, 5), (6, 64), (0x18, 1)]
    ctxs := [(1, { live := true, regions := [(0, { size := 128, write := true })], htr0 := { log2n := 3, tail := 1 } })]
    trays := [(64, { kind := 1, ctx := 1, ringWords := 8, packets := [unmetPacket] })] }

theorem unmetError_meets : Meets unmetError unmetError := by
  unfold Meets
  decide +kernel

/-- Its descriptor names a GET, may start, is not broken, and meets every condition that the statement sets. -/
theorem unmetError_gets :
    let t := htrBegun unmetError 1 0
    let d := nextLive unmetError 1 0
    let p := unmetPacket
    (htrMayStart unmetError 1 0 = true ∧ htrBad unmetError 1 (nextBytes unmetError 1 0) = false ∧ nextOp unmetError 1 0 = 2)
      ∧ (∀ q ∈ (t.tray d.tray).packets, q.bad = false) ∧ (t.tray d.tray).head = some p ∧ (t.tray d.tray).kind = 1
      ∧ p.nwords ≤ d.bufWords ∧ inRegion (t.ctx 1) d.buf (64 + 64 * p.nwords) true = true := by
  decide +kernel

/-- The GET passes over the packet (R184) and brings the idle packet, of the tray's next SEQ. -/
theorem unmetError_idles :
    ((startHtr unmetError 1 0 (nextOp unmetError 1 0) true).htr 1 0).live.map HtrLive.res = [some (stOK, 1, false)] := by
  decide +kernel

/-- The SEQ that the statement gives the GET is the packet's. -/
theorem unmetError_stated :
    let t := htrBegun unmetError 1 0
    let d := nextLive unmetError 1 0
    let p := unmetPacket
    ((htrResult (htrCopy (claimHead t d.tray (1 + 4096)).1 d.buf (entryBytes (t.tray d.tray) p) (payloadLines t (t.tray d.tray) p)) 1 0 d.idx
      stOK false p.seq).htr 1 0).live.map HtrLive.res = [some (stOK, 7, false)] := by
  decide +kernel

/-- Refutes O56: its clause on GET asks of the packets of the tray only that none is known to be bad, but the head of a tray with an
uncorrectable word in its on-die entry that the tray unit meets only now is passed over as well (R184). The counterexample is `unmetError`,
whose GET brings the idle packet. Of a good head the clause holds (`startHtr_claims`); so do the others on the
start of a descriptor (`startHtr_stopped`, `startHtr_otherOp`, `startHtr_begins`, `htrSettle_claimed`). -/
theorem not_hostTrayRings : ¬ Obligations.HostTrayRings := by
  unfold Obligations.HostTrayRings
  intro h
  obtain ⟨-, -, -, -, -, hstarts⟩ := h 1 0 true unmetError unmetError unmetError_meets
  obtain ⟨⟨hmay, hgood, hop⟩, hnonebad, hhead, hkind, hwords, hin⟩ := unmetError_gets
  obtain ⟨-, -, hrows⟩ := hstarts hmay
  obtain ⟨-, -, -, hget⟩ := hrows hgood
  have hstates := hget _ hop hnonebad hhead hkind hwords hin
  have hres := congrArg (fun t => (t.htr 1 0).live.map HtrLive.res) hstates
  exact absurd (unmetError_idles.symm.trans (hres.trans unmetError_stated)) (by decide)

end Sys2Proof.HostTrayRings

namespace Sys2Proof.MailboxRequests

open Sys2Proof Sys2Proof.Machine

/-! ### The vendor-defined requests of DOE 0 (R335, R461) -/

section

variable {s : State}

/-- A request that does not reach the device has no effect (R457). -/
theorem spdm_unreached {l : Nat} (least : Nat) (f : State → State) (h : linkReaches s l = false) : spdm s l least f = s :=
  if_pos (by simp [h])

/-- A request that needs no place in the exchange, on a die with a valid identity (R451). -/
theorem spdm_taken {l : Nat} (f : State → State) (h : linkReaches s l = true) (hvalid : s.ident.valid = true) : spdm s l 0 f = f s := by
  simp [spdm, h, hvalid]

section

variable {x : Anchor} (h : linkReaches s 8 = true) (hvalid : s.ident.valid = true)

include h hvalid

theorem ringAnchor_inSession (hopen : s.sess.opened = true) : ringAnchor s x = vendorAnswer s stBUSY :=
  (spdm_taken _ h hvalid).trans (if_pos hopen)

variable (hclosed : s.sess.opened = false)

include hclosed

theorem ringAnchor_bad (hbad : anchorBad x = true) : ringAnchor s x = vendorAnswer s stBADPARAM :=
  (spdm_taken _ h hvalid).trans ((if_neg (by simp [hclosed])).trans (if_pos hbad))

variable (hgood : anchorBad x = false)

include hgood

/-- Where the board requires IDE the anchor is placed inside a secured session alone. -/
theorem ringAnchor_unsecured (hide : s.cxl.ideReq = true) (hout : inSession s x.secured = false) :
    ringAnchor s x = vendorAnswer s stAUTH :=
  (spdm_taken _ h hvalid).trans ((if_neg (by simp [hclosed])).trans ((if_neg (by simp [hgood])).trans (if_pos (by simp [hide, hout]))))

theorem ringAnchor_placed (hsecure : s.cxl.ideReq = false ∨ inSession s x.secured = true) :
    ringAnchor s x = vendorAnswer { (s.modCtx 0 fun k => { k with
      live := true, vector := x.vector, cmdBase := x.cmdBase, cmplBase := x.cmplBase, cmdLog2 := x.cmdLog2, cmplLog2 := x.cmplLog2
      cmdTail := 0, cmdRead := 0, aseq := 0, cmplIdx := 0, cmplHead := 0, accepted := 0, badOps := [] }) with
        sess := { s.sess with anchored := true } } stOK := by
  refine (spdm_taken _ h hvalid).trans ((if_neg (by simp [hclosed])).trans ((if_neg (by simp [hgood])).trans (if_neg ?_)))
  rcases hsecure with h | h <;> simp [h]

end

section

variable {req allow : Nat} {rsvd sec : Bool} (h : linkReaches s 8 = true) (hvalid : s.ident.valid = true)

include h hvalid

theorem linkPolicy_unsecured (hout : inSession s sec = false) : linkPolicy s req allow rsvd sec = vendorAnswer s stAUTH :=
  (spdm_taken _ h hvalid).trans (if_pos (by simp [hout]))

/-- The masks that LINK_POLICY refuses: of more than the eight ports, or with a port that must be encrypted and may not. -/
theorem linkPolicy_bad (hin : inSession s sec = true) (hbad : rsvd = true ∨ 255 < req ∨ 255 < allow ∨ (req &&& allow) ≠ req) :
    linkPolicy s req allow rsvd sec = vendorAnswer s stBADPARAM := by
  refine (spdm_taken _ h hvalid).trans ((if_neg (by simp [hin])).trans (if_pos ?_))
  simpa [or_assoc] using hbad

theorem linkPolicy_sets (hin : inSession s sec = true) (hrsvd : rsvd = false) (hreq : req ≤ 255) (hallow : allow ≤ 255)
    (hsub : (req &&& allow) = req) :
    linkPolicy s req allow rsvd sec =
      vendorAnswer ((List.range 8).foldl (policyPort s.ident) (s.modIdent fun d => { d with require := req, allow := allow })) stOK := by
  refine (spdm_taken _ h hvalid).trans ((if_neg (by simp [hin])).trans (if_neg ?_))
  simp [hrsvd, hsub, hreq, hallow]

end

/-! ### Discovery, CDAT and IDE (R328, R329) -/

theorem doeDiscovery_up (mailbox index : Nat) (hup : s.cxl.up = true) :
    doeDiscovery s mailbox index = spdmAnswer s (8 + mailbox) 0 (discovery mailbox index) := if_pos hup

theorem doeDiscovery_down (mailbox index : Nat) (hup : s.cxl.up = false) : doeDiscovery s mailbox index = s := if_neg (by simp [hup])

theorem cdatRead_down (entry : Nat) (hup : s.cxl.up = false) : cdatRead s entry = s := if_neg (by simp [hup])

/-- A key outside a secured session that reaches the device, or for a die without a valid identity, is not taken. -/
theorem ideKm_refused (stream : Nat) (h : linkReaches s 8 = false ∨ (s.link 8).st ≠ 5 ∨ s.ident.valid = false) : ideKm s stream = s := by
  refine if_pos ?_
  rcases h with h | h | h <;> simp [h]

theorem ideKm_keys (stream : Nat) (h : linkReaches s 8 = true) (hst : (s.link 8).st = 5) (hvalid : s.ident.valid = true) :
    ideKm s stream =
      let t := s.modCxl fun x => { x with ideActive := x.ideActive ||| 2 ^ stream }
      if ideOk t && s.start.phase == 0xF then setReady t true else t :=
  if_neg (by simp [h, hst, hvalid])

/-! ### The key epoch of a port (R466) -/

theorem keyUpdateDue_plain {p : Nat} (h : (s.port p).encrypt = false) : keyUpdateDue s p = s := if_pos (by simp [h])

theorem keyUpdateDue_flips {p : Nat} (h : (s.port p).encrypt = true) :
    keyUpdateDue s p =
      let t := if 2 ^ 32 ≤ (s.port p).groupsTx ∨ 2 ^ 32 ≤ (s.port p).groupsRx then s else reach s ((s.port p).keyedAt + 86400000000000)
      flipEpoch (sendMgmt t p 0x10 0 (leBytes 4 4 ++ leBytes 4 0x0001E913 ++ fillBytes 56 0)) p :=
  if_neg (by simp [h])

end

/-- Settles O58: RING_ANCHOR and LINK_POLICY are requests that `spdm_taken` lets through, with a lemma for each of their answers; the other
rows are those of `doeDiscovery_up`, `ideKm_keys` and `keyUpdateDue_flips`. The order of RING_ANCHOR's checks (log 60), the bytes of discovery
and CDAT (log 18) and the time that KEY_UPDATE_DUE reaches (log 23) are the model's. -/
theorem mailboxRequests : Obligations.MailboxRequests := by
  unfold Obligations.MailboxRequests
  intro s a m
  simp only [exec_ringAnchor, exec_linkPolicy, exec_doeDiscovery, exec_cdatRead, exec_ideKm, exec_keyUpdateDue, run_meets m]
  refine ⟨fun x h => congrArg _ (spdm_unreached _ _ h), fun x h hvalid => ⟨?busy, ?bad, ?unsecured, ?placed⟩,
    fun req allow rsvd sec h hvalid => ⟨?outside, ?masks, ?policy⟩, fun p k => ⟨?discovery, ?down⟩, fun hup => ⟨?base, ?latency⟩,
    fun k => ⟨fun h => congrArg _ (ideKm_refused k h), fun h hst hvalid => ?key⟩, fun p => ⟨?plain, ?flip⟩⟩
  case busy => exact fun hopen => congrArg _ (ringAnchor_inSession h hvalid hopen)
  case bad => exact fun hclosed hbad => congrArg _ (ringAnchor_bad h hvalid hclosed hbad)
  case unsecured => exact fun hclosed hgood hide hout => congrArg _ (ringAnchor_unsecured h hvalid hclosed hgood hide hout)
  case placed => exact fun hclosed hgood hsecure => congrArg _ (ringAnchor_placed h hvalid hclosed hgood hsecure)
  case outside => exact fun hout => congrArg _ (linkPolicy_unsecured h hvalid hout)
  case masks => exact fun hin hbad => congrArg _ (linkPolicy_bad h hvalid hin hbad)
  case policy => exact fun hin hrsvd hreq hallow hsub => congrArg _ (linkPolicy_sets h hvalid hin hrsvd hreq hallow hsub)
  case discovery => exact fun hup => congrArg _ (doeDiscovery_up _ _ hup)
  case down => exact fun hup => ⟨congrArg _ (doeDiscovery_down _ _ hup), congrArg _ (cdatRead_down _ hup)⟩
  case base => exact congrArg _ (if_pos hup)
  case latency => exact congrArg _ (if_pos hup)
  case key =>
    rw [ideKm_keys k h hst hvalid]
    refine ⟨fun hheld => congrArg _ (if_neg ?_), fun hok hphase => congrArg _ (if_pos ?_)⟩
    · rcases hheld with h | h <;> simp [h]
    · simp [hok, hphase]
  case plain => exact fun h => congrArg _ (keyUpdateDue_plain h)
  case flip => exact fun h => congrArg _ (keyUpdateDue_flips h)

end Sys2Proof.MailboxRequests

namespace Sys2Proof.PowerAndQueue

open Sys2Proof Sys2Proof.Machine

/-! ### A part without power (R418, R493, log 2) -/

/-- Without power a row that is no edge of PWROK leaves the state as it is: BOARD_RESET looks at power itself, and every other row runs
only in a part that is on. -/
theorem exec_unpowered {c : Instr} {s : State} (hoff : powered s = false) (hedge : isPowerEdge c = false) : exec c s = .next s := by
  cases c
  case powerOn => cases hedge
  case pwrokFall => cases hedge
  case boardReset held i => rw [exec_boardReset, hoff, Bool.false_and, if_neg Bool.false_ne_true, run_off hoff]
  all_goals
    simp only [exec]
    exact run_off hoff _

/-- The queue is no part of what decides on power. -/
theorem powered_pending (s : State) (l : List Instr) : powered { s with pending := l } = powered s := rfl

/-- A step of a part without power takes the front of the queue away, and nothing else. -/
theorem step_unpowered {s : State} (h : Unpowered s) : step s = .next { s with pending := s.pending.tail } := by
  obtain ⟨hoff, hedges⟩ := h
  unfold step
  cases hp : s.pending with
  | nil =>
    have hs : { s with pending := [] } = s := by rw [← hp]
    simp only [idle, hoff, Bool.false_eq_true, if_false, List.tail_nil, hs]
  | cons c rest =>
    rw [hp, List.all_cons, Bool.and_eq_true] at hedges
    exact exec_unpowered hoff (by simpa using hedges.1)

/-- Settles O4: a step only takes the front of the queue away (`step_unpowered`), and the rest of the queue holds no edge of PWROK either. -/
theorem unpoweredStepKeeps : Obligations.UnpoweredStepKeeps := by
  unfold Obligations.UnpoweredStepKeeps
  intro s t h hstep
  rw [step_unpowered h] at hstep
  cases hstep
  obtain ⟨hoff, hedges⟩ := h
  refine ⟨⟨hoff, ?_⟩, rfl⟩
  exact List.all_eq_true.mpr fun c hc => List.all_eq_true.mp hedges c (List.mem_of_mem_tail hc)

/-- Settles O1: the two arms of `step`, and of `idle` on an empty queue. -/
theorem stepRunsQueue : Obligations.StepRunsQueue := by
  unfold Obligations.StepRunsQueue
  refine ⟨fun c rest s hp => ?_, fun s hp => ⟨fun hon => ?_, fun hoff => ?_⟩⟩
  · simp only [step, hp]
  · simp only [step, hp, idle, hon, if_true]
  · simp only [step, hp, idle, hoff, Bool.false_eq_true, if_false]

/-- Settles O2: every register of the reset state is at the default of its field. That memory lists nothing and that nothing waits or runs is
the model's choice (log 7, log 19). -/
theorem resetState : Obligations.ResetState := by
  unfold Obligations.ResetState
  refine ⟨⟨rfl, rfl, reset_memory_wf.1, rfl, rfl, rfl, rfl, rfl, ?cores, ?rakes, ?ctxs, ?trays⟩, ?unpowered⟩
  case cores => exact fun _ => ⟨rfl, rfl⟩
  case rakes => exact fun _ => ⟨rfl, rfl⟩
  case ctxs => exact fun _ => rfl
  case trays => exact fun _ => rfl
  case unpowered => exact ⟨rfl, rfl⟩

/-! ### The start that follows an edge of PWROK or a reset (R408, R418) -/

/-- The block as a start of a cause finds it: with its inputs on the straps, and power. -/
def startFrom (s : State) (cause : Nat) (i : StartInputs) : State :=
  (s.modFaults fun f => { f with lastCause := cause }).modStart fun t =>
    { t with inputs := i, pos := i.pos, bootsrc := i.bootsrc, uartv := i.uartv, pwrok := true
             parts := if i.bootsrc then t.parts else i.parts, mesh := i.bootsrc }

/-- The block with the image of a slot verified, under Dister. -/
def verified (s : State) (i : StartInputs) (slot : Nat) (r : SignedRec) : State :=
  s.modStart fun t => { t with
    slot := slot, imgver := r.version, nocfg := (configOf i).isNone, selfrepair := !repairOk i, dister := true
    tVerified := i.tVerified, tMemup := i.tMemup, tReady := i.tReady }

section

variable {s : State} {i : StartInputs}

theorem beginStart_noFlash {cause : Nat} (hsrc : i.bootsrc = false) (hflash : i.flashAnswers = false) :
    beginStart s cause i = stopStart (startFrom s cause i) (if cause = 0 then 4 else 3) stHWFAULT false false := by
  simp only [beginStart, hsrc, hflash, startFrom, Bool.false_eq_true, Bool.not_false, if_false, if_true]

theorem beginStart_noMesh {cause : Nat} (hsrc : i.bootsrc = true) (hmesh : i.meshAnswers = false) :
    beginStart s cause i = meshBegin (startFrom s cause i) := by
  simp only [beginStart, hsrc, hmesh, startFrom, Bool.false_eq_true, if_false, if_true]

/-- A start with an image source that answers runs; a secondary's trains its boot link first (R422). -/
theorem beginStart_answers {cause : Nat} (h : i.bootsrc = false ∧ i.flashAnswers = true ∨ i.bootsrc = true ∧ i.meshAnswers = true) :
    beginStart s cause i = runStart (if i.bootsrc then bootLink (startFrom s cause i) else startFrom s cause i) := by
  rcases h with ⟨hsrc, hans⟩ | ⟨hsrc, hans⟩ <;>
    simp only [beginStart, hsrc, hans, startFrom, Bool.false_eq_true, Bool.not_true, if_false, if_true]

/-- The boot link leaves the start registers and the fault registers alone. -/
theorem bootLink_frame (s : State) : (bootLink s).start = s.start ∧ (bootLink s).faults = s.faults := by
  unfold bootLink
  simp only
  split <;> exact ⟨rfl, rfl⟩

section

variable (hin : s.start.inputs = i) (hcold : s.faults.lastCause = 0)

include hin hcold

theorem runStart_noImage (hnone : chooseImage i = none) : runStart s = stopStart s 4 stAUTH true false := by
  subst hin
  simp only [runStart, hnone, hcold, bne_self_eq_false, Bool.false_eq_true, if_false]

/-- A cold start with an image that qualifies: LPDDR5X trains or the start stops; memory is cleared, and a bad array stops it there. -/
theorem runStart_cold {slot : Nat} {r : SignedRec} (himg : chooseImage i = some (slot, r)) :
    runStart s = if i.memTrains = false then stopStart (verified s i slot r) 6 stHWFAULT false true
      else if i.badArray = true then stopStart (coldClear (verified s i slot r) 0) 8 stHWFAULT false true
      else coldFinish (coldClear (verified s i slot r) 0) r := by
  subst hin
  have hcause : coldCause (verified s s.start.inputs slot r) r = some 0 := if_pos hcold
  simp only [runStart, himg, hcold, bne_self_eq_false, Bool.false_eq_true, if_false]
  rw [verified] at *
  simp only [hcause, Bool.not_eq_true']

end

end

/-- Settles O3: without power only an edge of PWROK has an effect (`exec_unpowered`); a rising one begins a start of cause 0, whose course is
`runStart_cold`; a falling one is `powerOff`. That the timestamp counter goes on over a loss of power is the model's choice. -/
theorem powerEdges : Obligations.PowerEdges := by
  unfold Obligations.PowerEdges
  refine ⟨fun c s hoff hedge => exec_unpowered hoff hedge, fun i s => ?rise, fun s => ?fall⟩
  case fall => exact ⟨powerOff s, rfl, rfl, rfl, rfl, rfl, rfl, rfl, rfl, rfl, rfl, rfl, rfl⟩
  case rise =>
    intro b0 s0
    have hstart (hlow : s.start.pwrok = false) : powerOn s i = beginStart (powerOff s) 0 i := if_neg (by simp [hlow])
    rw [exec_powerOn]
    refine ⟨fun hhigh => congrArg _ (if_pos hhigh), fun hlow hsrc hflash => ?flash, fun hlow hsrc hmesh => ?mesh, fun hlow hans => ?start⟩
    case flash => rw [hstart hlow, beginStart_noFlash hsrc hflash]; rfl
    case mesh => rw [hstart hlow, beginStart_noMesh hsrc hmesh]; rfl
    case start =>
      have hrun : powerOn s i = runStart s0 := (hstart hlow).trans (beginStart_answers hans)
      have hframe : s0.start = b0.start ∧ s0.faults = b0.faults := by
        show (if i.bootsrc then bootLink b0 else b0).start = _ ∧ (if i.bootsrc then bootLink b0 else b0).faults = _
        split
        · exact bootLink_frame b0
        · exact ⟨rfl, rfl⟩
      have hin : s0.start.inputs = i := congrArg Start.inputs hframe.1
      have hcold : s0.faults.lastCause = 0 := congrArg Faults.lastCause hframe.2
      rw [hrun]
      refine ⟨fun hnone => congrArg _ (runStart_noImage hin hcold hnone), fun slot r himg => ?image⟩
      intro s1
      have hcourse := runStart_cold hin hcold himg
      refine ⟨fun hmem => congrArg _ (hcourse.trans (if_pos hmem)), fun hmem hbad => ?_, fun hmem hbad => ?_⟩
      · exact congrArg _ (hcourse.trans ((if_neg (by simp [hmem])).trans (if_pos hbad)))
      · exact congrArg _ (hcourse.trans ((if_neg (by simp [hmem])).trans (if_neg (by simp [hbad]))))

/-! ### Resets and the trip (R430, R446, R499) -/

/-- A bound on the keys that are kept leaves the reads below it alone. -/
theorem tget_filter_below {α : Type} (d : α) (t : Tab α) {b k : Nat} (h : k < b) :
    tget d (t.filter fun e => decide (e.1 < b)) k = tget d t k := by
  induction t with
  | nil => rfl
  | cons e t ih =>
    obtain ⟨j, x⟩ := e
    by_cases hj : j < b
    · rw [List.filter_cons_of_pos (by simpa using hj)]
      simp only [tget, ih]
    · rw [List.filter_cons_of_neg (by simpa using hj), ih]
      have hne : j ≠ k := by omega
      simp only [tget, if_neg hne]

/-- An entry of the journal stands in the log at the index of its JSEQ (R430). -/
theorem logEntry_jAppend (s : State) (e : JEntry) :
    logEntry (jAppend s e) (s.faults.jnext % 950272) = some { e with jseq := s.faults.jnext, ts := s.now }.bytes := by
  simp [logEntry, jAppend, State.modFaults]

/-- Settles O5: each reset of a part that is on is `beginStart` of `logicReset`, whose parts are fields of its own; the trip is the one branch
of `hardwareTrip`. -/
theorem resetsAndTrip : Obligations.ResetsAndTrip := by
  unfold Obligations.ResetsAndTrip
  refine ⟨fun i s a m hon => ⟨?board, ?rails, ?watchdog, ?fatal, rfl, rfl, rfl, rfl, fun k hk => tget_filter_below 0 a.mem hk⟩,
    fun s a m hon => ?trip, fun s e => ⟨logEntry_jAppend s e, fun i => rfl⟩⟩
  case board =>
    rw [exec_boardReset, Bool.not_true, Bool.and_false, if_neg Bool.false_ne_true, run_meets m]
    exact congrArg _ (if_pos hon)
  case rails => rw [exec_boardReset, m.1, Bool.not_false, Bool.and_true, if_pos rfl]
  case watchdog => rw [exec_watchdog, run_meets m]; exact congrArg _ (if_pos hon)
  case fatal => rw [exec_fatalFaultReset, run_meets m]; exact congrArg _ (if_pos hon)
  case trip =>
    rw [exec_hardwareTrip, run_meets m]
    refine ⟨hardwareTrip a, rfl, ?_⟩
    rw [hardwareTrip, if_pos hon]
    exact ⟨by simp [powered, State.modTrellis, State.modStart], rfl, rfl, rfl, List.forall_mem_map.mpr fun _ _ => rfl⟩

end Sys2Proof.PowerAndQueue

namespace Sys2Proof.MeshBoot

open Sys2Proof Sys2Proof.Machine

/-! ### A secondary that waits for its parts (R421, R422) -/

section

variable {s : State} {p part : Nat}

/-- The pieces of a part that a secondary has so far: a piece of another part begins anew. -/
def collected (s : State) (part : Nat) : List Byte := if s.start.meshPart = part then s.start.meshData else []

/-- The block with no part in transfer. -/
def pieceless (s : State) : State := s.modStart fun t => { t with meshPart := 0, meshData := [] }

/-- The block with a part checked and kept. -/
def partKept (s : State) (part : Nat) : State :=
  s.modStart fun t => { t with meshDone := ninsert t.meshDone part, meshPart := 0, meshData := [] }

/-- The part of a BOOT_END is good: it comes with ST_OK, and its digest is that of its length in the collected pieces; a part of length 0 is
good but for part 1 (log 67). -/
def partGood (s : State) (part len st : Nat) (d : List Byte) : Prop :=
  st = stOK ∧ (len = 0 ∧ part ≠ 1 ∨ len ≠ 0 ∧ len ≤ (collected s part).length ∧ shake256 ((collected s part).take len) 32 = d)

variable (hwait : meshWaiting s = true) (hport : p = 7 - s.start.pos) (hver : (s.port p).version = 2)

include hwait hport hver

/-- A message on the boot link of a secondary that waits, at version 2. -/
theorem atBootLink : (meshWaiting s && bootPort s p && (s.port p).version == 2) = true := by
  have hboot : s.start.bootsrc = true := by
    simp only [meshWaiting, Bool.and_eq_true] at hwait
    exact hwait.1.1.1
  simp [bootPort, hwait, hboot, hport.symm, hver]

theorem bootData_keeps (off : Nat) (b : List Byte) : bootData s p part off b =
    s.modStart fun t => { t with meshPart := part, meshData := placeAt (if t.meshPart = part then t.meshData else []) off b } :=
  if_pos (atBootLink hwait hport hver)

theorem bootEnd_bad {len st : Nat} {d : List Byte} (hbad : ¬ partGood s part len st d) : bootEnd s p part len d st = pieceless s := by
  refine (if_pos (atBootLink hwait hport hver)).trans (if_neg fun hgood => hbad ?_)
  rw [Bool.and_eq_true, beq_iff_eq] at hgood
  refine ⟨hgood.1, ?_⟩
  have hpart := hgood.2
  split at hpart
  · exact .inl ⟨‹_›, bne_iff_ne.mp hpart⟩
  · rw [Bool.and_eq_true, decide_eq_true_eq, beq_iff_eq] at hpart
    exact .inr ⟨‹_›, hpart⟩

theorem bootEnd_good {len st : Nat} {d : List Byte} (hgood : partGood s part len st d) :
    bootEnd s p part len d st = if meshWanted (partKept s part) = 0 then runStart (partKept s part) else partKept s part := by
  refine (if_pos (atBootLink hwait hport hver)).trans (if_pos ?_)
  obtain ⟨hst, hlen⟩ := hgood
  rw [Bool.and_eq_true, beq_iff_eq]
  refine ⟨hst, ?_⟩
  rcases hlen with ⟨hzero, hpart⟩ | ⟨hsome, hfits, hdigest⟩
  · rw [if_pos hzero]
    exact bne_iff_ne.mpr hpart
  · rw [if_neg hsome, Bool.and_eq_true, decide_eq_true_eq, beq_iff_eq]
    exact ⟨hfits, hdigest⟩

end

/-! ### Position 0 (R415, R421) -/

section

variable {s : State} {p : Nat} (hpos : s.start.pos = 0) (hdister : s.start.dister = true) (hp : p ≤ 6)

include hpos hdister hp

theorem bootReq_answers {die pos mask : Nat} (hver : (s.port p).version = 2) (hup : 2 ≤ (s.port p).state) (hfrom : pos = p + 1) :
    bootReq s p die pos mask = [1, 2, 3, 4].foldl (fun s k =>
      if mask.testBit k then bootPart s p 0x02 k stOK
        (((s.start.parts.find? fun e => e.1 == k && e.2.1 == (if k = 2 ∨ k = 3 then die else 0)).map (·.2.2)).getD [])
      else s) s := by
  refine (if_neg ?_).trans ?_
  · simp [hpos, hdister, hver, hfrom, Nat.not_lt.mpr hp, Nat.not_lt.mpr hup]
  · have hfour : (List.range 4).map (· + 1) = [1, 2, 3, 4] := rfl
    rw [hfour]
    congr 1
    funext s k
    congr 2
    simp only
    cases s.start.parts.find? fun e => e.1 == k && e.2.1 == (if k = 2 ∨ k = 3 then die else 0) <;> rfl

/-- The BOOT_END that closes a training record at position 0. -/
theorem bootEnd_training {part st die : Nat} {l : List Byte} (hsrc : s.start.bootsrc = false) (hput : s.start.trainPut = some (die, l)) :
    bootEnd s p part l.length (shake256 l 32) st = bootMsg ((keepTraining s die l).modStart fun t => { t with trainPut := none })
      p 0x03 3 0 (leBytes 8 l.length ++ shake256 l 32 ++ leBytes 2 stOK) := by
  have hprimary : meshWaiting s = false := by simp [meshWaiting, hsrc]
  simp only [bootEnd, hprimary, hput, Bool.false_and, Bool.false_eq_true, if_false, List.take_length]
  exact if_pos (by simp [hpos, hdister, hp])

theorem trainPut_begins {die : Nat} {b : List Byte} (hver : (s.port p).version = 2) (hup : 2 ≤ (s.port p).state)
    (hnone : s.start.trainPut = none) : trainPut s p die b = s.modStart fun t => { t with trainPut := some (die, b) } := by
  refine (if_pos (by simp [hpos, hdister, hp, hver, hup])).trans ?_
  simp only [State.modStart, hnone]

end

/-! ### BOOT_RETRY and MESH_BOOT_RESTART (R422) -/

section

variable {s : State} (hwait : meshWaiting s = true)

include hwait

theorem bootRetry_eq (hgo : s.start.waitmesh = false) : bootRetry s =
    if s.start.meshTries < 10 then
      askParts (s.modStart fun t => { t with meshTries := t.meshTries + 1, meshPart := 0, meshData := [] }) (meshWanted s)
    else s.modStart fun t => { t with waitmesh := true } :=
  if_neg (by simp [hwait, hgo])

theorem meshRestart_begins (hheld : s.start.waitmesh = true) : meshRestart s = meshBegin s := if_pos (by simp [hwait, hheld])

end

/-- Settles O6: each row is the lemma on its operation. That a mask's bit asks for the part of its number, that parts of length 0 other than
part 1 count as good, and that the last good part starts the secondary are the model's reading (log 67). -/
theorem meshBoot : Obligations.MeshBoot := by
  unfold Obligations.MeshBoot
  intro s a m
  simp only [exec_bootReq, exec_bootData, exec_bootEnd, exec_trainPut, exec_bootRetry, exec_meshBootRestart, run_meets m]
  refine ⟨fun p die pos mask hpos hd hp hver hup hfrom => congrArg _ (bootReq_answers hpos hd hp hver hup hfrom),
    fun p part off b hwait hport hver => congrArg _ (bootData_keeps hwait hport hver off b),
    fun p part len st d hwait hport hver => ?ends,
    fun p part st die l hpos hd hsrc hp hput => congrArg _ (bootEnd_training hpos hd hp hsrc hput),
    fun p die b hpos hd hp hver hup hnone => congrArg _ (trainPut_begins hpos hd hp hver hup hnone),
    fun hwait hgo => ⟨fun htries => ?retry, fun htries => ?waits⟩,
    fun hwait hheld => congrArg _ (meshRestart_begins hwait hheld)⟩
  case ends =>
    exact ⟨fun hbad => congrArg _ (bootEnd_bad hwait hport hver hbad),
      fun hgood hmore => congrArg _ ((bootEnd_good hwait hport hver hgood).trans (if_neg hmore)),
      fun hgood hlast => congrArg _ ((bootEnd_good hwait hport hver hgood).trans (if_pos hlast))⟩
  case retry => exact congrArg _ ((bootRetry_eq hwait hgo).trans (if_pos htries))
  case waits => exact congrArg _ ((bootRetry_eq hwait hgo).trans (if_neg (by omega)))

end Sys2Proof.MeshBoot

namespace Sys2Proof.WordEncoding

open Sys2Proof Sys2Proof.Machine

/-! ### The fields of a program word -/

/-- OP of a program word is its lowest byte. -/
theorem mkWord_op (op : BitVec 8) (f : BitVec 120) : (mkWord op f).extractLsb' 0 8 = op := BitVec.extractLsb'_append_eq_right

/-- The bits above OP of a program word. -/
theorem mkWord_fields (op : BitVec 8) (f : BitVec 120) : (mkWord op f).extractLsb' 8 120 = f := BitVec.extractLsb'_append_eq_left

/-! ### MODE of AMUL (Table 4-1) -/

/-- MODE of a word, as the decoder and the checks of a row read it. -/
theorem mode_toNat (f : BitVec 120) : (f.extractLsb' 30 4).toNat = fieldOf f 38 4 := by
  simp [fieldOf]

/-- Writing the MODE that already stands there changes nothing. -/
theorem modeBits_same {m : BitVec 4} {f : BitVec 120} (h : fieldOf f 38 4 = m.toNat) : modeBits m f = f := by
  have hm : f.extractLsb' 30 4 = m := BitVec.eq_of_toNat_eq ((mode_toNat f).trans h)
  have hmask : 0xF#120 = (BitVec.allOnes 4).setWidth 120 := rfl
  subst hm
  ext i hi
  simp only [modeBits, hmask, BitVec.getElem_or, BitVec.getElem_and, BitVec.getElem_not, BitVec.getElem_shiftLeft, BitVec.getElem_setWidth,
    BitVec.getLsbD_extractLsb', BitVec.getLsbD_allOnes]
  by_cases hlo : i < 30
  · simp [hlo]
  · have hback : 30 + (i - 30) = i := by omega
    by_cases hhi : i - 30 < 4 <;> simp [hlo, hhi, hback, BitVec.getLsbD_eq_getElem hi]

/-- An AMUL word of no comparison MODE is an AMUL. -/
theorem amulRow_amul (c : CoreId) {f : BitVec 120} (h : (fieldOf f 38 4 == 0 || decide (fieldOf f 38 4 ≥ 8)) = true) : amulRow c f = .amul c f := by
  rw [amulRow, mode_toNat]
  generalize fieldOf f 38 4 = m at h
  split
  case h_8 => rfl
  all_goals exact absurd h (by decide)

/-! ### The row of a word -/

/-- The row of an AMUL word is that of its MODE. -/
theorem instrOfWord_amul (c : CoreId) (f : BitVec 120) : instrOfWord c (mkWord 0x02 f) = amulRow c f := by
  rw [instrOfWord, mkWord_op, mkWord_fields]
  rfl

/-- A comparison word has its MODE in place (Instr.wf), and is read by it. -/
theorem instrOfWord_mode {c : CoreId} {m : BitVec 4} {f : BitVec 120} {i : Instr} (h : (fieldOf f 38 4 == m.toNat) = true)
    (hrow : (f.extractLsb' 30 4).toNat = m.toNat → amulRow c f = i) : instrOfWord c (mkWord 0x02 (modeBits m f)) = i := by
  have hm := beq_iff_eq.mp h
  rw [modeBits_same hm, instrOfWord_amul]
  exact hrow ((mode_toNat f).trans hm)

/-- MRING has an OP for each mover. -/
theorem instrOfWord_mring (c : CoreId) (m : Fin 2) (f : BitVec 120) : instrOfWord c (mkWord (mringOp m) f) = .mring c m f := by
  match m with
  | 0 => rw [instrOfWord, mkWord_op, mkWord_fields]; rfl
  | 1 => rw [instrOfWord, mkWord_op, mkWord_fields]; rfl

/-- MKICK has an OP for each mover. -/
theorem instrOfWord_mkick (c : CoreId) (m : Fin 2) (f : BitVec 120) : instrOfWord c (mkWord (mkickOp m) f) = .mkick c m f := by
  match m with
  | 0 => rw [instrOfWord, mkWord_op, mkWord_fields]; rfl
  | 1 => rw [instrOfWord, mkWord_op, mkWord_fields]; rfl

/-- A word of NOP's own OP, or of one that no row lists, is a NOP (log 11). -/
theorem instrOfWord_nop (c : CoreId) {w : W128} (h : (w.toNat % 256 == 0x10 || opReserved (w.toNat % 256)) = true) :
    instrOfWord c w = .nop c w := by
  have hop : (w.extractLsb' 0 8).toNat = w.toNat % 256 := by simp
  rw [instrOfWord, hop]
  generalize w.toNat % 256 = o at h
  split
  case h_65 => rfl
  all_goals exact absurd h (by decide)

/-- Settles O7: a row's own OP is read back from its word, and the bits above it with it; AMUL's rows are told apart by MODE, those of the
movers by their two OP values, and an OP outside the tables is a NOP. -/
theorem wordRoundTrip : Obligations.WordRoundTrip := by
  unfold Obligations.WordRoundTrip
  intro i c w hwf hword
  cases i
  all_goals simp only [wordOf, Option.some.injEq, Prod.mk.injEq, reduceCtorEq] at hword
  all_goals obtain ⟨rfl, rfl⟩ := hword
  case nop => exact instrOfWord_nop _ hwf
  case amul => exact (instrOfWord_amul _ _).trans (amulRow_amul _ hwf)
  case distSq | distAbs | distMax | selMax | selMin | foldMax | foldMin =>
    refine instrOfWord_mode hwf fun hmode => ?_
    rw [amulRow, hmode]
    rfl
  case mring => exact instrOfWord_mring _ _ _
  case mkick => exact instrOfWord_mkick _ _ _
  all_goals
    rw [instrOfWord, mkWord_op, mkWord_fields]
    rfl

end Sys2Proof.WordEncoding

namespace Sys2Proof.CommandRows

open Sys2Proof Sys2Proof.Machine

/-! ### Little-endian fields of a byte string -/

theorem length_leBytes (n x : Nat) : (leBytes n x).length = n := by
  induction n generalizing x with
  | zero => rfl
  | succ n ih => rw [leBytes, List.length_cons, ih]

theorem leNat_leBytes (n x : Nat) : leNat (leBytes n x) = x % 256 ^ n := by
  induction n generalizing x with
  | zero => rw [leBytes, leNat, Nat.pow_zero, Nat.mod_one]
  | succ n ih => rw [leBytes, leNat, ih, BitVec.toNat_ofNat, pow_succ' 256 n, Nat.mod_mul]

/-- A field of a byte string that is built of fields. -/
theorem leNat_field {pre post : List Byte} {o n x : Nat} (ho : pre.length = o) :
    leNat (((pre ++ leBytes n x ++ post).drop o).take n) = x % 256 ^ n := by
  rw [List.append_assoc, List.drop_left' ho, List.take_left' (length_leBytes n x), leNat_leBytes]

/-! ### A completion record (Table 14-3) -/

section

variable (y : Ctx) (n : Nat) (k : Cmd) (disp st res now : Nat)

/-- The phase bit of a completion record, in its byte. -/
def phaseBit (y : Ctx) : Nat := if y.cmplIdx / 2 ^ y.cmplLog2 % 2 = 0 then 4 else 0

/-- The nine fields of a completion record, in their order. -/
def recordFields : List (Nat × Nat) :=
  [(4, k.hdr.cmdid), (1, k.op), (1, disp + phaseBit y), (2, n), (2, st), (2, 0), (4, k.aseq), (8, if disp = dDONE then res else 0), (8, now)]

/-- A byte string of fields. -/
def fieldBytes (l : List (Nat × Nat)) : List Byte := l.flatMap fun e => leBytes e.1 e.2

/-- The place of a field behind others. -/
def widthOf (l : List (Nat × Nat)) : Nat := (l.map Prod.fst).sum

theorem length_fieldBytes (l : List (Nat × Nat)) : (fieldBytes l).length = widthOf l := by
  simp only [fieldBytes, widthOf, List.length_flatMap, length_leBytes]

/-- The field behind the first `i` of a list of fields. -/
theorem leNat_fieldBytes {l : List (Nat × Nat)} {i : Nat} (hi : i < l.length) :
    leNat (((fieldBytes l).drop (widthOf (l.take i))).take l[i].1) = l[i].2 % 256 ^ l[i].1 := by
  have hsplit : fieldBytes l = fieldBytes (l.take i) ++ leBytes l[i].1 l[i].2 ++ fieldBytes (l.drop (i + 1)) := by
    conv_lhs => rw [← List.take_append_drop i l, List.drop_eq_getElem_cons hi]
    simp only [fieldBytes, List.flatMap_append, List.flatMap_cons, List.append_assoc]
  rw [hsplit, leNat_field (length_fieldBytes _)]

theorem recordBytes_eq : recordBytes y n k disp st res now = fieldBytes (recordFields y n k disp st res now) := by
  simp [recordBytes, fieldBytes, recordFields, phaseBit]

/-- A field of the record lies where Table 14-3 puts it. -/
theorem leNat_recordBytes {i : Nat} (hi : i < (recordFields y n k disp st res now).length) :
    leNat (((recordBytes y n k disp st res now).drop (widthOf ((recordFields y n k disp st res now).take i))).take
      (recordFields y n k disp st res now)[i].1) = (recordFields y n k disp st res now)[i].2 % 256 ^ (recordFields y n k disp st res now)[i].1 := by
  rw [recordBytes_eq]
  exact leNat_fieldBytes hi

end

/-! ### The turn of a command (R337) -/

/-- A command that failed a check settles with the status of that check. -/
theorem startCmd_refused {s : State} {c st : Nat} {k : Cmd} (h : k.why = some st) : startCmd s c k = refuse s c k.aseq st := by
  simp [startCmd, h]

/-- Settles O43: a row reads its command in its turn (`readCmd_turn`, `readCmd_not`), and on an otherwise empty ring the command settles with
the status of its failed check or starts; the fields of a completion record lie one behind another (`leNat_fieldBytes`). -/
theorem commandsTaken : Obligations.CommandsTaken := by
  unfold Obligations.CommandsTaken
  intro i c r s a hrow m
  obtain ⟨hexec, -, hstarted, -⟩ := exec_cmdRow hrow m
  refine ⟨fun hnot => ?later, fun hturn => ?turn, fun hturn hcmds hbad hst => ?refused, fun t k hs => starts_exec hs,
    fun y n k disp st res now => ?record⟩
  case later => rw [hexec, readCmd_not hnot]
  case turn => rw [hexec, readCmd_turn hturn]
  case refused =>
    have hwhy : (acceptedCmd a c r).why = some (headerStatus a c r) := if_pos hst
    rw [hexec, readCmd_turn hturn, pump_accept hcmds hbad hstarted (by simp [hwhy]), startCmd_refused hwhy]
    rfl
  case record =>
    intro b f hdisp
    have field (i : Nat) (hi : i < 9) := leNat_recordBytes y n k disp st res now (i := i) hi
    have hdispByte : disp + phaseBit y < 256 := by
      unfold phaseBit
      split <;> omega
    refine ⟨?_, field 0 (by decide), field 1 (by decide), ?_, field 3 (by decide), field 4 (by decide), field 5 (by decide),
      field 6 (by decide), ?_, field 8 (by decide)⟩
    · rw [show b = _ from recordBytes_eq y n k disp st res now, length_fieldBytes]
      rfl
    · exact (field 2 (by decide)).trans (Nat.mod_eq_of_lt hdispByte)
    · refine (field 7 (by decide)).trans ?_
      show (if disp = dDONE then res else 0) % 2 ^ 64 = _
      rw [apply_ite (· % 2 ^ 64), Nat.zero_mod]

end Sys2Proof.CommandRows

namespace Sys2Proof.SessionRingCommands

open Sys2Proof Sys2Proof.Machine Sys2Proof.PegRingCommands

/-! ### The operation of a command of a session that starts (Table 14-7) -/

section

variable {t : State} {c : Nat} {k : Cmd}

theorem startByOp_sessionOpen (hop : k.op = 0x01) : startByOp t c k = startSession t c k := by
  simp only [startByOp, hop]

theorem startByOp_sessionClose (hop : k.op = 0x02) : startByOp t c k = startSessionClose t c k := by
  simp only [startByOp, hop]

theorem startByOp_ctxCreate (hop : k.op = 0x10) : startByOp t c k = startCtxCreate t c k := by
  simp only [startByOp, hop]

theorem startByOp_ctxDestroy (hop : k.op = 0x11) : startByOp t c k = startCtxDestroy t c k := by
  simp only [startByOp, hop]

theorem startByOp_ctxConfig (hop : k.op = 0x12) : startByOp t c k = startCtxConfig t c k := by
  simp only [startByOp, hop]

end

section

variable {s : State} {c : Nat} {k : Cmd}

/-! ### SESSION_OPEN and SESSION_CLOSE (R344, R346) -/

/-- Whether a SESSION_OPEN adopts the contexts that stand. -/
def adopts (k : Cmd) : Bool := bitsAt (k.fld 4 1) 1 1 == 1

/-- The block with its contexts adopted by the new session, or destroyed. -/
def inherited (s : State) (k : Cmd) : State :=
  if adopts k then (otherCtxs s).foldl (fun s n => s.modCtx n fun x => { x with orphan := false, fresh := true }) s
  else (otherCtxs s).foldl destroyCtx s

/-- The block with a session open, and the console locked. -/
def sessionBegun (s : State) (v : Nat) : State :=
  { (s.modFaults fun f => { f with hostlost := false }) with
    sess := { s.sess with opened := true, version := v, number := s.sess.number + 1 }, svc := { s.svc with locked := true, lockAfter := false } }

/-- The fields of a SESSION_OPEN whose highest common version is `v` (R344). -/
structure OpenFields (s : State) (k : Cmd) (v : Nat) : Prop where
  version : (versions.filter fun v => k.fld 0 2 ≤ v && v ≤ k.fld 2 2).getLast? = some v
  range : k.fld 0 2 ≤ k.fld 2 2
  rsvd : parRsvd k [(0, 5)] = false
  flags : k.fld 4 1 ≤ 3
  flagsVersion : k.fld 4 1 ≠ 0 → 0x202 ≤ v
  takeover : s.sess.opened = true → k.fld 4 1 % 2 = 1

/-- A SESSION_OPEN while no test runs. -/
theorem startSession_good {v : Nat} (h : OpenFields s k v) (hidle : s.svc.running = []) : startSession s c k =
    settle (sessionBegun (inherited s k) v) c k.aseq dDONE stOK (v + (if adopts k then (otherCtxs s).length else 0) * 2 ^ 16) := by
  obtain ⟨hversion, hrange, hrsvd, hflags, hflagsVersion, htake⟩ := h
  rw [startSession, if_neg (by simp [hidle]), startSessionOpen]
  simp only [hversion]
  refine (if_neg ?fields).trans ((if_neg ?old).trans ((if_neg ?busy).trans ?begins))
  case fields =>
    simp only [hrsvd, Bool.false_or, Bool.or_eq_true, decide_eq_true_eq, not_or]
    omega
  case old => exact fun h => absurd (hflagsVersion h.1) (Nat.not_le.mpr h.2)
  case busy =>
    rw [Bool.and_eq_true, beq_iff_eq]
    exact fun h => absurd (htake h.1) (by omega)
  case begins =>
    simp only [hidle, List.any_nil, Bool.and_false, Bool.not_false]
    rfl

/-- SESSION_CLOSE destroys every context but 0, and settles in its turn. -/
theorem startSessionClose_eq : startSessionClose s c k =
    closeSession (modCmd ((otherCtxs s).foldl destroyCtx s) c k.aseq fun k => { k with mark := (otherCtxs s).length }) := rfl

/-- A started SESSION_CLOSE that stands first on context 0 settles, and closes the session (R346). -/
theorem closeSession_first {r : Cmd} {l : List Cmd} (hfirst : (s.ctx 0).cmds = r :: l) (hclose : r.op = 0x02 ∧ r.started = true) :
    closeSession s = { settle s 0 r.aseq dDONE stOK r.mark with sess := { s.sess with opened := false, version := 0 } } := by
  simp only [closeSession, hfirst]
  exact if_pos hclose

theorem closeSession_other {r : Cmd} {l : List Cmd} (hfirst : (s.ctx 0).cmds = r :: l) (hother : ¬ (r.op = 0x02 ∧ r.started = true)) :
    closeSession s = s := by
  simp only [closeSession, hfirst]
  exact if_neg hother

/-! ### CTX_CREATE, CTX_DESTROY and CTX_CONFIG (R350 to R352) -/

/-- The context that a CTX_CREATE describes. -/
def newCtx (k : Cmd) : Ctx :=
  { live := true, prio := k.fld 2 1, cls := k.fld 3 1, pegQuota := k.fld 4 2, vector := k.fld 6 2, memQuota := k.fld 8 4, cores := maskBits 128 (k.fld 0x10 16)
    cmdBase := k.fld 0x20 8, cmdLog2 := k.fld 0x28 1, cmplLog2 := k.fld 0x29 1, cmplBase := k.fld 0x30 8 }

/-- The fields of a CTX_CREATE that R351 asks for. -/
structure CreateFields (k : Cmd) : Prop where
  rsvd : parRsvd k [(0, 12), (0x10, 26), (0x30, 8)] = false
  number : k.fld 0 2 ≤ 4095
  prio : (newCtx k).prio ≤ 7
  cls : (newCtx k).cls ≤ 15
  pegs : (newCtx k).pegQuota ≤ 4096
  vectorLo : 1 ≤ (newCtx k).vector
  vectorHi : (newCtx k).vector ≤ 2047
  cores : (newCtx k).cores ≠ []
  memory : 2432 * (newCtx k).cores.length ≤ (newCtx k).memQuota * 1024
  cmdBase : (newCtx k).cmdBase % 4096 = 0
  cmplBase : (newCtx k).cmplBase % 4096 = 0
  cmdLo : 6 ≤ (newCtx k).cmdLog2
  cmdHi : (newCtx k).cmdLog2 ≤ 16
  cmplLo : 6 ≤ (newCtx k).cmplLog2
  cmplHi : (newCtx k).cmplLog2 ≤ 16

/-- The number of a new context: the one asked for, or the lowest free one (log 55). -/
def takesNumber (s : State) (k : Cmd) (n : Nat) : Prop :=
  (k.fld 0 2 = n ∧ n ≠ 0 ∧ (s.ctx n).live = false) ∨ (k.fld 0 2 = 0 ∧ (countFrom 1 4095).find? (fun i => !(s.ctx i).live) = some n)

theorem takesNumber_free {n : Nat} (h : takesNumber s k n) :
    (k.fld 0 2 != 0 && (s.ctx (k.fld 0 2)).live) = false
      ∧ (if k.fld 0 2 ≠ 0 then some (k.fld 0 2) else (countFrom 1 4095).find? fun i => !(s.ctx i).live) = some n := by
  rcases h with ⟨rfl, hne, hfree⟩ | ⟨hzero, hlowest⟩
  · exact ⟨by simp [hfree], if_pos hne⟩
  · exact ⟨by simp [hzero], (if_neg (by simp [hzero])).trans hlowest⟩

theorem startCtxCreate_good {n : Nat} (hk : CreateFields k)
    (hheap : s.image.isSome = true → heapUsed s + saveBytes (newCtx k) ≤ heapSize s)
    (hslots : (newCtx k).cores.length ≤ (slotsFor s (newCtx k).cls (newCtx k).cores.length).length) (hn : takesNumber s k n) :
    startCtxCreate s c k = settle (s.setCtx n { newCtx k with slots := slotsFor s (newCtx k).cls (newCtx k).cores.length }) c k.aseq dDONE stOK n := by
  obtain ⟨hrsvd, hnumber, hprio, hcls, hpegs, hveclo, hvechi, hcores, hmemory, hcmd, hcmpl, hcmdlo, hcmdhi, hcmpllo, hcmplhi⟩ := hk
  obtain ⟨hfree, hnum⟩ := takesNumber_free hn
  refine (if_neg ?fields).trans ?_
  case fields =>
    simp only [newCtx] at *
    simp only [hrsvd, hfree, hcmd, hcmpl, List.isEmpty_iff, hcores, Bool.or_eq_true, decide_eq_true_eq, bne_iff_ne, beq_iff_eq]
    simp only [Bool.false_eq_true, ne_eq, not_true_eq_false, or_false, false_or]
    omega
  simp only [hnum]
  refine if_neg ?_
  simp only [newCtx] at *
  simp only [Bool.or_eq_true, Bool.and_eq_true, decide_eq_true_eq, not_or, not_and, Nat.not_lt]
  exact ⟨hheap, hslots⟩

theorem startCtxDestroy_good (htarget : k.hdr.target ≠ 0) (hlive : (s.ctx k.hdr.target).live = true) :
    startCtxDestroy s c k = settle (destroyCtx s k.hdr.target) c k.aseq dDONE stOK 0 :=
  if_neg (by simp [htarget, hlive])

/-- The far ranges that a CTX_CONFIG brings as extended data, in number. -/
def farCount (k : Cmd) : Nat := if (configSections k.par).contains 5 then k.fld (sectionAt k.par 5 + 4) 2 else 0

theorem startCtxConfig_good {y : Ctx} {far : List Byte} (hlive : (s.ctx k.hdr.target).live = true ∨ k.hdr.target = 0)
    (hok : (s.ctx k.hdr.target).faulted = false)
    (hfar : (if farCount k = 0 then Except.ok [] else readExt s c k.hdr.haddr (16 * farCount k)) = .ok far)
    (hy : configured s k.hdr.target k far = .ok y) :
    startCtxConfig s c k = settle (if (configSections k.par).contains 6 then moveHeld (s.setCtx k.hdr.target y) k.hdr.target
      else s.setCtx k.hdr.target y) c k.aseq dDONE stOK 0 := by
  rw [farCount] at hfar
  refine (if_neg ?_).trans ((if_neg (by simp [hok])).trans ?_)
  · rcases hlive with h | h <;> simp [h]
  · simp only [hfar, hy]

end

/-- Settles O44: a command starts by its opcode, and each start is a lemma about the operation. That CTX 0 takes the lowest free number
(log 55), that SESSION_OPEN locks the console (log 61) and that CTX_CREATE places the save slots (log 86) are the model's choices. -/
theorem sessionAndContextCommands : Obligations.SessionAndContextCommands := by
  unfold Obligations.SessionAndContextCommands
  intro c k s t x h p
  refine ⟨fun v hs hversion hrange hrsvd hflags hold htake hidle => ?opens, fun hs => ?closes,
    fun u r l hfirst => ⟨fun hclose => closeSession_first hfirst hclose, fun hother => closeSession_other hfirst hother⟩,
    fun n hs => ?create, fun hs htarget hlive => ?destroy, fun y far hs hlive hok => ?config⟩
  case opens =>
    exact exec_of_start hs ((startByOp_sessionOpen (op_of_starts hs rfl)).trans
      (startSession_good ⟨hversion, hrange, hrsvd, hflags, hold, htake⟩ hidle))
  case closes => exact exec_of_start hs ((startByOp_sessionClose (op_of_starts hs rfl)).trans startSessionClose_eq)
  case create =>
    intro y hrsvd hnumber hprio hcls hpegs hveclo hvechi hcores hmemory hcmd hcmpl hcmdlo hcmdhi hcmpllo hcmplhi hheap hslots hn
    exact exec_of_start hs ((startByOp_ctxCreate (op_of_starts hs rfl)).trans
      (startCtxCreate_good ⟨hrsvd, hnumber, hprio, hcls, hpegs, hveclo, hvechi, hcores, hmemory, hcmd, hcmpl, hcmdlo, hcmdhi, hcmpllo, hcmplhi⟩
        hheap hslots hn))
  case destroy => exact exec_of_start hs ((startByOp_ctxDestroy (op_of_starts hs rfl)).trans (startCtxDestroy_good htarget hlive))
  case config =>
    intro farN hfar hy
    exact exec_of_start hs ((startByOp_ctxConfig (op_of_starts hs rfl)).trans (startCtxConfig_good hlive hok hfar hy))

end Sys2Proof.SessionRingCommands

namespace Sys2Proof.StageRingCommands

open Sys2Proof Sys2Proof.Machine Sys2Proof.PegRingCommands

/-! ### The operation of a stage or tray command that starts (Table 14-7) -/

section

variable {t : State} {c : Nat} {k : Cmd}

theorem startByOp_stageLoad (hop : k.op = 0x20) : startByOp t c k = startStageLoad t c k := by
  simp only [startByOp, hop]

theorem startByOp_stageDrain (hop : k.op = 0x21) : startByOp t c k = startStageDrain t c k := by
  simp only [startByOp, hop]

theorem startByOp_trayConfig (hop : k.op = 0x30) : startByOp t c k = startTrayConfig t c k := by
  simp only [startByOp, hop]

theorem startByOp_trayFlush (hop : k.op = 0x31) : startByOp t c k = startTrayFlush t c k := by
  simp only [startByOp, hop]

/-- A STAGE_LOAD that starts brings the image of its row (log 10). -/
theorem img_of_starts {s : State} {x : CtxId} {h : CmdHdr} {p : List Byte} {im : Image} (hs : Starts (.stageLoad x h p im) s t c k) :
    k.img = some im := by
  obtain ⟨y, r, hrow, -, himg, -⟩ := starts_op hs
  obtain ⟨-, rfl⟩ := Prod.mk.inj (Option.some.inj hrow)
  exact himg

end

section

variable {s : State} {c : Nat} {k : Cmd}

/-! ### STAGE_LOAD and STAGE_DRAIN (R154, R353) -/

/-- The tracts that a STAGE_LOAD reserves. -/
def reservedTracts (k : Cmd) : Nat := if k.fld 0x10 1 = 0 then 16 else k.fld 0x10 1

/-- The node and the address at which the image of a STAGE_LOAD lies, and its length. -/
def imageNode (k : Cmd) : Nat := k.fld 0 8 / 2 ^ 48
def imageAddr (k : Cmd) : Nat := k.fld 0 8 % 2 ^ 48
def imageLen (k : Cmd) : Nat := k.fld 8 8

/-- The image of a STAGE_LOAD can be read whole: from host memory in the ring's regions, or from this chip's host-managed memory. -/
def ImageReads (s : State) (c : Nat) (k : Cmd) : Prop :=
  (imageNode k = 0xFFFE ∧ inRegion (s.ctx c) (imageAddr k) (imageLen k) false = true ∧ s.cxl.up = true
      ∧ (spanLines 64 (imageAddr k) (imageLen k)).any s.hostPoison.contains = false)
    ∨ (imageNode k ≠ 0xFFFE ∧ (imageNode k = s.salt.node ∨ imageNode k = 0xFFFF) ∧ hdmStart s ≤ imageAddr k
      ∧ inLp (imageAddr k) (imageLen k) = true ∧ isPoisoned s (imageAddr k) (imageLen k) = false)

/-- The block with an image in it, and the modes of the tracts past the pool (R154). -/
def loaded (s : State) (k : Cmd) (im : Image) : State :=
  { s with
    image := some im, nRes := reservedTracts k, spSplit := im.split, spReserve := im.reserve, solo := [], affinity := []
    tractModes := (im.tractModes.filter fun e => decide (5 + reservedTracts k ≤ e.1)).foldl (fun t e => tput 0 t e.1 e.2)
      (s.tractModes.filter fun e => decide (e.1 < 5)) }

/-- What a STAGE_LOAD asks of its fields, of the stage and of the image. -/
structure Loads (s : State) (c : Nat) (k : Cmd) (im : Image) : Prop where
  rsvd : parRsvd k [(0, 17)] = false
  tractsLo : 4 ≤ reservedTracts k
  tractsHi : reservedTracts k ≤ 128
  noImage : s.image = none
  noDrain : s.draining = none
  reads : ImageReads s c k
  fmtLo : 0x400 ≤ im.fmtVer
  fmtHi : im.fmtVer ≤ 0x402
  digest : im.digestOk = true
  fits : imageFits s im (reservedTracts k) = true
  good : imageBad im = false

theorem startStageLoad_good {im : Image} (hk : Loads s c k im) (himg : k.img = some im) : startStageLoad s c k =
    match placeAll (loaded s k im) with
    | none => refuse s c k.aseq stNOMEM
    | some u => settle (setMeas (writePieces u (im.content.map fun e => (e.1, [e.2]))) 7 im.digest) c k.aseq dDONE stOK im.fmtVer := by
  obtain ⟨hrsvd, hlo, hhi, himage, hdrain, hreads, hfmtlo, hfmthi, hdigest, hfits, hgood⟩ := hk
  simp only [reservedTracts, ImageReads, imageNode, imageAddr, imageLen] at *
  simp only [startStageLoad, himg, Option.getD_some]
  refine (if_neg ?fields).trans ((if_neg (by simp [himage, hdrain])).trans ((if_neg ?region).trans ((if_neg ?device).trans ((if_neg ?link).trans
    ((if_neg ?poison).trans ((if_neg (by omega)).trans ((if_neg (by simp [hdigest])).trans ((if_neg (by simp [hfits])).trans
    ((if_neg (by simp [hgood])).trans rfl)))))))))
  case fields =>
    have htracts : k.fld 0x10 1 = 0 ∨ 4 ≤ k.fld 0x10 1 ∧ k.fld 0x10 1 ≤ 128 := by
      by_cases hzero : k.fld 0x10 1 = 0
      · exact .inl hzero
      · rw [if_neg hzero] at hlo hhi
        exact .inr ⟨hlo, hhi⟩
    have hnode : k.fld 0 8 / 2 ^ 48 = 0xFFFE ∨ k.fld 0 8 / 2 ^ 48 = s.salt.node ∨ k.fld 0 8 / 2 ^ 48 = 0xFFFF :=
      hreads.imp And.left fun h => h.2.1
    simp only [hrsvd, Bool.false_or, Bool.or_eq_true, Bool.and_eq_true, decide_eq_true_eq, bne_iff_ne]
    omega
  case region =>
    rcases hreads with ⟨-, hin, -⟩ | ⟨hnode, -⟩
    · exact fun h => absurd h.2 (by rw [hin]; decide)
    · exact fun h => hnode h.1
  case device =>
    rcases hreads with ⟨hnode, -⟩ | ⟨-, -, hstart, hin, -⟩
    · exact fun h => h.1 hnode
    · exact fun h => absurd h.2 (by rw [hin, decide_eq_true hstart]; decide)
  case link =>
    rcases hreads with ⟨-, -, hup, -⟩ | ⟨hnode, -⟩
    · simp [hup]
    · exact fun h => hnode h.1
  case poison =>
    rcases hreads with ⟨hnode, -, -, hclean⟩ | ⟨hnode, -, -, -, hclean⟩
    · rw [if_pos hnode]
      exact ne_true_of_eq_false hclean
    · rw [if_neg hnode]
      exact ne_true_of_eq_false hclean

/-- The contexts with a running sweep. -/
def sweeping (s : State) : List Nat := (liveCtxs s).filter fun n => (s.ctx n).sweep.isSome

theorem startStageDrain_good (hrsvd : parRsvd k [(0, 1)] = false) (hmode : k.fld 0 1 ≤ 1) (himage : s.image.isSome = true)
    (hdrain : s.draining = none) : startStageDrain s c k =
    if k.fld 0 1 = 1 then
      (sweeping s).foldl (fun s n => s.modSweep n fun w => { w with cancelling := true }) { s with draining := some (k.fld 0 1) }
    else { s with draining := some (k.fld 0 1) } := by
  refine (if_neg ?_).trans (if_neg ?_)
  · simp [hrsvd, Nat.not_lt.mpr hmode]
  · simp [hdrain, Option.isSome_iff_ne_none.mp himage]

/-! ### TRAY_CONFIG, TRAY_RELEASE and TRAY_FLUSH (R172, R178, R181, R354) -/

/-- The formats of a TRAY_CONFIG's tray. -/
def trayFormat (k : Cmd) : Nat := bitsAt (k.fld 3 1) 1 2

/-- The tray that a TRAY_CONFIG of ring `c` describes, at a place of the pool. -/
def configuredTray (c : Nat) (k : Cmd) (base : Nat) : Tray :=
  { kind := k.fld 2 1, readmode := bitsAt (k.fld 3 1) 0 1 == 1, fmtver := trayFormat k, pmin := k.fld 4 1, pmax := k.fld 5 1
    periodic := bitsAt (k.fld 3 1) 3 1 == 1, ctx := c, maxpkt := k.fld 8 4, timeout := k.fld 0x10 4, base := base
    mib := areaMib (k.fld 0x0C 4) (k.fld 8 4), ringWords := k.fld 0x0C 4
    slots := if k.fld 2 1 = 1 then configSlots k (trayFormat k) (k.fld 8 4) (k.fld 0x0C 4) else [] }

/-- The fields of a TRAY_CONFIG that R354 asks for. -/
structure TrayFields (k : Cmd) : Prop where
  kindLo : 1 ≤ k.fld 2 1
  kindHi : k.fld 2 1 ≤ 3
  format : trayFormat k = 1 ∨ trayFormat k = 2
  rsvd : parRsvd k ([(0, 7), (8, 12)] ++ (List.range (k.fld 6 1)).map fun i => (0x40 + 16 * i, 12)) = false
  slotRsvd : (List.range (k.fld 6 1)).any (fun i => k.fld (0x42 + 16 * i) 2 != 0) = false
  flags : k.fld 3 1 ≤ 15
  prio : k.fld 4 1 ≤ k.fld 5 1
  prioHi : k.fld 5 1 ≤ 7
  slots : k.fld 6 1 ≤ 16
  noSlots : k.fld 2 1 ≠ 1 → k.fld 6 1 = 0
  packetsLo : 1 ≤ k.fld 8 4
  packetsHi : k.fld 8 4 ≤ 65536
  words : 1 ≤ k.fld 0x0C 4
  timeLo : 100 ≤ k.fld 0x10 4
  timeHi : k.fld 0x10 4 ≤ 100000
  packetSum : ((configSlots k 2 0 0).map fun e => e.2.pktLimit).foldl (· + ·) 0 ≤ k.fld 8 4
  wordSum : ((configSlots k 2 0 0).map fun e => e.2.wordLimit).foldl (· + ·) 0 ≤ k.fld 0x0C 4

section

variable (hlo : 64 ≤ k.fld 0 2) (hhi : k.fld 0 2 ≤ 32767)

include hlo hhi

theorem startTrayConfig_good {base : Nat} (hk : TrayFields k) (hown : (s.tray (k.fld 0 2)).kind = 0 ∨ (s.tray (k.fld 0 2)).ctx = c)
    (hempty : (s.tray (k.fld 0 2)).packets = [])
    (hplace : poolPlace (s.setTray (k.fld 0 2) { s.tray (k.fld 0 2) with mib := 0 }) (areaMib (k.fld 0x0C 4) (k.fld 8 4)) = some base) :
    startTrayConfig s c k = settle ((releaseReaders (s.setTray (k.fld 0 2) { s.tray (k.fld 0 2) with mib := 0 }) (k.fld 0 2)).setTray (k.fld 0 2)
      (configuredTray c k base)) c k.aseq dDONE stOK base := by
  obtain ⟨hkindlo, hkindhi, hformat, hrsvd, hslotrsvd, hflags, hprio, hpriohi, hslots, hnoslots, hpktlo, hpkthi, hwords, htimelo, htimehi,
    hpktsum, hwordsum⟩ := hk
  rw [trayFormat] at hformat
  simp only [startTrayConfig, hplace]
  refine (if_neg ?range).trans ((if_neg ?owner).trans ((if_neg (by omega)).trans ((if_neg (by omega)).trans ((if_neg ?fields).trans
    ((if_neg (by simp [hempty])).trans rfl)))))
  case range =>
    simp only [Bool.or_eq_true, decide_eq_true_eq, not_or]
    omega
  case owner =>
    rcases hown with h | h <;> omega
  case fields =>
    simp only [hrsvd, hslotrsvd, Bool.false_or, Bool.or_eq_true, Bool.and_eq_true, decide_eq_true_eq, bne_iff_ne, beq_iff_eq]
    omega

theorem startTrayConfig_releases (hkind : k.fld 2 1 = 0) (hused : (s.tray (k.fld 0 2)).kind ≠ 0) (hown : (s.tray (k.fld 0 2)).ctx = c)
    (hrsvd : parRsvd k [(0, 3)] = false) (hempty : (s.tray (k.fld 0 2)).packets = []) :
    startTrayConfig s c k = settle (releaseTray s (k.fld 0 2)) c k.aseq dDONE stOK 0 := by
  refine (if_neg ?range).trans ((if_neg (by omega)).trans ((if_pos hkind).trans ((if_neg (by simp [hrsvd])).trans (if_neg ?free))))
  case range =>
    simp only [Bool.or_eq_true, decide_eq_true_eq, not_or]
    omega
  case free => simp [hempty, hused]

theorem startTrayFlush_good (hused : (s.tray (k.fld 0 2)).kind ≠ 0) (hown : (s.tray (k.fld 0 2)).ctx = c) (hrsvd : parRsvd k [(0, 2)] = false) :
    startTrayFlush s c k = settle (flushTray s (k.fld 0 2) dCANCELLED stCANCELLED) c k.aseq dDONE stOK
      ((s.tray (k.fld 0 2)).packets.filter fun p => p.st == .ready || p.st == .open).length := by
  refine (if_neg ?_).trans (if_neg (by omega))
  simp only [hrsvd, Bool.false_or, decide_eq_true_eq]
  omega

end

end

/-- Settles O45: a command starts by its opcode, and each start is a lemma about the operation. The image as an operand (log 10), the places
of save slots and pools (log 86) and the release of a tray's area before it is configured again (log 54) are the model's choices. -/
theorem stageAndTrayCommands : Obligations.StageAndTrayCommands := by
  unfold Obligations.StageAndTrayCommands
  intro c k s t x h p
  refine ⟨fun im hs => ?load, fun hs hrsvd hmode himage hdrain => ?drain, fun base hs => ?config,
    fun hs hkind hlo hhi hused hown hrsvd hempty => ?release, fun hs hrsvd hlo hhi hused hown => ?flush⟩
  case load =>
    intro a len nres hrsvd htractslo htractshi himage hdrain hreads hfmtlo hfmthi hdigest hfits hgood t1
    have hstart := (startByOp_stageLoad (t := t) (op_of_starts hs rfl)).trans (startStageLoad_good (c := c)
      ⟨hrsvd, htractslo, htractshi, himage, hdrain, hreads, hfmtlo, hfmthi, hdigest, hfits, hgood⟩ (img_of_starts hs))
    refine ⟨fun u hu => exec_of_start hs (hstart.trans ?_), fun hnone => exec_of_start hs (hstart.trans ?_)⟩
    · rw [show placeAll (loaded t k im) = some u from hu]
    · rw [show placeAll (loaded t k im) = none from hnone]
  case drain =>
    have hstart := (startByOp_stageDrain (op_of_starts hs rfl)).trans (startStageDrain_good (c := c) hrsvd hmode himage hdrain)
    refine ⟨fun hfinish => exec_of_start hs (hstart.trans ?_), fun hcancel => exec_of_start hs (hstart.trans ?_)⟩
    · rw [hfinish, if_neg (by decide)]
    · rw [hcancel, if_pos rfl]
      rfl
  case config =>
    intro n fl fmt sl hlo hhi hown hkindlo hkindhi hformat hrsvd hslotrsvd hflags hprio hpriohi hslots hnoslots hpktlo hpkthi hwords htimelo
      htimehi hpktsum hwordsum hempty hplace
    exact exec_of_start hs ((startByOp_trayConfig (op_of_starts hs rfl)).trans (startTrayConfig_good hlo hhi
      ⟨hkindlo, hkindhi, hformat, hrsvd, hslotrsvd, hflags, hprio, hpriohi, hslots, hnoslots, hpktlo, hpkthi, hwords, htimelo, htimehi, hpktsum,
        hwordsum⟩ hown hempty hplace))
  case release =>
    exact exec_of_start hs ((startByOp_trayConfig (op_of_starts hs rfl)).trans (startTrayConfig_releases hlo hhi hkind hused hown hrsvd hempty))
  case flush => exact exec_of_start hs ((startByOp_trayFlush (op_of_starts hs rfl)).trans (startTrayFlush_good hlo hhi hused hown hrsvd))

end Sys2Proof.StageRingCommands

namespace Sys2Proof.SweepRingCommands

open Sys2Proof Sys2Proof.Machine Sys2Proof.PegRingCommands

/-! ### The operation of a sweep, sequence or rake command that starts (Table 14-7) -/

section

variable {t : State} {c : Nat} {k : Cmd}

theorem startByOp_sweepRun (hop : k.op = 0x40) : startByOp t c k = startSweepRun t c k := by
  simp only [startByOp, hop]

theorem startByOp_seqJoin (hop : k.op = 0x41) : startByOp t c k = startSeqJoin t c k := by
  simp only [startByOp, hop]

theorem startByOp_seqLeave (hop : k.op = 0x42) : startByOp t c k = startSeqLeave t c k := by
  simp only [startByOp, hop]

theorem startByOp_rakeProgram (hop : k.op = 0x50) : startByOp t c k = startRakeProgram t c k := by
  simp only [startByOp, hop]

theorem startByOp_rakeGroup (hop : k.op = 0x51) : startByOp t c k = startRakeGroup t c k := by
  simp only [startByOp, hop]

end

section

variable {s : State} {c : Nat} {k : Cmd}

/-! ### SWEEP_RUN and SWEEP_RUN_STOP (R354, R402) -/

/-- The sweep that a SWEEP_RUN describes. -/
def sweepOf (k : Cmd) : Sweep :=
  { aseq := k.aseq, serving := k.fld 0 1 == 1, tele := k.fld 2 2, rseed := BitVec.ofNat 64 (k.fld 8 8), first := k.fld 0x10 4, nsteps := k.fld 0x14 4
    m := k.fld 0x18 2, fwd := if k.fld 0 1 = 1 then k.fld 0x18 2 else k.fld 0x1A 2, igr := if k.fld 0 1 = 1 then k.fld 0x1A 2 else k.fld 0x1C 2
    wgr := k.fld 0x1E 2, sched := k.fld 0x20 8, nseg := k.fld 0x28 2, shard := k.fld 0x30 8, nshard := k.fld 0x38 4, step := k.fld 0x10 4 }

/-- What a SWEEP_RUN of either mode asks of its fields, of the stage and of memory. -/
structure Sweeps (s : State) (c : Nat) (k : Cmd) : Prop where
  rsvd : parRsvd k [(0, 4), (8, 34), (0x30, 12)] = false
  runs : k.fld 1 1 = 0
  noDrain : s.draining = none
  image : s.image.isSome = true
  noPeriod : periodBad (s.ctx c) k = false
  tele : k.fld 2 2 = 0 ∨ ((s.tray (k.fld 2 2)).kind = 3 ∧ (s.tray (k.fld 2 2)).ctx = c)
  quota : ctxHeap s (s.ctx c) true ≤ (s.ctx c).memQuota * 0x100000
  heap : heapUsed s + roundUp (imageD s).ctxBytes 256 ≤ heapSize s

/-- A SWEEP_RUN that continues the step of a restore. -/
def continues (s : State) (c : Nat) (k : Cmd) : Bool := (s.ctx c).restored.map (fun n => (n + 1) % 2 ^ 32) == some (sweepOf k).first

/-- The telemetry tray of a SWEEP_RUN is none, or one of kind 3 of its context. -/
theorem Sweeps.teleGood (h : Sweeps s c k) : (k.fld 2 2 != 0 && ((s.tray (k.fld 2 2)).kind != 3 || (s.tray (k.fld 2 2)).ctx != c)) = false := by
  rcases h.tele with hzero | ⟨hkind, hctx⟩
  · simp [hzero]
  · simp [hkind, hctx]

theorem startSweepRun_serving (h : Sweeps s c k) (hmode : k.fld 0 1 = 1) (hfwd : kindIs s (sweepOf k).fwd 4 = true)
    (higr : kindIs s (sweepOf k).igr 5 = true) : startSweepRun s c k = s.modCtx c fun x => { x with sweep := some (sweepOf k) } := by
  have htele := h.teleGood
  obtain ⟨hrsvd, hruns, hdrain, himage, hperiod, -, hquota, hheap⟩ := h
  simp only [sweepOf, hmode, if_true] at hfwd higr
  simp only [startSweepRun, hmode, if_true]
  refine (if_neg (by simp [hrsvd, hruns])).trans ((if_neg (by simp [hruns])).trans ((if_neg (by simp [hdrain])).trans ((if_neg ?_).trans
    ((if_neg ?_).trans ((if_neg (by omega)).trans ?_)))))
  · simp [hdrain, Option.isSome_iff_ne_none.mp himage]
  · rw [hperiod, htele, hfwd, higr]
    decide
  · simp only [sweepOf, hmode]
    rfl

theorem startSweepRun_training (h : Sweeps s c k) (hmode : k.fld 0 1 = 0) (hdeadline : (s.ctx c).deadline = false)
    (hm : (sweepOf k).m = (imageD s).m) (hfwd : kindIs s (sweepOf k).fwd 1 = true) (higr : kindIs s (sweepOf k).igr 2 = true)
    (hwgr : kindIs s (sweepOf k).wgr 3 = true) (hsteps : (sweepOf k).nsteps ≠ 0) (hsched : schedBad s (sweepOf k).sched (sweepOf k).nseg = false) :
    startSweepRun s c k =
      let s1 := (if continues s c k then liftHold s else s).modCtx c fun x =>
        { x with sweep := some (sweepOf k), restored := if continues s c k then none else x.restored }
      { s1 with schedStep := (sweepOf k).step, schedPhase := if (s.ctx c).fenceClosed then s1.schedPhase else 1 } := by
  have htele := h.teleGood
  obtain ⟨hrsvd, hruns, hdrain, himage, hperiod, -, hquota, hheap⟩ := h
  have hzero : ¬ (0 : Nat) = 1 := by decide
  simp only [sweepOf, hmode, if_neg hzero] at hfwd higr hwgr hm hsteps hsched
  simp only [startSweepRun, hmode, if_neg hzero]
  refine (if_neg (by simp [hrsvd, hruns])).trans ((if_neg (by simp [hruns])).trans ((if_neg (by simp [hdrain])).trans ((if_neg ?_).trans
    ((if_neg ?_).trans ((if_neg (by omega)).trans ?_)))))
  · simp [hdrain, Option.isSome_iff_ne_none.mp himage]
  · rw [hperiod, htele, hdeadline, hm, hfwd, higr, hwgr, hsched]
    simpa using hsteps
  · simp only [continues, sweepOf, hmode, if_neg hzero]
    rfl

/-- A SWEEP_RUN with STOP asks the running sweep to end, or settles at once. -/
theorem startSweepRun_stop (hrsvd : parRsvd k [(0, 4), (8, 34), (0x30, 12)] = false) (hmode : k.fld 0 1 ≤ 1) (hstop : k.fld 1 1 = 1) :
    startSweepRun s c k = startSweepStop s c k :=
  (if_neg (by simp [hrsvd, hstop, Nat.not_lt.mpr hmode])).trans (if_pos hstop)

/-! ### SEQ_JOIN and SEQ_LEAVE (R200) -/

/-- What a SEQ_JOIN asks of its fields and of its context. -/
structure Joins (s : State) (c : Nat) (k : Cmd) : Prop where
  rsvd : parRsvd k [(0, 12)] = false
  noPeriod : periodBad (s.ctx c) k = false
  prompt : 1 ≤ k.fld 8 4
  fits : k.fld 8 4 ≤ k.fld 4 4
  most : k.fld 4 4 ≤ 16777216
  fresh : (s.ctx c).seqs.any (fun q => q.id == k.fld 0 4) = false
  serving : (s.ctx c).sweep.map Sweep.serving = some true
  locals : (reserveOf (imageD s) (k.fld 4 4)).1 ≤ (s.ctx c).kvLocal * 0x100000
  far : (reserveOf (imageD s) (k.fld 4 4)).2 ≤ farPool (s.ctx c)

theorem startSeqJoin_good (h : Joins s c k) : startSeqJoin s c k = s.modCtx c fun x => { x with seqs := x.seqs ++
    [{ id := k.fld 0 4, st := 1, maxlen := k.fld 4 4, locB := (reserveOf (imageD s) (k.fld 4 4)).1, farB := (reserveOf (imageD s) (k.fld 4 4)).2
       at0 := s.now, joinAseq := k.aseq, entry := freeEntry x }] } := by
  obtain ⟨hrsvd, hperiod, hprompt, hfits, hmost, hfresh, hserving, hlocals, hfar⟩ := h
  refine (if_neg ?_).trans ((if_neg (by simp [hserving])).trans
    (if_neg (not_or.mpr ⟨Nat.not_lt.mpr hlocals, Nat.not_lt.mpr hfar⟩)))
  simp only [hrsvd, hperiod, hfresh, Bool.false_or, Bool.or_false, Bool.or_eq_true, decide_eq_true_eq, beq_iff_eq]
  omega

/-- The sequence of a SEQ_LEAVE that has not left yet. -/
def leaving (s : State) (c : Nat) (k : Cmd) : Option Seqn := (s.ctx c).seqs.find? fun q => q.id == k.fld 0 4 && q.st != 4

theorem startSeqLeave_good {q : Seqn} (hq : leaving s c k = some q) (hrsvd : parRsvd k [(0, 4)] = false) (hperiod : periodBad (s.ctx c) k = false) :
    startSeqLeave s c k =
      if q.st = 3 then s.modCtx c fun x => { x with
        seqs := modFirst (fun e => e.id == k.fld 0 4) (fun e => { e with st := 4, leaveAseq := some k.aseq }) x.seqs }
      else settle (settle (s.modCtx c fun x => { x with seqs := delFirst (fun e => e.id == k.fld 0 4) x.seqs }) c q.joinAseq dCANCELLED stCANCELLED 0)
        c k.aseq dDONE stOK q.l := by
  rw [leaving] at hq
  simp only [startSeqLeave, hq]
  exact if_neg (by simp [hrsvd, hperiod])

/-! ### RAKE_PROGRAM and RAKE_GROUP (R230, R232, R233) -/

/-- The block with a rake command held to the end of the phase. -/
def rakeHeldBack (s : State) (c : Nat) (k : Cmd) : State := { s with rakeHeld := s.rakeHeld ++ [(c, k.aseq)] }

theorem startRakeProgram_good (hst : rakeProgramStatus s k = stOK) :
    startRakeProgram s c k = if s.rphase.active then rakeHeldBack s c k else applyRakeProgram s c k := if_neg (not_not.mpr hst)

theorem startRakeGroup_good {b : List Byte} (hb : rakeGroupData s c k = .ok b) :
    startRakeGroup s c k = if s.rphase.active then rakeHeldBack s c k else applyRakeGroup s c k := by
  simp only [startRakeGroup, hb]
  rfl

/-- The block with the records of a RAKE_GROUP written, each with RHOLD 0. -/
def groupsWritten (s : State) (k : Cmd) (b : List Byte) : State := (List.range (k.fld 4 4)).foldl (fun s i =>
  writeMem s (groupAt s (k.fld 0 2 + i)) (leBytes 1 (bitsAt ((((b.drop (128 * i)).take 128).getD 0 0).toNat) 0 7) ++ ((b.drop (128 * i)).take 128).drop 1)) s

theorem applyRakeGroup_good {b : List Byte} (hb : rakeGroupData s c k = .ok b) :
    applyRakeGroup s c k = settle (groupsWritten s k b) c k.aseq dDONE stOK (k.fld 4 4) := by
  simp only [applyRakeGroup, hb]
  rfl

end

/-- Settles O46: a command starts by its opcode, and each start is a lemma about the operation. -/
theorem sweepAndRakeCommands : Obligations.SweepAndRakeCommands := by
  unfold Obligations.SweepAndRakeCommands
  intro c k s t x h p
  refine ⟨fun hs hrsvd hruns hdrain himage hperiod htele hquota hheap => ?run, fun hs hrsvd hmode hstop => ?stop,
    fun hs hrsvd hperiod hprompt hfits hmost hfresh hserving hlocals hfar => ?join, fun q hs hq hrsvd hperiod => ?leave,
    fun hs hst => ?program, fun b hs hb => ?group⟩
  case run =>
    intro w
    have good : Sweeps t c k := ⟨hrsvd, hruns, hdrain, himage, hperiod, htele, hquota, hheap⟩
    have hop := startByOp_sweepRun (t := t) (c := c) (op_of_starts hs rfl)
    refine ⟨fun hmode hfwd higr => exec_of_start hs (hop.trans (startSweepRun_serving good hmode hfwd higr)), ?_⟩
    intro hmode hdeadline hm hfwd higr hwgr hsteps hsched lift s1
    exact exec_of_start hs (hop.trans (startSweepRun_training good hmode hdeadline hm hfwd higr hwgr hsteps hsched))
  case stop =>
    have hstart := (startByOp_sweepRun (t := t) (op_of_starts hs rfl)).trans (startSweepRun_stop (c := c) hrsvd hmode hstop)
    exact ⟨fun hruns => exec_of_start hs (hstart.trans (if_pos hruns)), fun hnone => exec_of_start hs (hstart.trans (if_neg (by simp [hnone])))⟩
  case join =>
    exact exec_of_start hs ((startByOp_seqJoin (op_of_starts hs rfl)).trans
      (startSeqJoin_good ⟨hrsvd, hperiod, hprompt, hfits, hmost, hfresh, hserving, hlocals, hfar⟩))
  case leave =>
    have hstart := (startByOp_seqLeave (t := t) (op_of_starts hs rfl)).trans (startSeqLeave_good hq hrsvd hperiod)
    exact ⟨fun hst => exec_of_start hs (hstart.trans (if_pos hst)), fun hst => exec_of_start hs (hstart.trans (if_neg hst))⟩
  case program =>
    have hstart := (startByOp_rakeProgram (t := t) (op_of_starts hs rfl)).trans (startRakeProgram_good (c := c) hst)
    exact ⟨fun hout => exec_of_start hs (hstart.trans (if_neg (by simp [hout]))), fun hin => exec_of_start hs (hstart.trans (if_pos hin))⟩
  case group =>
    have hstart := (startByOp_rakeGroup (t := t) (op_of_starts hs rfl)).trans (startRakeGroup_good hb)
    exact ⟨fun hout => exec_of_start hs (hstart.trans ((if_neg (by simp [hout])).trans (applyRakeGroup_good hb))),
      fun hin => exec_of_start hs (hstart.trans (if_pos hin))⟩

end Sys2Proof.SweepRingCommands

namespace Sys2Proof.HarvestRingCommands

open Sys2Proof Sys2Proof.Machine Sys2Proof.PegRingCommands

/-! ### The operation of a HARVEST or RESTORE that starts (Table 14-7) -/

section

variable {t : State} {c : Nat} {k : Cmd}

theorem startByOp_harvest (hop : k.op = 0x80) : startByOp t c k = startHarvest t c k := by
  simp only [startByOp, hop]

theorem startByOp_restore (hop : k.op = 0x81) : startByOp t c k = startRestore t c k := by
  simp only [startByOp, hop]

/-- A RESTORE that starts brings what its row reads of the store. -/
theorem reads_of_starts {s : State} {x : CtxId} {h : CmdHdr} {p : List Byte} {seen : StoreReads} (hs : Starts (.restore x h p seen) s t c k) :
    k.reads = seen := by
  obtain ⟨y, r, hrow, -, -, hreads⟩ := starts_op hs
  obtain ⟨-, rfl⟩ := Prod.mk.inj (Option.some.inj hrow)
  exact hreads

end

section

variable {s : State} {c : Nat} {k : Cmd}

/-! ### HARVEST, HARVEST_POLL and HARVEST_TIMEOUT (R357, R390, R395, R399) -/

/-- The block with the harvest that a HARVEST describes. -/
def harvesting (s : State) (c : Nat) (k : Cmd) : State := s.modCtx c fun y => { y with
  harvest := some { aseq := k.aseq, step := k.fld 0 4, manver := k.fld 4 2, win := k.fld 6 2, store := k.fld 8 8 } }

/-- What a HARVEST asks of its fields, of the plan `pl` and of its context. -/
structure Harvests (s : State) (c : Nat) (k : Cmd) (pl : Plan) : Prop where
  rsvd : parRsvd k [(0, 16)] = false
  noPeriod : periodBad (s.ctx c) k = false
  notHere : k.fld 8 8 / 2 ^ 48 ≠ s.salt.node
  notAny : k.fld 8 8 / 2 ^ 48 ≠ 0xFFFF
  align : k.fld 8 8 % 64 = 0
  window : k.fld 6 2 ≤ 16383
  plan : s.image.bind Image.plan = some pl
  rank : (myRank s).isSome = true
  free : (s.ctx c).harvest = none
  version : k.fld 4 2 = 2 ∨ (k.fld 4 2 = 1 ∧ pl.shards.any (fun h => h.kind == 2) = false)

theorem startHarvest_good {pl : Plan} (h : Harvests s c k pl) : startHarvest s c k =
    match (s.ctx c).sweep with
    | some w => if !w.serving && decide (k.fld 0 4 < nextFence (s.ctx c) w) then refuse s c k.aseq stSTEP else harvesting s c k
    | none => if k.fld 0 4 = (s.ctx c).lastStep.getD 0xFFFFFFFF then harvestBegin (harvesting s c k) c else refuse s c k.aseq stSTEP := by
  obtain ⟨hrsvd, hperiod, hhere, hany, halign, hwindow, hplan, hrank, hfree, hversion⟩ := h
  simp only [startHarvest, hplan]
  refine (if_neg ?fields).trans ((if_neg (by simp [Option.isSome_iff_ne_none.mp hrank])).trans ((if_neg (by simp [hfree])).trans
    ((if_neg ?unknown).trans ((if_neg ?precond).trans rfl))))
  case fields =>
    simp only [hrsvd, hperiod, Bool.false_or, Bool.or_eq_true, decide_eq_true_eq, beq_iff_eq, bne_iff_ne]
    omega
  case unknown => omega
  case precond =>
    rcases hversion with htwo | ⟨-, hnone⟩
    · exact fun h => absurd h.1 (by omega)
    · exact fun h => absurd h.2 (ne_true_of_eq_false hnone)

/-- A HARVEST of a step that the running sweep has yet to fence waits for the fence. -/
theorem startHarvest_waits {pl : Plan} {w : Sweep} (h : Harvests s c k pl) (hw : (s.ctx c).sweep = some w)
    (hahead : w.serving = true ∨ nextFence (s.ctx c) w ≤ k.fld 0 4) : startHarvest s c k = harvesting s c k := by
  rw [startHarvest_good h, hw]
  refine if_neg ?_
  rcases hahead with hserving | hstep
  · simp [hserving]
  · simp [Nat.not_lt.mpr hstep]

/-- A HARVEST of the last step begins at once where no sweep runs. -/
theorem startHarvest_begins {pl : Plan} (h : Harvests s c k pl) (hidle : (s.ctx c).sweep = none)
    (hstep : k.fld 0 4 = (s.ctx c).lastStep.getD 0xFFFFFFFF) : startHarvest s c k = harvestBegin (harvesting s c k) c := by
  rw [startHarvest_good h, hidle]
  exact if_pos hstep

theorem harvestTimeout_none (h : (s.ctx c).harvest = none) : harvestTimeout s c = s := by
  simp only [harvestTimeout, h]

theorem harvestTimeout_expires {y : Harvest} (h : (s.ctx c).harvest = some y) (hbegun : y.begun = true) :
    harvestTimeout s c = harvestEnd { s with now := max s.now (y.at0 + (planD s).htimeout * 1000000000) } c dEXPIRED stEXPIRED := by
  simp only [harvestTimeout, h, hbegun, if_true]
  rfl

/-! ### RESTORE (R400 to R403) -/

/-- The block with what a RESTORE makes visible of a store in host memory. -/
def storeSeen (s : State) (k : Cmd) (d : Cells) : State := if k.fld 0 8 / 2 ^ 48 = 0xFFFE then applyHost s d else s

/-- The bytes of another node's store that a RESTORE reads. -/
def storeView (k : Cmd) : Tab Byte := k.reads.seen.foldl (fun m e => tput 0 m e.1 e.2) []

/-- The reader of a RESTORE's verify pass. -/
def verifyRead (s : State) (c : Nat) (k : Cmd) : Nat → Nat → Except Nat (List Byte) :=
  restoreRead (storeSeen s k k.reads.seen) c (k.fld 0 8) (storeView k) k.reads.lost

/-- The reader of a RESTORE's load pass. -/
def loadRead (s : State) (c : Nat) (k : Cmd) : Nat → Nat → Except Nat (List Byte) :=
  restoreRead (storeSeen (storeSeen s k k.reads.seen) k k.reads.again) c (k.fld 0 8)
    (k.reads.again.foldl (fun m e => tput 0 m e.1 e.2) (storeView k)) k.reads.lostAgain

/-- The slots of a store's complete generations, in descending order of HSEQ, by its header `hd`. -/
def completeSlots (rd : Nat → Nat → Except Nat (List Byte)) (hd : List Byte) : List (Nat × Nat) :=
  if fieldAt hd 0 8 % 2 = 0 then [] else
    ((List.range (bitsAt (fieldAt hd 0 8) 32 4 + 1)).filterMap fun g => match rd (genOff (fieldAt hd 8 8) g) 64 with
      | .ok l => if (parseCommit l).valid then some (g, (parseCommit l).hseq) else none
      | .error _ => none).foldr insertSlot []

/-- The manifests of a store tried in their order. -/
def tried (s : State) (c : Nat) (k : Cmd) (pl : Plan) (rank : Nat) (hd : List Byte) : Option (Nat × Nat × Nat) × List (Nat × Nat × Nat) :=
  tryManifests (fun g => manifestReasons (storeSeen s k k.reads.seen) pl rank fun o n => verifyRead s c k (genOff (fieldAt hd 8 8) g + o) n)
    (completeSlots (verifyRead s c k) hd)

/-- What a RESTORE asks of its fields, of the plan `pl` and of its context. -/
structure Restores (s : State) (c : Nat) (k : Cmd) (pl : Plan) (rank : Nat) : Prop where
  rsvd : parRsvd k [(0, 11), (0x10, 12)] = false
  noPeriod : periodBad (s.ctx c) k = false
  flags : k.fld 0x0A 1 ≤ 1
  notHere : k.fld 0 8 / 2 ^ 48 ≠ s.salt.node
  notAny : k.fld 0 8 / 2 ^ 48 ≠ 0xFFFF
  align : k.fld 0 8 % 64 = 0
  window : k.fld 8 2 ≤ 16383
  noSweep : (s.ctx c).sweep = none
  noHarvest : (s.ctx c).harvest = none
  plan : s.image.bind Image.plan = some pl
  rank : myRank s = some rank

section

variable {pl : Plan} {rank : Nat} (h : Restores s c k pl rank)

include h

/-- A RESTORE reads the store's header, and from there its manifests decide. -/
theorem startRestore_good : startRestore s c k =
    match verifyRead s c k 0 64 with
    | .error st => listed (storeSeen s k k.reads.seen) c k (storeSeen s k k.reads.seen) 0 [] fun t => refuse t c k.aseq st
    | .ok hd => restored (storeSeen s k k.reads.seen) c k pl rank
        (fun g o n => storeRead (storeSeen s k k.reads.seen) (k.fld 0 8) (storeView k) (genOff (fieldAt hd 8 8) g + o) n)
        (fun g o n => verifyRead s c k (genOff (fieldAt hd 8 8) g + o) n) (fun g o n => loadRead s c k (genOff (fieldAt hd 8 8) g + o) n)
        (tried s c k pl rank hd).2 (tried s c k pl rank hd).1 := by
  obtain ⟨hrsvd, hperiod, hflags, hhere, hany, halign, hwindow, hsweep, hharvest, hplan, hrank⟩ := h
  simp only [startRestore, hplan, hrank]
  refine (if_neg ?fields).trans ((if_neg (by simp [hsweep, hharvest])).trans ?reads)
  case fields =>
    simp only [hrsvd, hperiod, Bool.false_or, Bool.or_eq_true, decide_eq_true_eq, beq_iff_eq, bne_iff_ne]
    omega
  case reads =>
    cases hread : verifyRead s c k 0 64 with
    | error st =>
      simp only [verifyRead, storeSeen, storeView] at hread
      simp only [beq_iff_eq, hread]
      rfl
    | ok hd =>
      simp only [verifyRead, storeSeen, storeView] at hread
      simp only [beq_iff_eq, hread, tried, completeSlots, verifyRead, loadRead, storeSeen, storeView]
      generalize tryManifests _ _ = z
      obtain ⟨found, bad⟩ := z
      cases found with
      | none => rfl
      | some e =>
        obtain ⟨g, hseq, step⟩ := e
        refine if_congr ?_ rfl ?_
        · simp
        · generalize loadBroken _ _ _ _ _ = broken
          cases broken <;> rfl

end

end

/-- Settles O49: a command starts by its opcode; HARVEST waits or begins (`startHarvest_waits`, `startHarvest_begins`), and a RESTORE is decided
by the header of its store and then by its manifests (`startRestore_good`). That an unreadable store settles the command with the read's
status (log 15) and the time that HARVEST_TIMEOUT reaches (log 23) are the model's. -/
theorem harvestCommands : Obligations.HarvestCommands := by
  unfold Obligations.HarvestCommands
  intro c k s t x h p
  refine ⟨fun pl hs hrsvd hperiod hhere hany halign hwindow hplan hrank hfree hversion => ?harvest, fun a seen m => ?poll, fun a m => ?timeout,
    fun seen st pl rank hs hrsvd hperiod hflags hhere hany halign hwindow hsweep hharvest hplan hrank => ?restore⟩
  case harvest =>
    intro s1
    have good : Harvests t c k pl := ⟨hrsvd, hperiod, hhere, hany, halign, hwindow, hplan, hrank, hfree, hversion⟩
    have hop := startByOp_harvest (t := t) (c := c) (op_of_starts hs rfl)
    exact ⟨fun w hw hahead => exec_of_start hs (hop.trans (startHarvest_waits good hw hahead)),
      fun hidle hstep => exec_of_start hs (hop.trans (startHarvest_begins good hidle hstep))⟩
  case poll => rw [exec_harvestPoll, run_meets m, harvestPoll]
  case timeout =>
    rw [exec_harvestTimeout, run_meets m]
    exact ⟨fun hnone => by rw [harvestTimeout_none hnone], fun y hy hbegun => by rw [harvestTimeout_expires hy hbegun]⟩
  case restore =>
    obtain rfl := reads_of_starts hs
    have hstart := (startByOp_restore (t := t) (op_of_starts hs rfl)).trans
      (startRestore_good ⟨hrsvd, hperiod, hflags, hhere, hany, halign, hwindow, hsweep, hharvest, hplan, hrank⟩)
    intro host s0 view rd again
    refine ⟨fun hread => exec_of_start hs (hstart.trans ?_), fun hd hread => exec_of_start hs (hstart.trans ?_)⟩
    · rw [show verifyRead t c k 0 64 = .error st from hread]
      rfl
    · rw [show verifyRead t c k 0 64 = .ok hd from hread]
      rfl

end Sys2Proof.HarvestRingCommands

namespace Sys2Proof.CoreHardwareFaults

open Sys2Proof Sys2Proof.Machine

/-! ### Fences (R439, R478) -/

section

variable {s : State} {n : Nat}

/-- A test that a hardware fault of core `n` dooms (R478). -/
def doomedBy (n : Nat) (t : Test) : Bool := t.intrusive && coreBlock t.block && t.index == n

/-- The block with the intrusive tests of a core doomed. -/
def testsDoomed (s : State) (n : Nat) : State :=
  s.modSvc fun v => { v with running := v.running.map fun (t : Test) => if doomedBy n t then { t with doomed := true } else t }

theorem coreFault_untested (h : s.svc.running.any (doomedBy n) = false) : coreFault s n = fenceCore s n :=
  if_neg (ne_true_of_eq_false h)

theorem coreFault_tested (h : s.svc.running.any (doomedBy n) = true) : coreFault s n = fenceCore (unfence (testsDoomed s n) n) n := if_pos h

/-- A fenced core is fenced once. -/
theorem fenceCore_fenced (h : (s.core n).mode = .fenced) : fenceCore s n = s := if_pos h

/-! ### A sensor that fails (R385) -/

theorem sensorFail_none (h : (s.core n).failAt = none) : sensorFail s n = s := by
  simp only [sensorFail, h]

theorem sensorFail_reports {t : Nat} (h : (s.core n).failAt = some t) : sensorFail s n =
    reportFault (({ s with now := max s.now (t + 1000000) } : State).modFaults fun f => { f with hwfNew := true })
      { status := stHWFAULT, source := 0x0A, index := n } := by
  simp only [sensorFail, h]
  rfl

/-! ### Rings that wait for a neighbour (R437) -/

/-- A halted ring with no descriptor in progress releases its failed descriptor again. -/
theorem restartRing_releases {m r t i : Nat} {rest : List Nat} (hhalt : (s.ring n m r).haltAt = some t) (hfail : (s.ring n m r).failed = i :: rest)
    (hhalted : (s.ring n m r).halted = true) (hidle : (s.ring n m r).live = []) : restartRing s n m r =
    (writeLE s ((s.ring n m r).addr i) 4 (setBits (readLE s ((s.ring n m r).addr i) 4) 0 1 1)).modRing n m r fun x => { x with halted := false } := by
  simp only [restartRing, hhalt, hfail]
  exact if_neg (by simp [hhalted, hidle])

end

section

variable {s : State} {id : Nat}

/-- The unit of a number that waits for a neighbour. -/
def waitingUnit (s : State) (id : Nat) : Option WUnit := s.units.find? fun u => u.id == id && u.waitRing

theorem neighbourWaitTimeout_none (h : waitingUnit s id = none) : neighbourWaitTimeout s id = s := by
  rw [waitingUnit] at h
  simp only [neighbourWaitTimeout, h]

theorem neighbourWaitTimeout_faults {u : WUnit} {t : Nat} (hu : waitingUnit s id = some u) (ht : firstHalt s u = some t) :
    neighbourWaitTimeout s id = setNwait (reportFault (unitFault { s with now := max s.now (t + 10000000000) } u stLINK)
      { status := stLINK, source := 7, action := 3, index := (u.cores.head?).getD 0, ctx := u.ctx }) := by
  rw [waitingUnit] at hu
  simp only [neighbourWaitTimeout, hu, ht]
  rfl

end

/-- Settles O41: HANDSHAKE_TIMEOUT and PARITY_FAULT are one `coreFault`, whose two cases are whether a test of the core runs; the other rows
are the cases of their operations. That a fault dooms a running test (log 75) and the times that the timeouts reach (log 23) are the model's. -/
theorem coreFaults : Obligations.CoreFaults := by
  unfold Obligations.CoreFaults
  refine ⟨fun c s a m => ?core, fun s a m => ?rings⟩
  case core =>
    rw [exec_handshakeTimeout, exec_parityFault, exec_sensorFailTimeout, run_meets m, run_meets m]
    intro hit
    refine ⟨fun hnone => ⟨congrArg _ (coreFault_untested hnone), congrArg _ (coreFault_untested hnone)⟩, fun hsome => ?tested,
      fun hfenced => fenceCore_fenced hfenced, fun hnone => congrArg _ (sensorFail_none hnone),
      fun t hfail => congrArg _ (sensorFail_reports hfail)⟩
    case tested => exact ⟨congrArg _ (coreFault_tested hsome), congrArg _ (coreFault_tested hsome)⟩
  case rings =>
    refine ⟨by rw [exec_ringRestart, run_meets m, restartRings], fun n m r t i rest hhalt hfail hhalted hidle => ?restart,
      fun id hnone => ?nobody, fun id u t hu ht => ?faults⟩
    case restart => exact restartRing_releases hhalt hfail hhalted hidle
    case nobody =>
      rw [exec_neighbourWaitTimeout, run_meets m]
      exact congrArg _ (neighbourWaitTimeout_none hnone)
    case faults =>
      rw [exec_neighbourWaitTimeout, run_meets m]
      exact congrArg _ (neighbourWaitTimeout_faults hu ht)

end Sys2Proof.CoreHardwareFaults

namespace Sys2Proof.HeatAndRegulator

open Sys2Proof Sys2Proof.Machine

/-! ### The regulator (R373, R374, R377, R378) -/

section

variable {s : State}

/-- The Trellis with a current read in A, and CAL by it. -/
def currentKept (s : State) (raw : Nat) (t : Trellis) : Trellis :=
  let unit := (config s.start.inputs).currentUnit
  let amps := raw * (if unit = 0 then 100 else unit) / 100
  let u := { t with imeas := amps, amps := (amps :: t.amps).take 20, curFail := false }
  { u with cal := calOf u }

theorem currentRead_answered (raw : Nat) : currentRead s raw true false = refreshCeil (s.modTrellis (currentKept s raw)) := rfl

theorem currentRead_failed (raw : Nat) {ack fault : Bool} (h : ack = false ∨ fault = true) :
    currentRead s raw ack fault = avsFailed (s.modTrellis fun t => { t with curFail := true }) :=
  if_pos (by rcases h with h | h <;> simp [h])

/-- CAL stays within 0.5 to 2.0. -/
theorem calOf_within {t : Trellis} (hlo : 0x80 ≤ t.cal) (hhi : t.cal ≤ 0x200) : 0x80 ≤ calOf t ∧ calOf t ≤ 0x200 := by
  unfold calOf
  simp only
  split <;> omega

theorem avsPoll_answered (mv temp : Nat) (fault : Bool) : avsPoll s mv temp true fault =
    if fault then avsFailed ((voltageRead s mv).modTrellis fun t => { t with tavs := temp })
    else (voltageRead s mv).modTrellis fun t => { t with tavs := temp } := rfl

theorem avsPoll_failed (mv temp : Nat) (fault : Bool) : avsPoll s mv temp false fault = avsFailed s := rfl

theorem avsAlert_eq (ack fault : Bool) : avsAlert s ack fault = if !ack || fault then avsFailed s else s := rfl

/-- Behind the Trellis's tick a core sensor at 115 °C trips the part (R499). -/
theorem tick_trips {i : TickIn} (h : ∃ e ∈ i.temps, 1150 ≤ e.2) : tick s i = hardwareTrip (heatTick s i) :=
  if_pos (List.any_eq_true.mpr (h.imp fun _ he => ⟨he.1, decide_eq_true he.2⟩))

theorem tick_holds {i : TickIn} (h : ∀ e ∈ i.temps, e.2 < 1150) : tick s i = heatTick s i :=
  if_neg (fun hany => by
    obtain ⟨e, he, hhot⟩ := List.any_eq_true.mp hany
    exact absurd (of_decide_eq_true hhot) (not_le.mpr (h e he)))

/-! ### Energy (Table 15-3) -/

/-- The energy of a tick joins the package energy. -/
theorem noteTick_energy (s : State) :
    (noteTick s).trellis.energy = s.trellis.energy + packageAt s (tickWork s).1 (tickWork s).2 s.trellis.vtarget := rfl

/-- A core at 85 °C leaks its share of 120 W. -/
theorem leak_at_reference : 9375 * 750 ^ 3 * leakFactor 850 / (750 ^ 3 * 2 ^ 32) = 9375 := by decide

theorem leakAt_reference (h : ∀ n, n < 128 → coreTemp s n = 850) : leakAt s 750 = 1200000 := by
  have hshares : (List.range 128).map (fun n => 9375 * 750 ^ 3 * leakFactor (coreTemp s n) / (750 ^ 3 * 2 ^ 32)) = (List.range 128).map fun _ => 9375 :=
    List.map_congr_left fun n hn => by rw [h n (List.mem_range.mp hn), leak_at_reference]
  rw [leakAt, hshares, List.map_const', List.length_range, ← List.sum_eq_foldl, List.sum_replicate]
  rfl

end

/-! ### The balls of the package (R482 to R484) -/

/-- The signal balls stand outside the ring region, and in the centre only the two sense balls do (Table 21-2). -/
theorem signalBalls_places : ∀ e ∈ signalBalls, ballRing e.1.1 e.1.2 = false ∧ (ballCentre e.1.1 e.1.2 = true → e.1 = (50, 49) ∨ e.1 = (50, 50)) := by
  decide

/-- A ball of the grid at which no signal stands. -/
theorem ballAt_supply {r c : Nat} (hgrid : 9 ≤ r ∧ r ≤ 90 ∧ 9 ≤ c ∧ c ≤ 90) (hnone : ∀ e ∈ signalBalls, e.1 ≠ (r, c)) :
    ballAt r c = if ballCentre r c then (if (r + c) % 2 = 0 then .vddCore else .vss)
      else if ballRing r c then ringBall (ringDepth r c) else edgeBall r c := by
  have hfind : (signalBalls.find? fun e => e.1 == (r, c)) = none :=
    List.find?_eq_none.mpr fun e he => by simpa using hnone e he
  refine (if_neg (by omega)).trans ?_
  simp only [hfind]

theorem ballAt_centre {r c : Nat} (hcentre : ballCentre r c = true) (hsense : ¬ (r = 50 ∧ (c = 49 ∨ c = 50))) :
    ballAt r c = if (r + c) % 2 = 0 then .vddCore else .vss := by
  have hgrid : 9 ≤ r ∧ r ≤ 90 ∧ 9 ≤ c ∧ c ≤ 90 := by
    simp only [ballCentre, Bool.and_eq_true, decide_eq_true_eq] at hcentre
    omega
  rw [ballAt_supply hgrid, if_pos hcentre]
  intro e he heq
  have hplace := (signalBalls_places e he).2
  rw [heq] at hplace
  rcases hplace hcentre with h | h <;> (cases h; omega)

theorem ballAt_ring {r c : Nat} (hring : ballRing r c = true) : ballAt r c = ringBall (ringDepth r c) := by
  have hgrid : ballCentre r c = false ∧ 9 ≤ r ∧ r ≤ 90 ∧ 9 ≤ c ∧ c ≤ 90 := by
    simpa only [ballRing, Bool.and_eq_true, decide_eq_true_eq, Bool.not_eq_true', and_assoc] using hring
  rw [ballAt_supply hgrid.2, if_neg (ne_true_of_eq_false hgrid.1), if_pos hring]
  intro e he heq
  have hplace := (signalBalls_places e he).1
  rw [heq, hring] at hplace
  cases hplace

/-! ### Heat states (Table 15-2) -/

section

variable {tmax : Int} {tj pavg plimit : Nat}

theorem heatState_crit (h : (tj : Int) * 10 ≤ tmax ∨ 105 * plimit < 100 * pavg) : heatState tmax tj pavg plimit = 3 := if_pos (by omega)

section

variable (hcool : tmax < (tj : Int) * 10) (hpower : 100 * pavg ≤ 105 * plimit)

include hcool hpower

theorem heatState_hot (h : (tj : Int) * 10 < tmax + 50 ∨ 98 * plimit < 100 * pavg) : heatState tmax tj pavg plimit = 2 :=
  (if_neg (by omega)).trans (if_pos (by omega))

end

/-- Below HOT a part is COOL from 15 °C and 10 % on, and else WARM. -/
theorem heatState_below (htemp : tmax + 50 ≤ (tj : Int) * 10) (hslack : 100 * pavg ≤ 98 * plimit) : heatState tmax tj pavg plimit =
    if tmax + 150 ≤ (tj : Int) * 10 ∧ 100 * pavg ≤ 90 * plimit then 0 else 1 :=
  (if_neg (by omega)).trans ((if_neg (by omega)).trans (if_congr (by omega) rfl rfl))

end

/-- Settles O42: the rows of the regulator and the tick are the cases of their operations, the balls are told apart by the places of the signal
balls (`signalBalls_places`), and the heat states by linear arithmetic. That a fault status counts as a failure (log 17) and the energy in
whole nanojoules (log 107) are the model's. -/
theorem heatAndVoltage : Obligations.HeatAndVoltage := by
  unfold Obligations.HeatAndVoltage
  refine ⟨fun s a m => ?rows, fun b => ⟨noteTick_energy b, fun h => leakAt_reference h⟩, fun r c hr1 hr2 hc1 hc2 hsense => ?centre,
    fun r c hring => ballAt_ring hring, fun tmax tj pavg plimit => ⟨fun h => heatState_crit h, fun hcool hpower => ⟨fun h => heatState_hot hcool hpower h,
      fun htemp hslack => ⟨fun h => ?cool, fun h => ?warm⟩⟩⟩⟩
  case rows =>
    simp only [exec_currentRead, exec_avsPoll, exec_avsAlert, exec_heatRecord, exec_tick, run_meets m]
    exact ⟨fun raw => congrArg _ (currentRead_answered raw), fun raw ack fault h => congrArg _ (currentRead_failed raw h), fun t hlo hhi => calOf_within hlo hhi,
      fun mv temp => congrArg _ (avsPoll_answered mv temp false), fun mv temp => congrArg _ (avsPoll_answered mv temp true),
      fun mv temp fault => congrArg _ (avsPoll_failed mv temp fault), congrArg _ (avsAlert_eq true false), fun fault => congrArg _ (avsAlert_eq false fault),
      congrArg _ (avsAlert_eq true true), trivial, fun i h => congrArg _ (tick_holds h), fun i h => congrArg _ (tick_trips h)⟩
  case centre => exact ballAt_centre (by simp [ballCentre, hr1, hr2, hc1, hc2]) hsense
  case cool => rw [heatState_below htemp hslack, if_pos h]
  case warm => rw [heatState_below htemp hslack, if_neg h]

end Sys2Proof.HeatAndRegulator

namespace Sys2Proof.SpdmExchange

open Sys2Proof Sys2Proof.Machine Sys2Proof.MailboxRequests

/-! ### Whether a request is taken (R451, R457) -/

section

variable {s : State} {l least : Nat} (f : State → State)

/-- A request on a die without a valid identity. -/
theorem spdm_invalid (h : linkReaches s l = true) (hbad : s.ident.valid = false) : spdm s l least f = spdmError s l errUnspecified := by
  simp [spdm, h, hbad]

/-- A request before its place in the exchange. -/
theorem spdm_early (h : linkReaches s l = true) (hvalid : s.ident.valid = true) (hearly : (s.link l).st < least) :
    spdm s l least f = spdmError s l errUnexpected := by
  simp [spdm, h, hvalid, hearly]

/-- A request in its place in the exchange. -/
theorem spdm_inPlace (h : linkReaches s l = true) (hvalid : s.ident.valid = true) (hplace : least ≤ (s.link l).st) : spdm s l least f = f s := by
  simp [spdm, h, hvalid, Nat.not_lt.mpr hplace]

end

/-- What a request makes of the block where it does not get as far as its own effect: nothing, or an ERROR (R451, R457). -/
structure Guarded (s : State) (l least : Nat) (t : State) : Prop where
  unreached : linkReaches s l = false → t = s
  invalid : linkReaches s l = true → s.ident.valid = false → t = spdmError s l errUnspecified
  early : linkReaches s l = true → s.ident.valid = true → (s.link l).st < least → t = spdmError s l errUnexpected

theorem guarded_spdm (s : State) (l least : Nat) (f : State → State) : Guarded s l least (spdm s l least f) :=
  ⟨spdm_unreached least f, spdm_invalid f, spdm_early f⟩

/-- A FINISH outside a handshake is unexpected, whatever comes before the handshake or after it. -/
theorem guarded_finish (s : State) (l : Nat) (ok : Bool) : Guarded s l 4 (spdmFinish s l ok) := by
  by_cases hst : (s.link l).st = 4
  · rw [spdmFinish, if_neg (not_not.mpr hst)]
    exact guarded_spdm s l 4 _
  · rw [spdmFinish, if_pos hst]
    exact ⟨spdm_unreached 0 _, spdm_invalid _, fun h hvalid _ => spdm_inPlace _ h hvalid (Nat.zero_le _)⟩

/-- Every SPDM row is guarded by the place in the exchange that its table gives. -/
theorem guarded_row {i : Instr} {l : Fin 9} {n : Nat} {s a : State} (hrow : spdmRow i = some (l, n)) (m : Meets s a) :
    ∃ t, exec i s = .next t ∧ Guarded a l n t := by
  cases i
  all_goals simp only [spdmRow, Option.some.injEq, Prod.mk.injEq, reduceCtorEq] at hrow
  all_goals obtain ⟨rfl, rfl⟩ := hrow
  all_goals simp only [exec_getVersion, exec_getCapabilities, exec_negotiateAlgorithms, exec_getDigests, exec_getCertificate, exec_challenge,
    exec_getMeasurements, exec_keyExchange, exec_finish, exec_keyUpdate, exec_heartbeat, exec_endSession, exec_setCertificate, run_meets m]
  case finish => exact ⟨_, rfl, guarded_finish a _ _⟩
  all_goals exact ⟨_, rfl, guarded_spdm a _ _ _⟩

/-! ### The exchange (R457 to R462, R466) -/

section

variable {s : State} {l : Nat} (h : linkReaches s l = true) (hvalid : s.ident.valid = true)

include h hvalid

theorem spdmVersion_answers : spdmVersion s l =
    spdmAnswer ((endSession s l).modLink l fun x => { x with st := 1 }) l 0x04 (leBytes 1 0x13) := spdm_inPlace _ h hvalid (Nat.zero_le _)

theorem spdmCapabilities_answers (hst : 1 ≤ (s.link l).st) : spdmCapabilities s l =
    spdmAnswer (s.modLink l fun x => { x with st := max x.st 2 }) l 0x61 (leBytes 4 0x10000) := spdm_inPlace _ h hvalid hst

theorem spdmAlgorithms_answers (ok : Bool) (hst : 2 ≤ (s.link l).st) : spdmAlgorithms s l ok =
    if ok then spdmAnswer (s.modLink l fun x => { x with st := max x.st 3 }) l 0x63 (leBytes 2 1 ++ leBytes 2 2) else spdmError s l errUnsupported :=
  spdm_inPlace _ h hvalid hst

section

variable (hst : 3 ≤ (s.link l).st)

include hst

theorem spdmDigests_answers : spdmDigests s l =
    let held := (List.range 8).filter fun k => !(certChain s k).isEmpty
    spdmAnswer s l 0x01 (leBytes 1 ((held.map fun k => 2 ^ k).foldl (· + ·) 0) ++ held.flatMap fun k => sha3_384 (certChain s k)) :=
  spdm_inPlace _ h hvalid hst

theorem spdmCertificate_none {slot : Nat} (hnone : certChain s slot = []) : spdmCertificate s l slot = spdmError s l errInvalid :=
  (spdm_inPlace _ h hvalid hst).trans (if_pos (by simp [hnone]))

theorem spdmCertificate_answers {slot : Nat} (hsome : certChain s slot ≠ []) :
    spdmCertificate s l slot = spdmAnswer s l 0x02 (certChain s slot) :=
  (spdm_inPlace _ h hvalid hst).trans (if_neg (by simp [hsome]))

theorem spdmChallenge_none {slot : Nat} (hnone : certChain s slot = []) : spdmChallenge s l slot = spdmError s l errInvalid :=
  (spdm_inPlace _ h hvalid hst).trans (if_pos (by simp [hnone]))

theorem spdmChallenge_answers {slot : Nat} (hsome : certChain s slot ≠ []) : spdmChallenge s l slot =
    takeFree (spdmAnswer s l 0x03 (sha3_384 (certChain s slot) ++ freeStr s (32 + 49856))) 1 :=
  (spdm_inPlace _ h hvalid hst).trans (if_neg (by simp [hsome]))

theorem spdmMeasurements_number : spdmMeasurements s l 0 = spdmAnswer s l 0x60 (leBytes 1 9) :=
  (spdm_inPlace _ h hvalid hst).trans (if_pos rfl)

theorem spdmMeasurements_all : spdmMeasurements s l 0xFF = spdmAnswer s l 0x60 ((countFrom 1 9).flatMap (measRecord s)) :=
  (spdm_inPlace _ h hvalid hst).trans ((if_neg (by decide)).trans (if_pos rfl))

theorem spdmMeasurements_one {k : Nat} (hlo : 1 ≤ k) (hhi : k ≤ 9) : spdmMeasurements s l k = spdmAnswer s l 0x60 (measRecord s k) :=
  (spdm_inPlace _ h hvalid hst).trans ((if_neg (by omega)).trans ((if_neg (by omega)).trans (if_pos hhi)))

theorem spdmKeyExchange_answers {ek : List Byte} (authed : Bool) (hlen : ek.length = 1568) : spdmKeyExchange s l ek authed =
    takeFree (spdmAnswer ((endSession s l).modLink l fun x => { x with st := 4, authed := authed }) l 0x64 (freeStr s (1568 + 49856))) 1 :=
  (spdm_inPlace _ h hvalid hst).trans (if_neg (not_not.mpr hlen))

theorem spdmKeyExchange_badKey {ek : List Byte} (authed : Bool) (hlen : ek.length ≠ 1568) : spdmKeyExchange s l ek authed = spdmError s l errInvalid :=
  (spdm_inPlace _ h hvalid hst).trans (if_pos hlen)

end

/-! ### FINISH (R459, Table 19-7) -/

section

variable (hst : (s.link l).st = 4)

include hst

/-- A FINISH in a handshake: it fails, or the session forms and the keys of an encrypted port load. -/
theorem spdmFinish_decides (ok : Bool) : spdmFinish s l ok =
    if !ok || (decide (l < 8) && !(s.link l).authed) then
      let t := spdmError (s.modLink l fun x => { x with st := 3, authed := false }) l errInvalid
      if l < 8 ∧ s.ident.require.testBit l then portDown t l else t
    else
      let t := spdmAnswer (s.modLink l fun x => { x with st := 5, epoch := false }) l 0x65 []
      if l < 8 ∧ mustEncrypt s l ∧ (s.port l).peerEnc then
        t.modPort l fun x => { x with encrypt := true, groupsTx := 0, groupsRx := 0, groupN := 0, epochTx := false, epochRx := false, keyedAt := s.now }
      else t :=
  (if_neg (not_not.mpr hst)).trans (spdm_inPlace _ h hvalid (Nat.le_of_eq hst.symm))

theorem spdmFinish_fails {ok : Bool} (hfail : ok = false ∨ (l < 8 ∧ (s.link l).authed = false)) : spdmFinish s l ok =
    let t := spdmError (s.modLink l fun x => { x with st := 3, authed := false }) l errInvalid
    if l < 8 ∧ s.ident.require.testBit l then portDown t l else t := by
  refine (spdmFinish_decides h hvalid hst ok).trans (if_pos ?_)
  rcases hfail with hbad | ⟨hport, hauth⟩
  · simp [hbad]
  · simp [hport, hauth]

/-- A good FINISH on DOE 0, or on a port with mutual authentication. -/
theorem spdmFinish_forms (hauth : l = 8 ∨ (s.link l).authed = true) : spdmFinish s l true =
    let t := spdmAnswer (s.modLink l fun x => { x with st := 5, epoch := false }) l 0x65 []
    if l < 8 ∧ mustEncrypt s l ∧ (s.port l).peerEnc then
      t.modPort l fun x => { x with encrypt := true, groupsTx := 0, groupsRx := 0, groupN := 0, epochTx := false, epochRx := false, keyedAt := s.now }
    else t := by
  refine (spdmFinish_decides h hvalid hst true).trans (if_neg ?_)
  rcases hauth with hdoe | hauthed
  · simp [hdoe]
  · simp [hauthed]

end

/-! ### Inside a secured session (R460, R466) -/

section

variable (hst : 5 ≤ (s.link l).st)

include hst

theorem spdmKeyUpdate_answers : spdmKeyUpdate s l = spdmAnswer (flipEpoch s l) l 0x69 [] := spdm_inPlace _ h hvalid hst

theorem spdmHeartbeat_answers : spdmHeartbeat s l = spdmAnswer s l 0x68 [] := spdm_inPlace _ h hvalid hst

theorem spdmEnd_answers : spdmEnd s l = endSession (spdmAnswer s l 0x6C []) l := spdm_inPlace _ h hvalid hst

theorem spdmSetCertificate_sets {slot : Nat} {chain : List Byte} (hlo : 1 ≤ slot) (hhi : slot ≤ 7) (hchain : chain ≠ []) :
    spdmSetCertificate s l slot chain true = spdmAnswer (s.modIdent fun d => { d with chains := tput [] d.chains slot chain }) l 0x6E [] := by
  refine (spdm_inPlace _ h hvalid hst).trans (if_neg ?_)
  simp only [Bool.not_true, Bool.false_eq_true, List.isEmpty_iff, hchain, or_false]
  omega

theorem spdmSetCertificate_bad {slot : Nat} {chain : List Byte} {ends : Bool} (hbad : slot = 0 ∨ 7 < slot ∨ ends = false ∨ chain = []) :
    spdmSetCertificate s l slot chain ends = spdmError s l errInvalid := by
  refine (spdm_inPlace _ h hvalid hst).trans (if_pos ?_)
  simpa using hbad

end

end

/-- Settles O57: every row is guarded by its place in the exchange (`guarded_row`), and in its place each has the answer and effect of its own
lemma. That a die without a valid identity answers Unspecified (log 69) and the codes of the answers (log 18) are the model's. -/
theorem spdmRequests : Obligations.SpdmRequests := by
  unfold Obligations.SpdmRequests
  intro s a m
  refine ⟨fun i l n hrow => ?guards, fun l h hvalid => ?exchange⟩
  case guards =>
    obtain ⟨t, hexec, hguard⟩ := guarded_row hrow m
    rw [hexec]
    exact ⟨fun h => congrArg _ (hguard.unreached h), fun h hbad => congrArg _ (hguard.invalid h hbad),
      fun h hvalid hearly => congrArg _ (hguard.early h hvalid hearly)⟩
  case exchange =>
    simp only [exec_getVersion, exec_getCapabilities, exec_negotiateAlgorithms, exec_getDigests, exec_getCertificate, exec_challenge,
      exec_getMeasurements, exec_keyExchange, exec_finish, exec_keyUpdate, exec_heartbeat, exec_endSession, exec_setCertificate, run_meets m]
    refine ⟨congrArg _ (spdmVersion_answers h hvalid), fun hst => congrArg _ (spdmCapabilities_answers h hvalid hst),
      fun hst => ⟨congrArg _ (spdmAlgorithms_answers h hvalid true hst), congrArg _ (spdmAlgorithms_answers h hvalid false hst)⟩,
      fun hst => ?negotiated, fun hst hauth => ?finished, fun ok hst hfail => congrArg _ (spdmFinish_fails h hvalid hst hfail), fun hst => ?secured⟩
    case negotiated =>
      exact ⟨congrArg _ (spdmDigests_answers h hvalid hst),
        fun slot hnone => ⟨congrArg _ (spdmCertificate_none h hvalid hst hnone), congrArg _ (spdmChallenge_none h hvalid hst hnone)⟩,
        fun slot hsome => ⟨congrArg _ (spdmCertificate_answers h hvalid hst hsome), congrArg _ (spdmChallenge_answers h hvalid hst hsome)⟩,
        congrArg _ (spdmMeasurements_number h hvalid hst), congrArg _ (spdmMeasurements_all h hvalid hst),
        fun k hlo hhi => congrArg _ (spdmMeasurements_one h hvalid hst hlo hhi),
        fun ek authed hlen => congrArg _ (spdmKeyExchange_answers h hvalid hst authed hlen),
        fun ek authed hlen => congrArg _ (spdmKeyExchange_badKey h hvalid hst authed hlen)⟩
    case finished =>
      have hforms := spdmFinish_forms h hvalid hst hauth
      refine ⟨fun hplain => congrArg _ (hforms.trans (if_neg ?_)), fun hport hmust hpeer => congrArg _ (hforms.trans (if_pos ⟨hport, hmust, hpeer⟩))⟩
      rcases hplain with hdoe | hfree | hpeer
      · exact fun hport => absurd hport.1 (by omega)
      · simp [hfree]
      · simp [hpeer]
    case secured =>
      exact ⟨congrArg _ (spdmKeyUpdate_answers h hvalid hst), congrArg _ (spdmHeartbeat_answers h hvalid hst),
        congrArg _ (spdmEnd_answers h hvalid hst),
        fun slot chain hlo hhi hchain => congrArg _ (spdmSetCertificate_sets h hvalid hst hlo hhi hchain),
        fun slot chain ends hbad => congrArg _ (spdmSetCertificate_bad h hvalid hst hbad)⟩

end Sys2Proof.SpdmExchange

namespace Sys2Proof.MaintenanceConsole

open Sys2Proof Sys2Proof.Machine

/-! ### Commands that wait for Dister (R470) -/

section

variable {s : State}

theorem underDister_before (f : State → State) (h : s.start.dister = false) : underDister s f = say s stWRONG [] :=
  if_neg (ne_true_of_eq_false h)

/-- Before Dister runs a console command that needs it is answered with ST_WRONG_STATE. -/
theorem exec_consoleRow {i : Instr} {s a : State} (hrow : consoleRow i = true) (m : Meets s a) (h : a.start.dister = false) :
    exec i s = .next (say a stWRONG []) := by
  have hwrong (f : State → State) : run s (fun s => underDister s f) = .next (say a stWRONG []) :=
    (run_meets m _).trans (congrArg _ (underDister_before f h))
  cases i
  case help | test | testAll | log | pegdump | consoleRead | baud | unlock | lock | resetWarm | resetCold | rma => exact hwrong _
  all_goals cases hrow

/-! ### AMON (R473) -/

theorem consoleAmon_bad {sel idx : Nat} (mv : Nat) (h : amonOk sel idx = false) : consoleAmon s sel idx mv = say s stBADPARAM [] :=
  if_pos (by simp [h])

theorem consoleAmon_selects {sel idx : Nat} (mv : Nat) (h : amonOk sel idx = true) : consoleAmon s sel idx mv =
    say (s.modSvc fun v => { v with amonSel := sel, amonIdx := idx, amonOut := amonMv s sel idx mv }) stOK [amonMv s sel idx mv] :=
  if_neg (by simp [h])

/-! ### Commands under Dister (R265, R470 to R472, R481) -/

section

variable (hdister : s.start.dister = true)

include hdister

theorem underDister_runs (f : State → State) : underDister s f = f s := if_pos hdister

/-- READ below the CSRs needs an unlocked console. -/
theorem consoleRead_locked {x : Nat} (n : Nat) (hx : x < 0x020000000000) (hlock : unlocked s = false) : consoleRead s x n = say s stNOTPERM [] :=
  (underDister_runs hdister _).trans (if_pos ⟨hx, by simp [hlock]⟩)

theorem consoleRead_reads {x n : Nat} (hopen : 0x020000000000 ≤ x ∨ unlocked s = true) (hlen : n % 8 = 0) (hmost : n ≤ 4096) (halign : x % 8 = 0)
    (hrange : debugRange x n = true ∨ (logRegion ≤ x ∧ x + n ≤ logRegion + 0x1000000)) :
    consoleRead s x n = say (readIn s x n) (if isPoisoned s x n then stUNCORR else stOK) (groups (debugBytes s x n)) := by
  refine (underDister_runs hdister _).trans ((if_neg ?locked).trans (if_neg ?fields))
  case locked =>
    rcases hopen with hhigh | hopen
    · exact fun h => absurd h.1 (Nat.not_lt.mpr hhigh)
    · simp [hopen]
  case fields =>
    have hshown : (debugRange x n || (decide (logRegion ≤ x) && decide (x + n ≤ logRegion + 0x1000000))) = true := by
      simpa using hrange
    rw [hshown, Bool.not_true]
    simp only [Bool.false_eq_true, or_false]
    omega

theorem consoleBaud_sets {r : Nat} (h : r = 230400 ∨ r = 460800 ∨ r = 921600 ∨ r = 1500000 ∨ r = 3000000) :
    consoleBaud s r = (say s stOK []).modSvc fun v => { v with baud := r } :=
  (underDister_runs hdister _).trans (if_pos (by simpa [baudOk] using h))

/-- UNLOCK is refused inside a session. -/
theorem consoleUnlock_inSession (h : s.sess.opened = true) : consoleUnlock s = say s stWRONG [] := (underDister_runs hdister _).trans (if_pos h)

theorem consoleUnlock_opens (h : s.sess.opened = false) :
    consoleUnlock s = (say s stOK []).modSvc fun v => { v with locked := false, lockAfter := false } :=
  (underDister_runs hdister _).trans (if_neg (ne_true_of_eq_false h))

end

end

/-- Settles O59: a command waits for Dister (`exec_consoleRow`) or does its own operation. The answer before Dister (log 74) and READ of the log
region (log 90) are the model's. -/
theorem consoleCommands : Obligations.ConsoleCommands := by
  unfold Obligations.ConsoleCommands
  intro s a m
  refine ⟨fun i hrow h => exec_consoleRow hrow m h, ?_⟩
  simp only [exec_idRecord, exec_status, exec_amon, exec_amonUpdate, exec_help, exec_log, exec_pegdump, exec_consoleRead, exec_baud, exec_unlock,
    exec_lock, exec_rma, run_meets m]
  refine ⟨rfl, rfl, fun sel idx mv => ⟨fun h => congrArg _ (consoleAmon_bad mv h), fun h => congrArg _ (consoleAmon_selects mv h)⟩, fun mv => rfl,
    fun hd => ⟨congrArg _ (underDister_runs hd _), fun n => congrArg _ (underDister_runs hd _), fun c => congrArg _ (underDister_runs hd _),
      congrArg _ (underDister_runs hd _), fun x n hx hlock => congrArg _ (consoleRead_locked hd n hx hlock),
      fun x n hopen hlen hmost halign hrange => congrArg _ (consoleRead_reads hd hopen hlen hmost halign hrange),
      fun r hr => congrArg _ (consoleBaud_sets hd hr), fun h => congrArg _ (consoleUnlock_inSession hd h),
      fun h => congrArg _ (consoleUnlock_opens hd h), congrArg _ (underDister_runs hd _), congrArg _ (underDister_runs hd _)⟩⟩

end Sys2Proof.MaintenanceConsole

namespace Sys2Proof.FieldService

open Sys2Proof Sys2Proof.Machine Sys2Proof.MaintenanceConsole

variable {s : State}

/-! ### RESET (R446, Table 20-1) -/

section

variable (hdister : s.start.dister = true)

include hdister

theorem consoleReset_locked (cold : Bool) (i : StartInputs) (hlock : unlocked s = false) : consoleReset s cold i = say s stNOTPERM [] :=
  (underDister_runs hdister _).trans (if_pos (by simp [hlock]))

/-- An unlocked console restarts the part; RESET COLD spoils the retention header first. -/
theorem consoleReset_unlocked (cold : Bool) (i : StartInputs) (hopen : unlocked s = true) (hpow : powered (quiesce s) = true) : consoleReset s cold i =
    if cold then beginStart (logicReset ((quiesce s).modStart fun t => { t with hdr := { t.hdr with valid := false } })) 3 i
    else beginStart (logicReset (quiesce s)) 2 i := by
  have hcold : powered ((quiesce s).modStart fun t => { t with hdr := { t.hdr with valid := false } }) = true := hpow
  refine (underDister_runs hdister _).trans ((if_neg (by simp [hopen])).trans ?_)
  simp only [warmReset, if_pos hcold, if_pos hpow]

end

/-! ### RECOVER (R479) -/

theorem consoleRecover_running (slot : Nat) (r : SignedRec) (i : StartInputs) (h : s.start.recovery = false) :
    consoleRecover s slot r i = say s stWRONG [] := if_pos (by simp [h])

section

variable (hrec : s.start.recovery = true)

include hrec

theorem consoleRecover_badSlot {slot : Nat} (r : SignedRec) (i : StartInputs) (h : 1 < slot) : consoleRecover s slot r i = say s stBADPARAM [] :=
  (if_neg (by simp [hrec])).trans (if_pos h)

/-- With a slot that exists, the verdict on the image decides. -/
theorem consoleRecover_slot {slot : Nat} (r : SignedRec) (i : StartInputs) (h : slot ≤ 1) : consoleRecover s slot r i =
    if recOk r 1 s.start.inputs.dieId 0x01000000 then
      beginStart ((logicReset s).modStart fun t => { t with hdr := {} }) s.faults.lastCause (if slot = 0 then { i with slot0 := r } else { i with slot1 := r })
    else say s stAUTH [] := by
  refine (if_neg (by simp [hrec])).trans ((if_neg (Nat.not_lt.mpr h)).trans ?_)
  cases recOk r 1 s.start.inputs.dieId 0x01000000 <;> rfl

end

/-! ### TEST and TEST ALL (R472, R475, R476) -/

section

variable (hdister : s.start.dister = true)

include hdister

theorem consoleTest_locked {b t : Nat} {intr : Bool} (n : Nat) (h : intr = true ∨ destructive b t = true) (hlock : unlocked s = false) :
    consoleTest s b t n intr = say s stNOTPERM [] :=
  (underDister_runs hdister _).trans (if_pos (by simpa [hlock] using h))

/-- A test that the console may start begins unless its status refuses it. -/
theorem consoleTest_allowed {b t : Nat} {intr : Bool} (n : Nat) (h : (intr = false ∧ destructive b t = false) ∨ unlocked s = true) :
    consoleTest s b t n intr =
      if testStatus s b t n intr ≠ stOK then say (noteTest s b t n (testStatus s b t n intr) true) (testStatus s b t n intr) []
      else beginTest (s.modSvc fun v => { v with final := none, out := [] })
        { block := b, test := t, index := n, intrusive := intr, console := true } := by
  refine (underDister_runs hdister _).trans (if_neg ?_)
  rcases h with ⟨hintr, hdestr⟩ | hopen
  · simp [hintr, hdestr]
  · simp [hopen]

theorem consoleTestAll_busy (h : s.svc.allPass.isSome = true) : consoleTestAll s = say s stBUSY [] :=
  (underDister_runs hdister _).trans (if_pos h)

theorem consoleTestAll_begins (h : s.svc.allPass = none) :
    consoleTestAll s = nextTest (s.modSvc fun v => { v with final := none, out := [], allPass := some true }) allTests :=
  (underDister_runs hdister _).trans (if_neg (by simp [h]))

end

/-! ### SELFTEST_COMPLETE (R474 to R477) -/

/-- Whether a test still waits for its target: a core for its fence, a rake for the end of the phase. -/
def testWaits (s : State) (b n : Nat) (x : Test) : Bool :=
  x.intrusive && ((coreBlock b && !quickTest b x.test && (s.core n).mode != .fenced) || (b == 0x0A && s.rphase.active))

/-- The part once a test has left the list of those that run; a destructive one leaves its target's content open (R477). -/
def testEnded (s : State) (b n : Nat) (x : Test) : State :=
  let t := s.modSvc fun v => { v with running := delFirst (fun t => t.block == b && t.index == n) v.running }
  if destructive b x.test then scramble t (scrambled t x) else t

theorem selftestComplete_unknown {b n : Nat} (pass : Bool) (d : Nat) (h : (s.svc.running.find? fun t => t.block == b && t.index == n) = none) :
    selftestComplete s b n pass d = s := by
  rw [selftestComplete, h]

/-- A test that runs is kept while it waits, and else its verdict is reported. -/
theorem selftestComplete_runs {b n : Nat} {x : Test} (pass : Bool) (d : Nat)
    (h : (s.svc.running.find? fun t => t.block == b && t.index == n) = some x) : selftestComplete s b n pass d =
      if testWaits s b n x then s
      else
        let ok := pass && meetsCriterion s x d && !x.doomed
        reportTest (verdict (testEnded s b n x) x ok) x ok d := by
  rw [selftestComplete, h]
  rfl

/-- Settles O60: each clause is a branch of its operation, over a part that is on (`run_meets`). That RECOVER keeps LASTCAUSE (log 68), and how
tests wait, are doomed and are skipped (log 75), are the model's. -/
theorem serviceActions : Obligations.ServiceActions := by
  unfold Obligations.ServiceActions
  intro s a m
  simp only [exec_resetWarm, exec_resetCold, exec_recover, exec_test, exec_testAll, exec_selftestComplete, run_meets m]
  refine ⟨?resetLocked, ?resetUnlocked, ?recover, ?test, ?testAllBusy, ?testAll, ?unknown, ?complete⟩
  case resetLocked =>
    exact fun i hd hlock => ⟨congrArg _ (consoleReset_locked hd false i hlock), congrArg _ (consoleReset_locked hd true i hlock)⟩
  case resetUnlocked =>
    exact fun i hd hopen hpow =>
      ⟨congrArg _ (consoleReset_unlocked hd false i hopen hpow), congrArg _ (consoleReset_unlocked hd true i hopen hpow)⟩
  case recover =>
    exact fun slot r i => ⟨fun h => congrArg _ (consoleRecover_running slot r i h), fun h hs => congrArg _ (consoleRecover_badSlot h r i hs),
      fun h hs hbad => congrArg _ ((consoleRecover_slot h r i hs).trans (if_neg (ne_true_of_eq_false hbad))),
      fun h hs hok => congrArg _ ((consoleRecover_slot h r i hs).trans (if_pos hok))⟩
  case test =>
    exact fun b t n intr hd => ⟨fun h hlock => congrArg _ (consoleTest_locked hd n h hlock), fun h =>
      ⟨fun hst => congrArg _ ((consoleTest_allowed hd n h).trans (if_pos hst)),
        fun hst => congrArg _ ((consoleTest_allowed hd n h).trans (if_neg (not_not_intro hst)))⟩⟩
  case testAllBusy => exact fun hd h => congrArg _ (consoleTestAll_busy hd h)
  case testAll => exact fun hd h => congrArg _ (consoleTestAll_begins hd h)
  case unknown => exact fun b n pass d h => congrArg _ (selftestComplete_unknown pass d h)
  case complete =>
    exact fun b n pass d x h => ⟨fun hw => congrArg _ ((selftestComplete_runs pass d h).trans (if_pos hw)),
      fun hw => congrArg _ ((selftestComplete_runs pass d h).trans (if_neg (ne_true_of_eq_false hw)))⟩

end Sys2Proof.FieldService
